-- ==== Sys2Proof/Word.lean ====
section
/-! DEFINITION. Bytes and words, and reading a bit field of a word. -/

namespace Sys2Proof

/-- One byte of memory. -/
abbrev Byte := BitVec 8

/-- Bits [hi:lo] of a number, with bit 0 the least significant (00_scope, R8). -/
def fld (w hi lo : Nat) : Nat := (w >>> lo) % 2 ^ (hi + 1 - lo)

/-- Bit `i` of a number. -/
def bit (w i : Nat) : Bool := w.testBit i

/-- Bits [hi:lo] of a word. -/
def bfld {n : Nat} (w : BitVec n) (hi lo : Nat) : Nat := fld w.toNat hi lo

/-- `ceil (a / b)`. -/
def cdiv (a b : Nat) : Nat := (a + b - 1) / b

/-- `a` rounded up to a multiple of `b`. -/
def roundUp (a b : Nat) : Nat := cdiv a b * b

/-- The positions of the bits of `w` that are 1, below `n`, in ascending order. -/
def bitsOf (w n : Nat) : List Nat := (List.range n).filter (fun i => w.testBit i)

end Sys2Proof
end

