-- ==== Sys2Proof/Syntax.lean ====
section
/-! DEFINITION. The commands that the block takes, and the records they carry. -/

namespace Sys2Proof

/-- The packet header of Table 09-1 (R216). -/
structure Hdr where
  addr : Nat := 0
  incClaim : Nat := 0
  dstNode : Nat := 0
  dstEp : Nat := 0
  srcNode : Nat := 0
  srcEp : Nat := 0
  ctxTag : Nat := 0
  viaNode : Nat := 0
  tag : Nat := 0
  msgLen : Nat := 0
  opcode : Nat := 0
  length : Nat := 0
  pad : Nat := 0
  vc : Nat := 0
  tc : Nat := 0
  hops : Nat := 0
  viaV : Bool := false
  repin : Bool := false
  ordered : Bool := false
  poison : Bool := false
  last : Bool := false
  deriving DecidableEq, Repr

/-- What a packet carries besides the common header (Tables 03-6, 09-2, 14-1). The spec names these fields and
gives them no place in the payload, so they stand beside it (log 6). -/
inductive Msg where
  | plain
  | cmp (status result : Nat)
  | data (status state : Nat)
  | grant (status state : Nat)
  | wbAck (status : Nat)
  | snp (txn reqNode reqEp reqTag : Nat)
  | stashOffer (txn state : Nat)
  | leaseAck (agent seq time inc result : Nat)
  | mirAck (tag status : Nat)
  | mirFwd (publish : Bool)
  | agent (agent arg : Nat)
  | rsp (txn arg : Nat)
  | collDone (cid step status withheld : Nat)
  deriving DecidableEq, Repr

/-- A packet: header, message fields, payload bytes. -/
structure Packet where
  hdr : Hdr
  msg : Msg := .plain
  data : List Byte := []
  deriving DecidableEq, Repr

/-- A 16-byte unit of the unit stream (R192): a packet's first or second header unit, payload unit `k` of a packet, or a unit
given by its bits (INIT flits, R194). -/
inductive LUnit where
  | head (p : Packet)
  | second (p : Packet)
  | payload (p : Packet) (k : Nat)
  | raw (w : BitVec 128)
  deriving DecidableEq, Repr

/-- A flit (R187, Table 08-1): header fields, its used units and its CRC; `rsvd` is the reserved bit, `fecBad` says that a
codeword of it is uncorrectable, `corrected` how many codewords of it FEC corrected (R190). -/
structure Flit where
  typ : Nat := 0
  seq : Nat := 0
  ackV : Bool := false
  ackSeq : Nat := 0
  stompAt : Nat := 15
  crAVc : Nat := 0
  crACnt : Nat := 0
  crBVc : Nat := 0
  crBCnt : Nat := 0
  rsvd : Bool := false
  units : List LUnit := []
  crc : BitVec 64 := 0
  fecBad : Bool := false
  corrected : Nat := 0
  deriving DecidableEq, Repr

/-- The source of a mailbox or register access (R366): a PCIe function, or the packet that a port brought. -/
inductive Src where
  | func (f : Nat)
  | fabric (port : Nat) (h : Hdr)
  deriving DecidableEq, Repr

/-- The width of an atomic (Table 03-9): an integer of so many bits, or a float format. -/
inductive Width where
  | int (bits : Nat)
  | fp32
  | fp16
  | bf16
  deriving DecidableEq, Repr

/-- A flow key (R224). -/
structure FlowKey where
  srcNode : Nat
  srcEp : Nat
  dstNode : Nat
  tc : Nat
  deriving DecidableEq, Repr

/-- A message key (R230). -/
structure MsgKey where
  srcNode : Nat
  srcEp : Nat
  ctxTag : Nat
  tag : Nat
  opcode : Nat
  deriving DecidableEq, Repr

/-- The request of `CTX_CREATE` (Table 16-7). -/
structure CtxReq where
  part : Nat
  mode : Nat
  eq : Nat
  mirror : Nat
  window : Nat
  timeout : Nat
  deriving DecidableEq, Repr

/-- The request of `REGION_CREATE` (Table 16-8). -/
structure RegionReq where
  part : Nat
  tier : Nat
  policy : Nat
  mirror : Nat
  stkMask : Nat
  qtrMask : Nat
  dcMask : Nat
  grain : Nat
  xorHash : Nat
  size : Nat
  version : Nat
  deriving DecidableEq, Repr

/-- The request of `QUEUE_CREATE` (Table 16-9). -/
structure QueueReq where
  q : Nat
  tag : Nat
  log2 : Nat
  ring : Nat
  comp : Nat
  eq : Nat
  mode : Nat
  deriving DecidableEq, Repr

/-- The request of `EQ_CREATE` (Tables 13-1, 16-9): `notify` 0 NONE, 1 MSIX, 2 FABRIC. -/
structure EqReq where
  eq : Nat
  log2 : Nat
  ring : Nat
  notify : Nat
  vector : Nat
  node : Nat
  ep : Nat
  addr : Nat
  tc : Nat
  modCount : Nat
  modTime : Nat
  deriving DecidableEq, Repr

/-- The request of `COLL_CREATE` (Tables 06-4, 16-11). -/
structure CollReq where
  tag : Nat
  cid : Nat
  n : Nat
  op : Nat
  inFmt : Nat
  inScaled : Nat
  outFmt : Nat
  outScaled : Nat
  round : Nat
  ovf : Nat
  seed : Nat
  chunkElems : Nat
  chunks : Nat
  accum : Nat
  result : Nat
  status : Nat
  deliver : Nat
  flock : Nat
  tc : Nat
  addr : Nat
  eq : Nat
  timeout : Nat
  deriving DecidableEq, Repr

/-- The request of `MIRROR_PAIR_SET` (Table 16-12). -/
structure MirrorReq where
  set : Nat
  partner : Nat
  ports : Nat
  role : Nat
  claim : Nat
  rate : Nat
  deriving DecidableEq, Repr

/-- The request of `BOOT_SERVE` (Table 16-16). -/
structure ServeReq where
  handle : Nat
  len : Nat
  flock : Nat
  addr : Nat
  tc : Nat
  rounds : Nat
  rate : Nat
  deriving DecidableEq, Repr

/-- The expected topology (R359): the policy word of Table 15-4, 96 port entries of Table 15-5 and the neighbour
entries of Table 15-6. -/
structure TopoExpect where
  policy : BitVec 64
  ports : List (BitVec 32)
  neighbours : List (BitVec 64)
  deriving DecidableEq, Repr

/-- One DIMM's organisation, as its serial presence detect gives it (R11, R237), and what Tables 10-5 and 10-6 ask of it
(R259): `kind` 0 RDIMM, 1 MRDIMM, its speed in MT/s, its device width, whether it has ECC, its stack height, and whether it
supports directed refresh management. -/
structure Dimm where
  dc : Nat
  slot : Nat
  gib : Nat
  ranks : Nat
  bg : Nat
  ba : Nat
  cols : Nat
  serial : Nat
  kind : Nat := 0
  speed : Nat := 0
  width : Nat := 4
  ecc : Bool := true
  height : Nat := 1
  drfm : Bool := false
  deriving DecidableEq, Repr

/-- A unit of the controller, for self-test, training and absence. -/
inductive UnitRef where
  | pc (n : Nat)
  | stack (n : Nat)
  | dc (n : Nat)
  | oe (n : Nat)
  | te (n : Nat)
  | port (n : Nat)
  | hub (n : Nat)
  | iod (n : Nat)
  deriving DecidableEq, Repr

/-- What a bring-up stage finds (R256, R353 to R356): `ok` is the outcome of the check whose failure stops bring-up in that
stage, `absent` the units that failed in it; in stage MEMORY the DIMMs, the serial of each stack, and the interfaces whose pattern
test failed with their saved records: stack `n` as `n`, DDR5 channel `n` as 0x8000 + `n`. -/
structure StageReport where
  ok : Bool := true
  absent : List UnitRef := []
  dimms : List Dimm := []
  serials : List (Nat × Nat) := []
  unverified : List Nat := []
  deriving DecidableEq, Repr

/-- The commands of the block: one constructor per row of spec/opcode_table.json, in the table's order. Operands:
`m` the mailbox whose command runs, `p` the arrival port of a packet with header `h` (port 96 for a packet of the
controller's own), `q i` the descriptor of index `i` of queue `q`, `u` a memory unit as Table 16-14 numbers it,
`g` a channel group, `e` an engine as R433 numbers it, `fn` a PCIe function. -/
inductive Instr where
  /-- DISCOVER (R375): Returns the capability words, ordering code, serial, mailbox index and the stock operator codes. -/
  | discover (m : Nat)
  /-- PARTITION_CREATE (R281): The fabric manager creates a partition from a configuration block after the ordered checks. -/
  | partitionCreate (m : Nat) (blk : BitVec 512)
  /-- PARTITION_RESIZE (R283): Changes an existing partition's configuration block, with each field taking effect at its stated point. -/
  | partitionResize (m : Nat) (blk : BitVec 512)
  /-- PARTITION_QUERY (R280): Returns a partition's configuration block, or the reset values for a partition that does not exist. -/
  | partitionQuery (m part : Nat)
  /-- PARTITION_DESTROY (R283): Destroys an empty partition, opens its slots and erases its key, completing after the next wrap. -/
  | partitionDestroy (m part : Nat)
  /-- PARTITION_RESET (R326): Tears down and destroys a partition's contexts, queues and collectives, and resets its event queues. -/
  | partitionReset (m part : Nat)
  /-- PARTITION_RESET_DONE (R326): The partition reset finishes after its teardowns and zeroing and posts its completion event. -/
  | partitionResetDone (part : Nat)
  /-- PART_EQ_SET (R313): Binds the partition event queue. -/
  | partEqSet (m part eq : Nat)
  /-- FM_EQ_SET (R313): Binds the fabric manager event queue and its PF vector. -/
  | fmEqSet (m eq vec : Nat)
  /-- BOUNCE_SET (R385): Sets or clears a confidential partition's bounce buffer. -/
  | bounceSet (m part base len : Nat)
  /-- CTX_CREATE (R284): Creates a context and allocates its page-table root and rank table. -/
  | ctxCreate (m : Nat) (r : CtxReq)
  /-- CTX_TEARDOWN (R322): Starts the teardown of a context. -/
  | ctxTeardown (m tag : Nat)
  /-- TEARDOWN_COMPLETE (R322): Once the teardown's writes have drained, the controller frees the runs and posts TEARDOWN_DONE. -/
  | teardownComplete (ctx : Nat)
  /-- QUARANTINE_EXPIRY (R285): A context number's 1 s quarantine ends, and the number becomes assignable or revivable. -/
  | quarantineExpiry (ctx : Nat)
  /-- CTX_REVIVE (R321): Makes a torn-down context active under its new tag. -/
  | ctxRevive (m tag : Nat)
  /-- CTX_DESTROY (R321): Unmaps a context, destroys its queues and frees its tables. -/
  | ctxDestroy (m tag : Nat)
  /-- CTX_TABLE_READ (R31): Returns up to 256 page-table entries of one level. -/
  | ctxTableRead (m tag cva level first : Nat)
  /-- RANK_TABLE_SET (R221): Writes a range of a context's rank table. -/
  | rankTableSet (m tag first : Nat) (entries : List Nat)
  /-- RESOLVE_FAULT (R46): Retries or aborts every waiter of a fault coalescing entry and closes the entry. -/
  | resolveFault (m fid action : Nat)
  /-- FAULT_QUERY (R45): Returns an open fault entry's record, waiter count and dropped reports. -/
  | faultQuery (m fid : Nat)
  /-- REGION_CREATE (R17): Checks a region request and allocates a region and its extent. -/
  | regionCreate (m : Nat) (r : RegionReq)
  /-- REGION_QUERY (R15): Returns a region record. -/
  | regionQuery (m rid : Nat)
  /-- REGION_DESTROY (R21): Marks a region destroying and waits for its requests before freeing it. -/
  | regionDestroy (m rid : Nat)
  /-- REGION_DRAIN_DONE (R21): A destroying region's requests have completed, so its chunks go to zeroing and the region frees when zeroing allows. -/
  | regionDrainDone (rid : Nat)
  /-- CHUNK_ZEROED (R20): A freed chunk finishes zeroing and becomes free space. -/
  | chunkZeroed (chunk : Nat)
  /-- REGION_PUBLISH (R25): A mailbox publication enters the target's serial order. -/
  | regionPublish (m target staging v w : Nat)
  /-- PUBLICATION_HEAD (R26): A publication reaches the head of its target's order and is checked and version-compared. -/
  | publicationHead (target : Nat)
  /-- PUBLICATION_SWAP (R25): The staging writes have drained, so the copies are recalled, the extents and versions exchanged and WRITE_HOLD set. -/
  | publicationSwap (target : Nat)
  /-- WRITE_HOLD_CLEAR (R27): The requests on the old extent have completed, so WRITE_HOLD clears and the held writes proceed. -/
  | writeHoldClear (rid : Nat)
  /-- REGION_MAP (R33): Maps a region range into a context with the largest aligned leaves. -/
  | regionMap (m tag cva rid off len rd wr : Nat)
  /-- MAP_ZERO (R34): Creates ZERO leaves over a CVA range. -/
  | mapZero (m tag cva len : Nat)
  /-- REGION_UNMAP (R50): Marks a range as unmapping and handles the descriptors that cover it in WAIT or FAIL mode. -/
  | regionUnmap (m tag cva len mode : Nat)
  /-- UNMAP_DRAIN_DONE (R50): The covered descriptors and fabric requests have completed, so the leaves are split and invalidated and MAP_COUNT updated. -/
  | unmapDrainDone (ctx cva : Nat)
  /-- UNMAP_WAIT_TIMEOUT (R51): A WAIT-mode unmap that has not drained in 100 ms continues as in mode FAIL. -/
  | unmapWaitTimeout (ctx cva : Nat)
  /-- QUEUE_CREATE (R88): Creates a queue and pre-translates its rings. -/
  | queueCreate (m : Nat) (r : QueueReq)
  /-- QUEUE_DESTROY (R375): Destroys a queue that is DISABLED, ERROR or BLOCKED with no admitted descriptor. -/
  | queueDestroy (m q : Nat)
  /-- QUEUE_ENABLE (R95): Moves a DISABLED queue to ACTIVE so that admission resumes. -/
  | queueEnable (m q : Nat)
  /-- QUEUE_DISABLE (R95): Moves an ACTIVE queue to DISABLED so that admission stops. -/
  | queueDisable (m q : Nat)
  /-- QUEUE_RESET (R95): Waits for the admitted descriptors, zeroes PI and CI and leaves the queue DISABLED. -/
  | queueReset (m q : Nat)
  /-- QUEUE_QUERY (R375): Returns a queue's indices, state, context and event queue. -/
  | queueQuery (m q : Nat)
  /-- QUEUE_SET_WATCHDOG (R317): Sets a queue's sheepdog period and action. -/
  | queueSetWatchdog (m q period action : Nat)
  /-- QUEUE_SAMPLES (R303): Returns a queue's 16 newest samples. -/
  | queueSamples (m q : Nat)
  /-- EQ_CREATE (R308): Creates an event queue and zeroes its ring. -/
  | eqCreate (m : Nat) (r : EqReq)
  /-- EQ_DESTROY (R308): Removes an event queue that nothing names. -/
  | eqDestroy (m eq : Nat)
  /-- MEM_SLOT_SET (R288): Writes slot entries in a group's shadow slot table. -/
  | memSlotSet (m g first : Nat) (entries : List Nat)
  /-- MEM_SLOT_COMMIT (R288): Marks groups to switch to their shadow tables at the next wrap. -/
  | memSlotCommit (m mask : Nat)
  /-- MEM_SLOT_QUERY (R288): Returns the active or the shadow slot table of a group. -/
  | memSlotQuery (m g copy : Nat)
  /-- SHAPER_ALLOC (R297): Allocates a queue shaper with full tokens. -/
  | shaperAlloc (m part : Nat) (word : BitVec 64)
  /-- SHAPER_FREE (R297): Frees a queue shaper that is not attached. -/
  | shaperFree (m sh : Nat)
  /-- SHAPER_SET (R299): Changes a shaper word, resets its tokens and recomputes its wheel entries. -/
  | shaperSet (m sh : Nat) (word : BitVec 64)
  /-- SHAPER_ATTACH (R297): Attaches a queue shaper to a queue, or detaches it. -/
  | shaperAttach (m q sh : Nat)
  /-- PORT_DEDICATE (R296): Dedicates a port to one partition, or releases it. -/
  | portDedicate (m port part : Nat)
  /-- COLL_CREATE (R148): Creates a collective and allocates its working area. -/
  | collCreate (m : Nat) (r : CollReq)
  /-- COLL_DESTROY (R154): Closes a collective's open steps and frees its working area. -/
  | collDestroy (m tag cid : Nat)
  /-- COLL_QUERY (R375): Returns a collective's current step, status block headers and bitmaps. -/
  | collQuery (m tag cid first : Nat)
  /-- ENGINE_WD_SET (R318): Sets the period of the engine watchdogs. -/
  | engineWdSet (m mask period : Nat)
  /-- ENGINE_RESET (R318): Resets an engine, abandoning its work when it is in service. -/
  | engineReset (m kind num : Nat)
  /-- COH_AGENT_ADD (R78): Registers a caching agent to a node and an endpoint. -/
  | cohAgentAdd (m agent node ep : Nat)
  /-- COH_AGENT_REMOVE (R81): Expires an agent's lease and completes once its reclaim is complete. -/
  | cohAgentRemove (m agent : Nat)
  /-- COH_LEASE_SET (R79): Sets the lease length and the beat interval. -/
  | cohLeaseSet (m lease interval : Nat)
  /-- COH_DIR_CONFIG (R60): Sets the directory fraction for the next cold reset. -/
  | cohDirConfig (m frac : Nat)
  /-- COH_DIR_READ (R62): Returns directory buckets to the fabric manager. -/
  | cohDirRead (m hub first count : Nat)
  /-- COH_STATS (R65): Returns a hub's coherence statistics. -/
  | cohStats (m hub : Nat)
  /-- MIRROR_PAIR_SET (R334): Pairs this controller into a mirror set with a role and an initial claim. -/
  | mirrorPairSet (m : Nat) (r : MirrorReq)
  /-- MIRROR_UNPAIR (R335): Returns the controller to UNPAIRED. -/
  | mirrorUnpair (m : Nat)
  /-- MIRROR_BREAK (R347): A FENCED controller raises its claim by 2 and serves as SOLO. -/
  | mirrorBreak (m : Nat)
  /-- MIRROR_QUERY (R375): Returns the mirror set id, role, claims and path flags. -/
  | mirrorQuery (m : Nat)
  /-- PORT_QUERY (R179): Returns the status and link words of the named ports. -/
  | portQuery (m mask : Nat)
  /-- PORT_SET_MODES (R171): Restricts the advertised rates and widths from the next training. -/
  | portSetModes (m mask rates widths : Nat)
  /-- PORT_TRAIN (R178): Idles the named ports and retrains them, optionally discarding the saved record. -/
  | portTrain (m mask full : Nat)
  /-- PORT_DISABLE (R178): Stops the named ports and puts them in electrical idle. -/
  | portDisable (m mask : Nat)
  /-- PORT_ADMIT (R180): Admits ports whose partner changed, so that routing may use them. -/
  | portAdmit (m mask : Nat)
  /-- PORT_MARK_ABSENT (R178): Marks the named ports absent until the next reset. -/
  | portMarkAbsent (m mask : Nat)
  /-- PORT_SET_POWER (R185): Enables PL2 and sets the low-power entry timers of the named ports. -/
  | portSetPower (m mask pl2 t1 t2 : Nat)
  /-- PORT_SET_LINK (R214): Sets the link configuration word of the named ports. -/
  | portSetLink (m mask : Nat) (word : BitVec 64)
  /-- PORT_LINK_STATS (R215): Returns the link statistics blocks of the named ports and optionally clears them. -/
  | portLinkStats (m mask clear : Nat)
  /-- NODE_CONFIG (R218): Sets the routing configuration word. -/
  | nodeConfig (m : Nat) (word : BitVec 64)
  /-- ROUTE_SET (R222): Writes route entries whole on all I/O dies. -/
  | routeSet (m first : Nat) (entries : List Nat)
  /-- VSET_SET (R224): Writes a Valiant set whole on all I/O dies. -/
  | vsetSet (m set : Nat) (nodes : List Nat)
  /-- ROUTE_UNPIN (R226): Releases the pins of the flows to a destination node. -/
  | routeUnpin (m node : Nat)
  /-- FLOCK_SET (R233): Writes a flock entry whole. -/
  | flockSet (m flock : Nat) (entry : BitVec 128)
  /-- ROUTE_QUERY (R375): Returns route, Valiant set or flock entries, with the routing word and PIN_FULL. -/
  | routeQuery (m kind first count : Nat)
  /-- MB_ACL_SET (R367): Replaces a mailbox's fabric access list. -/
  | mbAclSet (m mbx : Nat) (pairs : List (Nat × Nat)) (direct : Nat)
  /-- MEM_SCHED_SET (R240): Sets a group's scheduling configuration word. -/
  | memSchedSet (m g : Nat) (word : BitVec 64)
  /-- MEM_CONFIG_QUERY (R375): Returns a group's scheduling word and the strainer word. -/
  | memConfigQuery (m g : Nat)
  /-- MEM_ADDR_DECODE (R237): Decodes a PPA to its unit, bank, row and column. -/
  | memAddrDecode (m ppa : Nat)
  /-- MEM_PC_SNAPSHOT (R250): Returns a frozen unit's snapshot. -/
  | memPcSnapshot (m u : Nat)
  /-- MEM_PC_UNFREEZE (R251): Poisons FAIL_PPA and resumes a frozen unit from empty queues. -/
  | memPcUnfreeze (m u : Nat)
  /-- MEM_PC_SPARE (R253): Takes a spare and starts writing it for a frozen pseudo-channel. -/
  | memPcSpare (m u mode : Nat)
  /-- SPARE_COPY_DONE (R253): The spare is written, so the logical pseudo-channel is pointed at it and DEGRADED is cleared. -/
  | spareCopyDone (u : Nat)
  /-- MEM_UNIT_MARK_ABSENT (R254): Marks a memory unit absent, so its reads return poison and its writes are discarded. -/
  | memUnitMarkAbsent (m kind num sid : Nat)
  /-- MEM_SCRUB_SET (R272): Sets the strainer configuration word. -/
  | memScrubSet (m : Nat) (word : BitVec 64)
  /-- MEM_RETIRE_PAGE (R273): Retires a 64 KiB page, starting a copy of it when it is allocated. -/
  | memRetirePage (m ppa : Nat)
  /-- RETIRE_COPY_DONE (R273): The page copy finishes, the chunk-list entry is rewritten and the page is retired. -/
  | retireCopyDone (ppa : Nat)
  /-- MEM_RETIRE_BANK (R274): Spares or fences a bank. -/
  | memRetireBank (m u sid bg bank mode : Nat)
  /-- BANK_SPARE_DONE (R274): The slice copy into a spare finishes and the unit is remapped. -/
  | bankSpareDone (u : Nat)
  /-- MEM_RETIRE_QUERY (R275): Lists the retired pages and fenced banks. -/
  | memRetireQuery (m first : Nat)
  /-- MEM_RETIRE_CLEAR (R275): Removes a retirement entry, with effect from the next cold reset. -/
  | memRetireClear (m idx : Nat)
  /-- LOG_READ (R276): Returns error-log records and the overwrite count. -/
  | logRead (m hub first count : Nat)
  /-- DUMP_READ (R319): Returns crash-dump bytes and releases ALERT_N at the end of the dump. -/
  | dumpRead (m off len : Nat)
  /-- CHIP_RESET (R328): Writes its response and schedules a warm or cold reset 1 ms later. -/
  | chipReset (m kind renumber : Nat)
  /-- RESET_DELAY_EXPIRY (R328): The 1 ms after a CHIP_RESET response passes and the requested reset begins. -/
  | resetDelayExpiry
  /-- POWER_LIMIT_SET (R1): Sets a package power limit and a hub clock no higher than the fused values. -/
  | powerLimitSet (m watts mhz : Nat)
  /-- TIME_STEER (R397): Steps the time base and sets its steering rate. -/
  | timeSteer (m : Nat) (step rate : Int)
  /-- TIME_STEP_ABSORBED (R397): A negative step has been absorbed and the time base returns to full rate. -/
  | timeStepAbsorbed
  /-- BOOT_QUERY (R358): Returns the boot status word. -/
  | bootQuery (m : Nat)
  /-- BOOT_PROCEED (R361): Moves a controller from HELD_TOPO to READY. -/
  | bootProceed (m : Nat)
  /-- TOPO_EXPECT_SET (R359): Writes the expected topology and optionally stores it in boot flash. -/
  | topoExpectSet (m store : Nat) (t : TopoExpect)
  /-- TOPO_EXPECT_QUERY (R359): Returns the expected topology. -/
  | topoExpectQuery (m : Nat)
  /-- BOOT_SERVE (R363): Starts a multicast carousel of a pool image to a flock. -/
  | bootServe (m : Nat) (r : ServeReq)
  /-- BOOT_SERVE_SEND (R364): Sends the next manifest, CRC or image packet of a boot-serve round at the set rate. -/
  | bootServeSend (sid : Nat)
  /-- BOOT_SERVE_QUERY (R363): Reports a boot service's round, bytes sent and status. -/
  | bootServeQuery (m sid : Nat)
  /-- BOOT_SERVE_STOP (R363): Ends a boot service after its current packet. -/
  | bootServeStop (m sid : Nat)
  /-- FW_QUERY (R375): Reports the firmware slots and the booted slot. -/
  | fwQuery (m : Nat)
  /-- FW_WRITE (R354): Writes image bytes into slot B. -/
  | fwWrite (m off : Nat) (data : List Byte)
  /-- FW_COMMIT (R382): Verifies slot B and exchanges the slots. -/
  | fwCommit (m len : Nat)
  /-- FW_SVN_RAISE (R382): Raises the fused security version to that of the running image. -/
  | fwSvnRaise (m : Nat)
  /-- TEST_FLIP_ARM (R277): Arms a flip mask on a memory unit. -/
  | testFlipArm (m u mask : Nat)
  /-- TEST_FLIP_DISARM (R277): Cancels a pending flip mask. -/
  | testFlipDisarm (m : Nat)
  /-- TEST_PORT_INJECT (R376): Corrupts or strips the acknowledgements of the port's next DATA flits. -/
  | testPortInject (m port kind count : Nat)
  /-- MB_LOCK_READ (R369): A read of MB_LOCK acquires the mailbox or returns the holder's ticket or 0. -/
  | mbLockRead (src : Src) (mbx : Nat)
  /-- MB_LOCK_WRITE (R369): The holder's write of its ticket releases the mailbox. -/
  | mbLockWrite (src : Src) (mbx val : Nat)
  /-- MB_DOORBELL_WRITE (R369): The holder's ticket write submits the request for running. -/
  | mbDoorbellWrite (src : Src) (mbx val : Nat)
  /-- MB_REQUEST_WRITE (R369): A write to the request buffer is captured from the holder or discarded and counted. -/
  | mbRequestWrite (src : Src) (mbx off : Nat) (data : List Byte)
  /-- MB_REJECTS_READ (R365): A read returns and clears the mailbox reject count. -/
  | mbRejectsRead (src : Src) (mbx : Nat)
  /-- MB_HOLDER_TIMEOUT (R369): A holder idle for 1 s in HELD or DONE loses the mailbox. -/
  | mbHolderTimeout (mbx : Nat)
  /-- MB_COMMAND_START (R374): A submitted command starts once one of the 16 command slots is free and its objects are unclaimed. -/
  | mbCommandStart (mbx : Nat)
  /-- MB_COMMAND_END (R369): A running command ends, its response is written and NOTIFY_VEC is signalled. -/
  | mbCommandEnd (mbx : Nat)
  /-- DB_PI_WRITE (R92): A host doorbell sets PI or is discarded as out of range. -/
  | dbPiWrite (fn q val : Nat)
  /-- FABRIC_DOORBELL (R93): A fabric write to endpoint 0xFD acts as a doorbell when its context tag matches the queue's. -/
  | fabricDoorbell (p : Nat) (h : Hdr) (q val : Nat)
  /-- DB_REJECTS_READ (R91): A read returns and clears the count of discarded doorbells. -/
  | dbRejectsRead (src : Src) (q : Nat)
  /-- EQ_CI_WRITE (R312): A consumer index write returns records and re-arms notification. -/
  | eqCiWrite (src : Src) (eq val : Nat)
  /-- EQ_DROPPED_READ (R311): A read returns and clears the count of dropped events. -/
  | eqDroppedRead (src : Src) (eq : Nat)
  /-- TIME_BASE_LOW_READ (R397): A 4-byte read of the low half latches the high half for the same function. -/
  | timeBaseLowRead (fn : Nat)
  /-- REGISTER_WRITE_DISCARD (R394): A write to a register without a row of its own, or to a reserved offset, is discarded. -/
  | registerWriteDiscard (fn bar off val : Nat)
  /-- DESCRIPTOR_ADMIT (R104): The queue's head descriptor is read and checked in admission order. -/
  | descriptorAdmit (q : Nat)
  /-- HELD_QUEUE_RETRY (R111): When budget or runs are returned, the HELD queues are retried in the order they became HELD. -/
  | heldQueueRetry (part : Nat)
  /-- SHAPER_WHEEL_VISIT (R298): The calendar wheel reaches a queue's eligible entry. -/
  | shaperWheelVisit (q : Nat)
  /-- DESCRIPTOR_START (R106): An admitted descriptor starts when its ordering constraints allow. -/
  | descriptorStart (q i : Nat)
  /-- SEGMENT_DONE (R112): A 256 KiB segment finishes on its transfer engine. -/
  | segmentDone (q i : Nat)
  /-- DESCRIPTOR_COMPLETE (R108): The completion record is written, CI is advanced and the charge is returned. -/
  | descriptorComplete (q i : Nat)
  /-- COPY (R100): Moves LENGTH bytes from SRC to DST. -/
  | copy (q i : Nat)
  /-- TILE2D (R100): Moves rows at the source and destination pitches. -/
  | tile2d (q i : Nat)
  /-- TILE3D (R100): Repeats TILE2D over planes. -/
  | tile3d (q i : Nat)
  /-- GATHER (R102): Copies the indexed table rows to consecutive destination rows. -/
  | gather (q i : Nat)
  /-- SCATTER (R102): Copies consecutive rows to the indexed table rows. -/
  | scatter (q i : Nat)
  /-- FILL (R100): Writes a repeated pattern. -/
  | fill (q i : Nat)
  /-- OPERATOR (R114): Runs a user OCB through the operator engine's stage chain. -/
  | operator (q i : Nat)
  /-- FENCE (R107): Completes after the earlier descriptors of its scope have completed, with the count of failures. -/
  | fence (q i : Nat)
  /-- EVENT (R106): Acts as a queue-scope fence and then posts a USER event. -/
  | event (q i : Nat)
  /-- ADVISE (R52): Applies tier advice to the touched leaves and the tier cache. -/
  | advise (q i : Nat)
  /-- MIGRATE (R54): Starts moving a region to a new placement behind a cursor. -/
  | migrate (q i : Nat)
  /-- MIGRATE_CHUNK_DONE (R55): A 64 KiB chunk copy finishes and the cursor advances. -/
  | migrateChunkDone (rid : Nat)
  /-- COLL_CONTRIB (R149): A descriptor contribution to a collective chunk. -/
  | collContrib (q i : Nat)
  /-- NOP (R106): Completes with ST_OK at admission. -/
  | nop (q i : Nat)
  /-- REDUCE_N (R147): Combines N input arrays element by element. -/
  | reduceN (q i : Nat)
  /-- GATHER_ROWS (R156): Weighted gather of indexed rows with format conversion. -/
  | gatherRows (q i : Nat)
  /-- SCATTER_ROWS (R157): Weighted scatter of rows to indexed table rows, writing or adding. -/
  | scatterRows (q i : Nat)
  /-- KV_SELECT (R160): Scores the KV blocks, selects the best K per query and fetches them. -/
  | kvSelect (q i : Nat)
  /-- CKPT_DELTA (R162): Writes a block delta of new data against a base. -/
  | ckptDelta (q i : Nat)
  /-- CKPT_RESTORE (R165): Rebuilds an image from a base and a delta. -/
  | ckptRestore (q i : Nat)
  /-- CONVERT (R166): Converts the elements between formats. -/
  | convert (q i : Nat)
  /-- SSB_PACK (R166): Packs a dense stream into SSB form. -/
  | ssbPack (q i : Nat)
  /-- SSB_UNPACK (R166): Unpacks an SSB stream into dense form. -/
  | ssbUnpack (q i : Nat)
  /-- FILL_PATTERN (R166): Writes constant, ramp or uniform values. -/
  | fillPattern (q i : Nat)
  /-- FAULT_WINDOW_EXPIRY (R45): A coalescing window passes and the fault record is written. -/
  | faultWindowExpiry (hub slot : Nat)
  /-- FAULT_TIMEOUT (R47): An open fault entry times out and is aborted. -/
  | faultTimeout (hub slot : Nat)
  /-- FAULT_ENTRY_TAKE (R48): A STALLED fault waiting on a full table opens an entry once one closes. -/
  | faultEntryTake (hub : Nat)
  /-- PUBLISH (R25): A fabric publication enters the target's serial order. -/
  | publish (p : Nat) (h : Hdr) (target staging v w : Nat)
  /-- COLL_WR (R149): A fabric contribution write is checked and accumulated against the current step. -/
  | collWr (p : Nat) (h : Hdr) (step rank chunk : Nat) (data : List Byte)
  /-- COLL_STEP_TIMEOUT (R153): A step's timer expires and the step closes. -/
  | collStepTimeout (ctx cid : Nat)
  /-- MC_WR (R234): A multicast packet is replicated on the flock's ports and delivered locally. -/
  | mcWr (p : Nat) (h : Hdr) (data : List Byte)
  /-- CTX_ENDED (R324): A received context-ended notice is counted and discarded. -/
  | ctxEnded (p : Nat) (h : Hdr) (oldTag newTag inc time : Nat)
  /-- RD_DATA (R266): Read data from a remote endpoint arrives for a descriptor. -/
  | rdData (p : Nat) (h : Hdr) (status : Nat) (data : List Byte)
  /-- CMP (R103): A remote endpoint's completion acknowledges a write the controller sent. -/
  | cmp (p : Nat) (h : Hdr) (status result : Nat)
  /-- TRANSIT_FORWARD (R224): A packet header for another node is routed and forwarded by cut-through. -/
  | transitForward (p : Nat) (pkt : Packet)
  /-- MESSAGE_TRACKER_TAKE (R231): A new message's first packet takes a tracker once one is free. -/
  | messageTrackerTake (iod : Nat)
  /-- MSG_TIMEOUT (R231): An incomplete message is closed and its request answered ST_TIMEOUT. -/
  | msgTimeout (iod : Nat) (key : MsgKey)
  /-- PIN_IDLE (R226): An idle flow's pin is released. -/
  | pinIdle (iod : Nat) (key : FlowKey)
  /-- RD_SHARED (R70): The home handles a shared read. -/
  | rdShared (p : Nat) (h : Hdr) (agent : Nat)
  /-- RD_OWN (R70): The home handles an ownership read. -/
  | rdOwn (p : Nat) (h : Hdr) (agent : Nat)
  /-- UPGRADE (R70): The home handles an upgrade request. -/
  | upgrade (p : Nat) (h : Hdr) (agent : Nat)
  /-- RD_UNCACHED (R70): The home handles an uncached read. -/
  | rdUncached (p : Nat) (h : Hdr)
  /-- CLEAN_EVICT (R70): The home handles a clean eviction notice. -/
  | cleanEvict (p : Nat) (h : Hdr) (agent left : Nat)
  /-- WR_BACK (R70): The home sinks a write-back. -/
  | wrBack (p : Nat) (h : Hdr) (agent : Nat) (data : List Byte)
  /-- WR_THRU (R70): The home handles a write-through store. -/
  | wrThru (p : Nat) (h : Hdr) (agent mask : Nat) (data : List Byte)
  /-- WR_UNCACHED (R70): The home handles an uncached write. -/
  | wrUncached (p : Nat) (h : Hdr) (data : List Byte)
  /-- WR_STASH (R74): The home writes and then offers the granule to a target agent. -/
  | wrStash (p : Nat) (h : Hdr) (target offer : Nat) (data : List Byte)
  /-- ATOMIC (R75): The home executes an atomic and returns the prior value. -/
  | atomic (p : Nat) (h : Hdr) (op : Nat) (width : Width) (operands : List Nat)
  /-- INV_ACK (R69): An invalidation acknowledgement arrives at an open transaction. -/
  | invAck (p : Nat) (h : Hdr) (txn : Nat)
  /-- SNP_RSP (R69): A snoop response arrives at an open transaction. -/
  | snpRsp (p : Nat) (h : Hdr) (txn before : Nat) (data : List Byte)
  /-- FWD_DONE (R69): A forwarding completion arrives at an open transaction. -/
  | fwdDone (p : Nat) (h : Hdr) (txn left : Nat)
  /-- STASH_RSP (R74): The target accepts or declines a stash offer. -/
  | stashRsp (p : Nat) (h : Hdr) (txn answer : Nat)
  /-- STASH_OFFER_TIMEOUT (R74): An unanswered stash offer is treated as declined after 2 µs. -/
  | stashOfferTimeout (txn : Nat)
  /-- TRANSACTION_TAKE (R69): A waiting request takes a freed transaction and its credits are returned. -/
  | transactionTake (hub : Nat)
  /-- HOLD_RELEASE (R432): A held write enters its granule's order when its hold ends. -/
  | holdRelease (granule : Nat)
  /-- LEASE_BEAT (R84): A lease beat is acknowledged, or answered JOIN_WAIT or JOIN_REQUIRED. -/
  | leaseBeat (p : Nat) (h : Hdr) (agent seq time join : Nat)
  /-- LEASE_EXPIRY (R81): An agent's lease expires and it is added to the reclaim sweep. -/
  | leaseExpiry (agent : Nat)
  /-- RECLAIM_SWEEP_CIRCLE (R83): The sweep finishes a full circle and raises AGENT_RECLAIMED and LINES_LOST. -/
  | reclaimSweepCircle (hub : Nat)
  /-- FLIT_RECEIVE (R201): A CRC-valid flit is classified by sequence and its acknowledgement processed. -/
  | flitReceive (p : Nat) (f : Flit)
  /-- INIT_FLIT (R195): An INIT flit takes the grants and starts the sequence numbers. -/
  | initFlit (p : Nat) (grants : List Nat) (version rx : Nat)
  /-- LINK_INIT_TIMEOUT (R195): Link-layer initialisation not done within 100 µs sends the port DOWN. -/
  | linkInitTimeout (p : Nat)
  /-- FLIT_SLOT (R207): The egress sends the next replay, DATA or IDLE flit as arbitrated. -/
  | flitSlot (p : Nat)
  /-- BURST_LIMIT_EXPIRY (R208): An input's burst limit expires and the arbiter re-arbitrates at the end of the packet. -/
  | burstLimitExpiry (p : Nat)
  /-- REPLAY_TIMER_EXPIRY (R205): The sender resends the unacknowledged flits. -/
  | replayTimerExpiry (p : Nat)
  /-- REPLAY_EXPIRY_LIMIT (R206): Sixteen expiries without a freeing acknowledgement cause link loss. -/
  | replayExpiryLimit (p : Nat)
  /-- ACK_TIMER_EXPIRY (R202): 150 ns after an unacknowledged acceptance, an acknowledgement becomes due. -/
  | ackTimerExpiry (p : Nat)
  /-- CREDIT_RETURN_DUE (R198): Freed units must go out in a DATA flit within 150 ns. -/
  | creditReturnDue (p : Nat)
  /-- LINK_LOSS_TIMEOUT (R182): 4 µs without a CRC-valid flit is link loss. -/
  | linkLossTimeout (p : Nat)
  /-- LANE_SIGNAL_LOSS (R182): Loss of signal on an active lane is link loss. -/
  | laneSignalLoss (p lane : Nat)
  /-- FEC_LOCK_LOSS (R182): Loss of FEC block lock is link loss. -/
  | fecLockLoss (p : Nat)
  /-- UNCORRECTABLE_BURST (R178): More than 16 uncorrectable codewords in 1 ms send the port to TRAINING. -/
  | uncorrectableBurst (p : Nat)
  /-- SIGNAL_DETECT (R175): Signal appears on a lane and training begins locking. -/
  | signalDetect (p : Nat)
  /-- NO_SIGNAL_TIMEOUT (R175): No signal within 100 ms sends the port DOWN. -/
  | noSignalTimeout (p : Nat)
  /-- LANE_LOCK (R175): The lanes lock at 53.125 Gb/s and the capability exchange begins. -/
  | laneLock (p lanes : Nat)
  /-- CAPABILITY_BLOCK (R172): A partner capability block is received, held and used to select the mode. -/
  | capabilityBlock (p : Nat) (blk : BitVec 512)
  /-- EXCHANGE_TIMEOUT (R175): The exchange not done within 1 ms of lock sends the port DOWN. -/
  | exchangeTimeout (p : Nat)
  /-- SAVED_RECORD_LOCK_TIMEOUT (R175): No lock within 5 ms from a saved record falls back to full equalisation. -/
  | savedRecordLockTimeout (p : Nat)
  /-- EQUALISATION_DONE (R175): Equalisation at the target rate ends, and confirmation follows. -/
  | equalisationDone (p lanes : Nat)
  /-- TRAINING_RETRY_TIMER (R178): A DOWN port's retry timer expires and the port trains again. -/
  | trainingRetryTimer (p : Nat)
  /-- PL1_ENTRY_TIMER (R185): No data flit for the PL1 timer puts the port in PL1. -/
  | pl1EntryTimer (p : Nat)
  /-- PL2_TIMER (R186): The PL2 timer expires and LP_REQ is sent. -/
  | pl2Timer (p : Nat)
  /-- LP_REQ (R186): A PL2 entry request is answered LP_ACK or LP_NAK. -/
  | lpReq (p : Nat)
  /-- LP_ACK (R186): The PL2 entry is acknowledged and the lanes enter electrical idle. -/
  | lpAck (p : Nat)
  /-- LP_NAK (R186): The PL2 entry is refused. -/
  | lpNak (p : Nat)
  /-- PL2_WAKE (R186): Training signal or pending egress wakes a PL2 port. -/
  | pl2Wake (p : Nat)
  /-- PL2_WAKE_TIMEOUT (R186): A port not UP within 40 ms of waking declares link loss. -/
  | pl2WakeTimeout (p : Nat)
  /-- RECORD_FLASH_COPY (R176): Training records are copied to boot flash no more than once an hour. -/
  | recordFlashCopy
  /-- MEM_SLOT_TICK (R290): In each 16 ns slot, the group decides which requests are eligible and issues by policy. -/
  | memSlotTick (g : Nat)
  /-- SLOT_TABLE_WRAP (R288): At a wrap, the committed shadow tables become active. -/
  | slotTableWrap
  /-- REFRESH_TICK (R244): A pseudo-channel refreshes all of its banks at tREFI. -/
  | refreshTick (u : Nat)
  /-- DDR5_REFRESH_TICK (R245): A DDR5 rank performs all-bank refresh. -/
  | ddr5RefreshTick (dc rank : Nat)
  /-- REFRESH_WINDOW_START (R246): The activate tables are cleared at the start of each refresh window. -/
  | refreshWindowStart (u : Nat)
  /-- TEMPERATURE_BAND_CHANGE (R244): Crossing 85 °C changes the refresh interval. -/
  | temperatureBandChange (u hot : Nat)
  /-- SECTOR_READ_DECODE (R262): A sector read returns and decodes clean, corrected or uncorrectable. -/
  | sectorReadDecode (u ppa : Nat)
  /-- CA_PARITY_ERROR (R248): A command/address parity error freezes the unit, or counts on a frozen one. -/
  | caParityError (u ppa : Nat)
  /-- LOCK_LOST (R248): Loss of interface lock freezes the unit. -/
  | lockLost (u ppa : Nat)
  /-- KETTLE_TIMEOUT (R268): A kettle entry 500 ns old is flushed. -/
  | kettleTimeout (sector : Nat)
  /-- STRAINER_TICK (R270): The strainer reads the next sector of a unit's pass. -/
  | strainerTick (u : Nat)
  /-- CAP_INIT_CHUNK_DONE (R263): A capacity-tier chunk finishes initialisation and becomes allocatable. -/
  | capInitChunkDone (chunk : Nat)
  /-- SHEEPDOG_EXPIRY (R317): A queue's progress watchdog expires, posting WD_QUEUE and perhaps tearing down the context. -/
  | sheepdogExpiry (q : Nat)
  /-- ENGINE_WD_EXPIRY (R318): An engine without progress abandons its work and resets itself. -/
  | engineWdExpiry (e : Nat)
  /-- ENGINE_SELF_RESET_DONE (R318): The engine's self-reset ends, in service or out of it, and WD_ENGINE is posted. -/
  | engineSelfResetDone (e ok : Nat)
  /-- MPC_WATCHDOG_KICK (R319): The MPC firmware restarts its watchdog. -/
  | mpcWatchdogKick
  /-- MPC_WD_EXPIRY (R319): The MPC watchdog expires, the state is dumped and the MPC restarts, or a warm reset starts. -/
  | mpcWdExpiry (state : List Byte)
  /-- MPC_RESTART_DONE (R319): The MPC restart ends and MPC_RESTARTED is posted. -/
  | mpcRestartDone
  /-- EQ_MOD_TIME_EXPIRY (R315): The oldest unnotified event reaches MOD_TIME and the armed queue notifies. -/
  | eqModTimeExpiry (eq : Nat)
  /-- QUEUE_SAMPLE_TICK (R302): Every 10 µs of time base, every queue is sampled. -/
  | queueSampleTick
  /-- POWER_AVERAGE_TICK (R418): Each 1 ms, the power average lowers or raises the hub clocks. -/
  | powerAverageTick (watts : Nat)
  /-- THROTTLE_N_ASSERT (R419): The pin's assertion halves the hub clocks. -/
  | throttleNAssert
  /-- THROTTLE_N_DEASSERT (R419): The pin's release lifts the half-clock limit. -/
  | throttleNDeassert
  /-- THERMAL_THROTTLE (R423): A sensor crossing its throttle point starts or ends the throttle action. -/
  | thermalThrottle (unit temp : Nat)
  /-- THERMAL_TRIP (R424): A sensor at its trip idles the ports, stops the engines and holds the controller in reset. -/
  | thermalTrip (sensor : Nat)
  /-- RAIL_FAULT (R416): A rail out of range for 10 µs stops the controller. -/
  | railFault (rail : Nat)
  /-- AON_RAIL_FAULT (R416): VDD_AON or VDDIO_3V3 out of range resets the controller as at power-on. -/
  | aonRailFault
  /-- REGULATOR_NACK (R415): An AVS regulator that fails to acknowledge holds its hub at 0.75 V and 1.2 GHz. -/
  | regulatorNack (hub : Nat)
  /-- ENGINE_CLOCK_GATE (R420): An engine idle for 1 µs is clock-gated. -/
  | engineClockGate (e : Nat)
  /-- ENGINE_POWER_GATE (R420): An operator engine idle for 1 ms is power-gated. -/
  | enginePowerGate (e : Nat)
  /-- PC_POWER_DOWN (R420): A channel with no request for 200 ns enters precharge power-down. -/
  | pcPowerDown (u : Nat)
  /-- SELF_REFRESH_ENTRY (R420): A stack or DDR5 channel with no request for 10 ms enters self-refresh. -/
  | selfRefreshEntry (u : Nat)
  /-- UNIT_WAKE (R420): A request wakes a sleeping unit and waits for the wake. -/
  | unitWake (u : Nat)
  /-- STANDBY_ENTRY (R421): With every condition met, the package flushes and enters STANDBY. -/
  | standbyEntry
  /-- STANDBY_WAKE (R421): Signal detect, a PCIe access, a doorbell, a mailbox access or a timer wakes the package. -/
  | standbyWake
  /-- POWER_ON (R328): Power-on starts a cold reset. -/
  | powerOn
  /-- SYS_RST_N_ASSERT (R417): The pin held low for 100 µs starts a cold reset. -/
  | sysRstNAssert
  /-- SYS_RST_N_RELEASE (R351): Release of reset samples the straps and begins bring-up. -/
  | sysRstNRelease (straps : Nat)
  /-- BRING_UP_STAGE_DONE (R351): A bring-up stage finishes and the next stage begins. -/
  | bringUpStageDone (r : StageReport)
  /-- TOPO_WAIT_EXPIRY (R361): TOPO_WAIT passes and the topology check decides READY or HELD_TOPO. -/
  | topoWaitExpiry
  /-- BER_WINDOW_END (R362): A port's fallback window ends and it is admitted or sent DOWN. -/
  | berWindowEnd (p : Nat)
  /-- PERST_N (R327): Resets the PCIe endpoint and every mailbox exchange. -/
  | perstN
  /-- VF_FLR (R327): A VF function-level reset starts a partition reset. -/
  | vfFlr (vf : Nat)
  /-- PF_FLR (R327): A PF function-level reset resets its PCIe state and mailbox. -/
  | pfFlr
  /-- TAP_INSTRUCTION_LOAD (R392): A TAP instruction is loaded and measured, and EXTEST-type instructions idle the ports. -/
  | tapInstructionLoad (ir : Nat)
  /-- TAP_RESET (R392): A TAP reset after an EXTEST-type instruction performs a cold reset. -/
  | tapReset
  /-- MIR_BEAT_TICK (R345): Every 50 µs the controller sends beats on the pair ports and HBX. -/
  | mirBeatTick
  /-- MIR_BEAT (R346): A partner beat is received and its claim and role are acted on. -/
  | mirBeat (p : Nat) (payload : BitVec 256)
  /-- HBX_BEAT (R345): An 8b/10b framed beat is received on HBX. -/
  | hbxBeat (payload : BitVec 256) (crc : Nat)
  /-- PATH_SILENT (R346): A path silent for 20 beats while the other lives raises MIRROR_PATH_ALARM. -/
  | pathSilent (path : Nat)
  /-- PAIR_FENCE (R346): An active with both paths silent for 16 beats becomes FENCED. -/
  | pairFence
  /-- PAIR_TAKEOVER (R346): A standby with both paths silent for 20 beats takes over with claim + 1. -/
  | pairTakeover
  /-- MIR_FWD (R340): The standby applies a forwarded change and returns MIR_ACK. -/
  | mirFwd (p : Nat) (h : Hdr) (publish : Nat) (data : List Byte)
  /-- MIR_ACK (R340): A standby acknowledgement lets the original request complete. -/
  | mirAck (p : Nat) (h : Hdr) (status : Nat)
  /-- MIR_SYNC (R349): Resynchronisation data is written on the STANDBY_SYNC side. -/
  | mirSync (p : Nat) (h : Hdr) (data : List Byte)
  /-- RESYNC_DONE (R349): Resynchronisation finishes and the roles become ACTIVE and STANDBY. -/
  | resyncDone
  /-- GET_VERSION (R384): SPDM version request. -/
  | getVersion (fn : Nat)
  /-- GET_CAPABILITIES (R384): SPDM capabilities request. -/
  | getCapabilities (fn : Nat)
  /-- NEGOTIATE_ALGORITHMS (R384): SPDM algorithm negotiation. -/
  | negotiateAlgorithms (fn : Nat)
  /-- GET_DIGESTS (R384): SPDM certificate digests request. -/
  | getDigests (fn : Nat)
  /-- GET_CERTIFICATE (R384): SPDM certificate chain request. -/
  | getCertificate (fn slot off len : Nat)
  /-- CHALLENGE (R384): SPDM challenge. -/
  | challenge (fn nonce : Nat)
  /-- GET_MEASUREMENTS (R383): Reports the measurement registers. -/
  | getMeasurements (fn index nonce : Nat)
  /-- KEY_EXCHANGE (R384): Starts an SPDM session, ending an older one on a VF. -/
  | keyExchange (fn share : Nat)
  /-- FINISH (R384): Completes SPDM session establishment. -/
  | finish (fn sess : Nat) (mac : List Byte)
  /-- KEY_UPDATE (R388): Updates the session keys at the next record boundary. -/
  | keyUpdate (fn sess dir : Nat)
  /-- HEARTBEAT (R384): SPDM session heartbeat. -/
  | heartbeat (fn sess : Nat)
  /-- END_SESSION (R388): Ends an SPDM session. -/
  | endSession (fn sess : Nat)
  /-- SEALED_RECORD (R387): A sealed bounce-buffer record is authenticated and accepted, or the session ends. -/
  | sealedRecord (part seq kind : Nat) (body : List Byte) (tag : Nat)
  /-- RECLAIM_SWEEP_TICK (R83): The reclaim sweep reaches the next directory bucket at its paced rate, writes expired owners' granules as lost and removes expired exact sharers. -/
  | reclaimSweepTick (hub : Nat)
  /-- RESYNC_CURSOR_ADVANCE (R349): The serving controller sends the next MIR_SYNC chunk at RESYNC_RATE and moves its resynchronisation cursor. -/
  | resyncCursorAdvance
  /-- CLAIM_FLASH_COPY (R342): Within 1 s of a claim change, the controller copies its claim from the caddy to boot flash. -/
  | claimFlashCopy
  /-- RETIRE_FLASH_COPY (R275): Within one hour, the controller copies the retired pages, fenced banks, remaps and absence markings from the caddy to boot flash. -/
  | retireFlashCopy
  deriving DecidableEq, Repr

end Sys2Proof
end

