-- ==== Sys2Proof/Decode.lean ====
section
/-! DEFINITION. The command that a word of the opcode table spells: no row of the table gives bits, so no word spells
one. -/

namespace Sys2Proof

/-- The command whose table bits are `w`. No row of spec/opcode_table.json gives bits (`fields` is empty in all 301), so
the answer is none for every word. -/
def decodeTableWord (_nbits _w : Nat) : Option Instr := none

end Sys2Proof
end

