-- ==== Sys2Proof/Config.lean ====
section
/-! DEFINITION. What an implementation fixes, and the values the manual leaves open: constants without a body,
so that nothing in Lean can prove a value of one. Each is named in the assumption log. -/

namespace Sys2Proof.Config

/-- The free value of draw number `n` (log 2): the controller's free choices (R19, R224, identities it assigns). -/
opaque freeValue : Nat → Nat

/-- Which of the results that Table 05-12's error bound allows the engine gives for `EXP2` of a lane (log 3). -/
opaque exp2Pick : BitVec 32 → Nat
/-- As `exp2Pick`, for `LOG2`. -/
opaque log2Pick : BitVec 32 → Nat
/-- As `exp2Pick`, for `RCP`. -/
opaque rcpPick : BitVec 32 → Nat
/-- As `exp2Pick`, for `RSQRT`. -/
opaque rsqrtPick : BitVec 32 → Nat
/-- As `exp2Pick`, for `TANH`. -/
opaque tanhPick : BitVec 32 → Nat

/-- The SHA-384 hash of a byte string (R381, R383), uninterpreted (log 4). -/
opaque sha384 : List Byte → BitVec 384
/-- ECDSA P-384 verification: public key, hash, signature (R381), uninterpreted (log 4). -/
opaque ecdsaVerifies : List Byte → BitVec 384 → List Byte → Bool
/-- The 96-bit IV that goes with a session key (R387), uninterpreted (log 4). -/
opaque sessionIv : Nat → BitVec 96
/-- AES-256-GCM: whether the tag of a sealed record verifies under a session key (R387), uninterpreted (log 4). -/
opaque gcmVerifies : (key iv : Nat) → (header body : List Byte) → (tag : Nat) → Bool
/-- The plaintext of a sealed record (R387), uninterpreted (log 4). -/
opaque gcmOpen : (key iv : Nat) → (body : List Byte) → List Byte
/-- The ciphertext and tag of a sealed record (R387), uninterpreted (log 4). -/
opaque gcmSeal : (key iv : Nat) → (header body : List Byte) → List Byte
/-- The boot ROM, which measurement 1 covers (R383), uninterpreted (log 4). -/
opaque bootRom : List Byte
/-- The certificate chain of slot 0 (R384), uninterpreted (log 4). -/
opaque certChain : List Byte
/-- The version of each stock operator that the running firmware provides, as `DISCOVER` lists it (R144), open (log 12). -/
opaque stockVersion : Nat → Nat
/-- The responder's signature over an SPDM transcript with the device identity key (R384), uninterpreted (log 4). -/
opaque spdmSign : List Byte → List Byte
/-- Whether an SPDM `FINISH` authenticates (R384), uninterpreted (log 4). -/
opaque finishVerifies : Nat → List Byte → Bool

/-- The ciphertext that a capacity-tier sector is stored as (R263, R390), uninterpreted (log 4): the owning partition's key as a token
or none for the controller's own, sector address, plaintext. -/
opaque cipher : (key : Option Nat) → (ppa : Nat) → (data : List Byte) → Nat
/-- Bytes of caddy areas whose layout no rule gives (R13, Table 01-2), open (log 77): PPA. -/
opaque areaByte : (ppa : Nat) → Byte

/-- The payload bytes of a packet whose message fields the spec places nowhere (log 6): the fields, the data. -/
opaque msgBytes : List Nat → List Byte → List Byte

/-- Bytes that no rule gives (log 5): what a capacity-tier sector decrypts to when its stored ciphertext was altered beyond
correction (R262, R263, R390), and, under word 2^576, the data bits of poisoned data that a frozen or absent unit returns (R248,
R254): sector address, stored word, byte index. -/
opaque garbled : (ppa word i : Nat) → Byte

/-- The record format of the firmware image with a given hash (R176, R256), which no rule numbers (log 95). -/
opaque recordFormat : BitVec 384 → Nat

end Sys2Proof.Config
end

