-- ==== Sys2Proof/Machine/State.lean ====
section
/-! DEFINITION. The state of the controller, as plain data, and the state right after power-on. -/

namespace Sys2Proof.Machine

/-- Why a step stops with a fault. No rule of the spec stops the controller on data (every error is a status, an
event or a state), so no meaning answers with one: `unreachable` only gives the type an element. Safe. -/
inductive Fault where
  /-- Raised by no meaning and by no step; it gives the type an element. Safe: the model would stop. -/
  | unreachable
  deriving DecidableEq, Repr

/-- Why a step is refused. -/
inductive Refusal where
  /-- The command has no meaning yet; raised by an arm of `exec` alone. Safe: the model stops. -/
  | notModelled (mnemonic : String)
  deriving DecidableEq, Repr

/-- A table of entries by number: ascending keys, no key twice. -/
abbrev Tab (α : Type) := List (Nat × α)

/-- Byte memory in canonical form: ascending addresses, no listed zero (an unlisted byte is 0: R262, R263). -/
abbrev Memory := List Host.Cell

/-- The statuses of Table 16-18 (R377). -/
inductive Status where
  | ok | okEmpty | badDesc | badArg | absentUnit | noResource | faultUnmapped | faultPerm | faultAborted
  | poison | pcFrozen | lineLost | refusedBudget | targetDown | staleIncarnation | staleClaim | routeNone
  | conflictVersion | ctxTornDown | timeout | collIncomplete | notPermitted | busy | authFail
  deriving DecidableEq, Repr

/-- The ordering codes of Table 00-1 (R1). -/
inductive Variant where
  | v9612H | v9612M | v9608H | v4806M
  deriving DecidableEq, Repr

/-- The fuses (R353, R381, R392). -/
structure Fuses where
  variant : Variant := .v9612H
  serial : BitVec 64 := 1
  stepping : BitVec 8 := 1
  parityOk : Bool := true
  /-- Hashes of the four keys, and the revocation bit of each. -/
  keyHash : List (BitVec 384) := []
  keyRevoked : BitVec 4 := 0
  /-- The fused security version, 0 to 64. -/
  svn : Nat := 0
  debugLock : Bool := false
  /-- The voltage-frequency table of each hub: (hub, MHz, mV). -/
  vf : List (Nat × Nat × Nat) := []
  deriving DecidableEq, Repr

/-- A saved training record of a port (R176): the partner, the mode, the equaliser settings of each lane that carried the link, the
firmware record format, and the CRC32C. -/
structure PortRecord where
  serial : Nat
  port : Nat
  mode : Nat
  settings : List (Nat × Nat) := []
  format : Nat := 0
  crc : Nat := 0
  deriving DecidableEq, Repr

/-- A saved training record of a memory interface (R256): stack `n` as `n`, DDR5 channel `n` as 0x8000 + `n`; the serials of the
stack or of every DIMM on the channel, the settings, the record format, and the CRC32C. -/
structure MemRecord where
  unit : Nat
  serials : List Nat
  settings : Nat := 0
  format : Nat := 0
  crc : Nat := 0
  deriving DecidableEq, Repr

/-- A firmware image: its length and its bytes (R354, R381). -/
structure Image where
  len : Nat := 0
  mem : Memory := []
  deriving DecidableEq, Repr

/-- A retired page or a fenced bank (R273 to R275): `page` its chunk number, or a bank's coordinates. -/
inductive Retired where
  | page (chunk : Nat)
  | bank (u sid bg bank : Nat)
  deriving DecidableEq, Repr

/-- What boot flash holds (R285, R331, R342, R354, R359, R275, R176). -/
structure Flash where
  incarnation : BitVec 32 := 0
  gens : Tab Nat := []
  slotA : Image := {}
  slotB : Image := {}
  topo : Option TopoExpect := none
  retired : List Retired := []
  remaps : Tab Nat := []
  absent : List UnitRef := []
  absentIds : List (Nat × Nat) := []
  portRecords : Tab PortRecord := []
  memRecords : List MemRecord := []
  claim : Nat := 0
  deriving DecidableEq, Repr

/-- Clocks (R286, R397): nanoseconds of `CLK_AON` since power-on, the time base, its fraction in 10^-9 ns, the steering
rate, the part of a negative step still to absorb in 10^-9 ns, and the latched high halves by function. -/
structure Clock where
  aon : Nat := 0
  base : BitVec 64 := 0
  frac : Nat := 0
  rate : Int := 0
  absorb : Nat := 0
  latch : Tab Nat := []
  deriving DecidableEq, Repr

/-- Bring-up (R351 to R362). -/
structure Boot where
  stage : Nat := 0
  kind : Nat := 0
  startAon : Nat := 0
  readyMs : Nat := 0
  topoPath : Nat := 0
  imageSlot : Nat := 0
  imageFallback : Bool := false
  memSaved : Bool := false
  portSaved : Bool := false
  failCause : Nat := 0
  absentNew : Nat := 0
  /-- The current incarnation (R331). -/
  incarnation : BitVec 32 := 0
  straps : BitVec 4 := 0
  /-- The expected topology held (R359), and whether stage TOPOLOGY took the main path. -/
  topo : Option TopoExpect := none
  /-- The expected topology that this bring-up checks against (R359, R361). -/
  topoUse : Option TopoExpect := none
  /-- Ports whose fallback window is still to finish before READY (R362). -/
  waitWindow : List Nat := []
  /-- The reset in progress is warm. -/
  warm : Bool := false
  /-- The renumbering asked for by `CHIP_RESET` COLD (R6). -/
  renumber : Bool := false
  /-- A reset that a `CHIP_RESET` response has announced: kind 0 WARM, 1 COLD (R328). -/
  scheduled : Option Nat := none
  /-- READY was reached since the last boot of an image (R382). -/
  readyOnce : Bool := false
  /-- `SYS_RST_N` is low, or the controller holds itself in reset after a trip (R424). -/
  held : Bool := true
  stopped : Bool := false
  dimms : List Dimm := []
  /-- Hubs and I/O dies marked absent (R2, R355). -/
  noDies : List UnitRef := []
  deriving DecidableEq, Repr

/-- An SPDM response (R384). Its bytes are the DMTF standard's, which the manual does not repeat, so its contents stand typed
(log 6). -/
inductive Spdm where
  | version
  | capabilities
  | algorithms
  | digests (slot0 : BitVec 384)
  | certificate (part : List Byte) (left : Nat)
  | challengeAuth (slot0 : BitVec 384) (sig : List Byte)
  | measurements (vals : List (Nat × BitVec 384)) (sig : List Byte)
  | keyExchangeRsp (sess : Nat) (sig : List Byte)
  | finishRsp
  | keyUpdateAck
  | heartbeatAck
  | endSessionAck
  | error
  deriving DecidableEq, Repr

/-- Output pins and what leaves over PCIe and HBX: `alert` holds the reasons `ALERT_N` is asserted for. -/
structure Pins where
  alert : List Nat := []
  therm : Bool := false
  /-- `THROTTLE_N` is low. -/
  throttle : Bool := false
  /-- MSI-X messages sent: (function, vector), newest first. -/
  msix : List (Nat × Nat) := []
  /-- The data of the last host or fabric register read. -/
  readData : Nat := 0
  /-- The last beat sent on HBX (Table 14-2). -/
  hbx : BitVec 256 := 0
  /-- The last DOE response of each function (R384). -/
  doe : Tab Spdm := []
  deriving DecidableEq, Repr

/-- A mailbox command's response before it is written: status, body fields (width in bytes, value), MORE. -/
structure Resp where
  status : Status
  body : List (Nat × Nat) := []
  more : Bool := false
  failOff : Nat := 0xFFFF
  deriving DecidableEq, Repr

/-- A captured request (R371): envelope fields and body bytes. -/
structure Captured where
  opcode : Nat
  bodyLen : Nat
  seq : Nat
  cookie : Nat
  notify : Bool
  vec : Nat
  /-- Byte offset of the first reserved envelope field that is not zero, 0 for none. -/
  rsvd : Nat
  body : List Byte
  /-- Its place in the order doorbells were accepted. -/
  order : Nat
  deriving DecidableEq, Repr

/-- The states of Table 16-3. -/
inductive MbState where
  | free | held | running | done
  deriving DecidableEq, Repr

/-- The holder of a mailbox (R366): a PCIe function, or a node and endpoint. -/
inductive Owner where
  | func (f : Nat)
  | fabric (node ep : Nat)
  deriving DecidableEq, Repr

/-- A mailbox (R365 to R371). -/
structure Mailbox where
  st : MbState := .free
  holder : Option Owner := none
  ticket : Nat := 0
  req : Memory := []
  resp : Memory := []
  lastStatus : Nat := 0
  lastSeq : Nat := 0
  runMs : Nat := 0
  /-- AON time at which the present command was submitted. -/
  startAon : Nat := 0
  rejects : Nat := 0
  cap : Option Captured := none
  /-- The command that MB_COMMAND_START decoded and started. -/
  cmd : Option Instr := none
  started : Bool := false
  result : Option Resp := none
  /-- The fabric access list, and whether a direct partner is admitted (R367). -/
  acl : List (Nat × Nat) := []
  direct : Bool := false
  /-- A VF reset holds the mailbox closed until the partition reset's step 6 (R368). -/
  vfReset : Bool := false
  /-- The PCIe holder is gone: the response is discarded (R370). -/
  gone : Bool := false
  /-- The request buffer was filled by a sealed record or a secured message (R385, R386). -/
  sealed : Bool := false
  deriving DecidableEq, Repr

/-- A token-bucket shaper (R297, R298): its word (Table 12-3), its tokens in 2^-16 B at AON time `stamp`. -/
structure Shaper where
  word : BitVec 64 := 0xFFFFFF4000000000
  tokens : Int := 0x4000 * 4096 * 65536
  stamp : Nat := 0
  deriving DecidableEq, Repr

/-- A partition (R279 to R283): its configuration block (Table 12-1) and what runs in it. -/
structure Partition where
  cfg : BitVec 512
  /-- In-flight charge (R110, R300). -/
  bytes : Nat := 0
  descs : Nat := 0
  eq : Option Nat := none
  /-- Events dropped while no event queue is bound (R313). -/
  unbound : Nat := 0
  shaper : Shaper := {}
  bounce : Option (Nat × Nat) := none
  /-- Host access closed after a failed sealed record (R387). -/
  hostClosed : Bool := false
  /-- Its capacity-tier key pair, as a token (R390). -/
  key : Nat := 0
  /-- Mode and weight that the slot scheduler uses until the next wrap (R283). -/
  mode : Nat := 0
  weight : Nat := 0
  /-- A partition reset in progress (R326): the mailbox that asked, contexts torn down, regions destroyed. -/
  resetting : Bool := false
  resetMb : Option Nat := none
  tornDown : Nat := 0
  destroyed : Nat := 0
  deriving DecidableEq, Repr

/-- The states of Table 13-4. -/
inductive CtxState where
  | active | tearing | tornDown
  deriving DecidableEq, Repr

/-- A range whose `REGION_UNMAP` is in progress (R50). -/
structure Unmap where
  cva : Nat
  len : Nat
  fail : Bool
  mb : Option Nat
  deriving DecidableEq, Repr

/-- A context (R284, R321). -/
structure Context where
  part : Nat
  mirror : Bool := false
  stall : Bool := true
  eq : Nat := 0
  window : Nat := 1
  timeout : Nat := 1000
  st : CtxState := .active
  /-- The level-0 table (frame number, PPA [43:12]). -/
  root : Nat := 0
  ranks : Tab (BitVec 32) := []
  unmaps : List Unmap := []
  /-- Ordered traffic classes the context has used (R322 step 7). -/
  classes : List Nat := []
  /-- While TEARING: the old tag, whether `CTX_DESTROY` asked, the mailbox that waits, cancelled descriptors. -/
  oldTag : Nat := 0
  destroy : Bool := false
  mb : Option Nat := none
  fmAsked : Bool := false
  cancelled : Nat := 0
  dropped : Nat := 0
  /-- Fences of context scope: failures since the previous one (R107). -/
  fails : Nat := 0
  deriving DecidableEq, Repr

/-- A 4 KiB page table (R30): the partition charged and its non-zero entries (Tables 02-2, 02-3). -/
structure PageTable where
  part : Nat
  ents : Tab (BitVec 64) := []
  deriving DecidableEq, Repr

/-- Where a region's bytes lie (R15, R238). -/
structure Placement where
  tier : Nat := 0
  stkMask : Nat := 0
  qtrMask : Nat := 0
  dcMask : Nat := 0
  grain : Nat := 0
  xorHash : Bool := false
  deriving DecidableEq, Repr

/-- A migration in progress (R55): new placement and extent, cursor in 64 KiB chunks, and its descriptor. -/
structure Migration where
  pl : Placement
  ext : Nat
  cursor : Nat := 0
  q : Nat
  i : Nat
  deriving DecidableEq, Repr

/-- A region record (Table 01-3, R15). -/
structure Region where
  version : BitVec 64
  extent : Nat
  size : Nat
  pl : Placement
  policy : Nat
  mirror : Bool
  part : Nat
  mapCount : Nat := 0
  /-- 1 active, 2 destroying. -/
  st : Nat := 1
  writeHold : Bool := false
  degraded : Bool := false
  createTime : BitVec 64 := 0
  mig : Option Migration := none
  /-- The mailbox of a `REGION_DESTROY` that waits for zeroing (R21), and whether the region waits at all. -/
  destroyMb : Option Nat := none
  /-- The extent whose old readers keep `WRITE_HOLD` set, and the marks below which descriptors and requests count as old
(R27). -/
  holdExt : Nat := 0
  holdDesc : Nat := 0
  holdReq : Nat := 0
  deriving DecidableEq, Repr

/-- An extent (R19, R239): its chunk list in member order, its size, placement and owner, and the extent that took its
place when a migration ended (R56), 0 for none. -/
structure Extent where
  chunks : List Nat
  size : Nat
  pl : Placement
  part : Nat
  movedTo : Nat := 0
  deriving DecidableEq, Repr

/-- What a 64 KiB chunk is used for; an unlisted chunk is free (R19, R20). -/
inductive ChunkUse where
  | extent (id : Nat)
  | tables (part : Nat)
  | ranks (ctx : Nat)
  | coll (ctx cid : Nat)
  /-- Freed and not yet zeroed, with the region whose destroy waits for it (0 none). -/
  | zeroing (region : Nat)
  | withdrawn
  deriving DecidableEq, Repr

/-- Who asked for a publication. -/
inductive Asker where
  | mailbox (m : Nat)
  | fabric (p : Nat) (h : Hdr)
  deriving DecidableEq, Repr

/-- A publication (R25): `headed` once it has passed the checks at the head of its target's order. -/
structure Pub where
  target : Nat
  staging : Nat
  v : BitVec 64
  w : BitVec 64
  asker : Asker
  headed : Bool := false
  /-- The first descriptor and the first request that came after it reached the head (R25). -/
  headDesc : Nat := 0
  headReq : Nat := 0
  /-- The swap has taken effect and the standby's acknowledgement is due (R28). -/
  swapped : Bool := false
  deriving DecidableEq, Repr

/-- A run (R40): `cva` a CVA, or 2^64 plus a pool handle (R98); `region` 0 for ZERO leaves. -/
structure Run where
  cva : Nat
  len : Nat
  region : Nat
  extent : Nat
  off : Nat
  rd : Bool
  wr : Bool
  /-- The pages of the run that carry the COLD hint (R52, R257). -/
  cold : List Nat := []
  deriving DecidableEq, Repr

/-- Queue states (Table 04-1). -/
inductive QState where
  | disabled | active | held | stalled | error | blocked
  deriving DecidableEq, Repr

/-- A queue (R88 to R96, R302, R317). -/
structure Queue where
  ctx : Nat
  part : Nat
  log2 : Nat
  ring : Nat
  comp : Nat
  eq : Nat
  refuse : Bool
  st : QState := .disabled
  cause : Nat := 0
  pi : BitVec 32 := 0
  ci : BitVec 32 := 0
  /-- Next index to admit. -/
  next : BitVec 32 := 0
  rejects : Nat := 0
  runs : List Run := []
  /-- The regions that hold its rings (R89). -/
  rings : List Nat := []
  /-- Indices whose completion record is written beyond CI. -/
  written : List (BitVec 32) := []
  wdMs : Nat := 100
  wdTear : Bool := false
  samples : List (BitVec 64) := []
  sampleTime : BitVec 64 := 0
  /-- Accepted doorbells whose descriptors are not all admitted, oldest first: the PI set and the AON time (R302). -/
  avail : List (BitVec 32 × Nat) := []
  shaper : Option Nat := none
  /-- Failures since the previous FENCE of queue scope (R107). -/
  fails : Nat := 0
  /-- A `QUEUE_RESET` that waits for admitted descriptors. -/
  resetMb : Option Nat := none
  /-- Lost its ring runs in a warm reset (R88). -/
  runsLost : Bool := false
  deriving DecidableEq, Repr

/-- The phases of a descriptor in the controller. -/
inductive Phase where
  /-- Waits at admission, HELD for budget or for runs. -/
  | held
  /-- Waits at admission for a fault entry. -/
  | stalled
  | ready
  | started
  /-- All its work is done, or it never had any; the completion record is due. -/
  | finished
  deriving DecidableEq, Repr

/-- An outstanding message of a descriptor to its remote endpoint (R103): tag, bytes still to arrive of a read, remote
address of its first byte, address of its first byte on the local side, what its acknowledgement counts (bytes or
elements), and the store stream it belongs to. -/
structure OutMsg where
  tag : Nat
  left : Nat
  addr : Nat
  loc : Nat
  n : Nat
  store : Nat := 0
  deriving DecidableEq, Repr

/-- A segment of a transfer on its engine (R112): whether its reads have been queued (R241), and whether it has moved. -/
structure SegRun where
  engine : Nat
  seg : Nat
  asked : Bool := false
  landed : Bool := false
  deriving DecidableEq, Repr

/-- A descriptor in the controller (R104 to R112). -/
structure Desc where
  q : Nat
  i : BitVec 32
  tag : Nat
  words : BitVec 512
  hub : Nat
  phase : Phase
  status : Status := .ok
  result : Nat := 0
  partDone : Bool := false
  /-- 0 RESERVED, 1 SPARE, 2 DEFERRED (R109). -/
  wait : Nat := 0
  charge : Nat := 0
  charged : Bool := false
  runs : List Run := []
  /-- Segments still to finish of a transfer that has more than one, the next one to be given to an engine, and those that
engines have (R112). -/
  segs : Nat := 0
  nextSeg : Nat := 0
  segRuns : List SegRun := []
  engine : Option Nat := none
  /-- Its reads have been queued (R241); the first out-of-bound position of its index list (R102). -/
  asked : Bool := false
  oob : Option Nat := none
  /-- The node and endpoint of each rank that the descriptor names, found at admission (R103, R221). -/
  remote : Tab (Nat × Nat) := []
  /-- Outstanding remote messages. -/
  out : List OutMsg := []
  /-- Bytes or elements acknowledged or moved, and elements of store stream 1 (R103, R129). -/
  acked : Nat := 0
  acked1 : Nat := 0
  /-- Data pulled from a remote source: (offset, bytes with the poison of each). -/
  buf : List (Nat × List (Byte × Bool)) := []
  /-- The OCB or SAB as read at admission (R119). -/
  ocb : List Byte := []
  /-- All data movement or computation has been issued. -/
  moved : Bool := false
  /-- No `COMPLETION` event (R322 step 3). -/
  quiet : Bool := false
  /-- Admission order over all queues (R106). -/
  order : Nat := 0
  deriving DecidableEq, Repr

/-- An event queue (R308 to R316). -/
structure EventQ where
  part : Nat
  log2 : Nat
  ring : Nat
  notify : Nat
  vector : Nat := 0
  node : Nat := 0
  ep : Nat := 0
  addr : Nat := 0
  tc : Nat := 0
  modCount : Nat := 1
  modTime : Nat := 0
  pi : BitVec 32 := 0
  ci : BitVec 32 := 0
  armed : Bool := true
  overflow : Bool := false
  /-- Events dropped since the last `EQ_OVERFLOW` record. -/
  since : Nat := 0
  dropped : Nat := 0
  fails : Nat := 0
  /-- Records written since the queue was last armed (R315). -/
  fresh : Nat := 0
  /-- Records posted and not yet written, oldest first: their slots wait for recalled copies (R310). -/
  outbox : List (BitVec 256) := []
  deriving DecidableEq, Repr

/-- An open entry of a fault coalescing table (R45). -/
structure FaultEntry where
  hub : Nat
  slot : Nat
  seq : Nat
  tag : Nat
  page : Nat
  handle : Bool
  cause : Nat
  level : Nat
  access : Nat
  source : Nat
  waiters : List (Nat × BitVec 32)
  written : Bool := false
  dropped : Nat := 0
  deriving DecidableEq, Repr

/-- Fault tables of both hubs (R45, R48). -/
structure Faults where
  entries : List FaultEntry := []
  seq : Tab Nat := []
  /-- Descriptors that wait for a free slot, with the entry they will open. -/
  waiting : List FaultEntry := []
  deriving DecidableEq, Repr

/-- A lease (R79 to R86). -/
inductive Lease where
  | current
  | void
  /-- Expired: hubs whose sweep has still to complete a circle, and the buckets that each has still to walk (R83). -/
  | reclaiming (hubs : List (Nat × Nat))
  | reclaimed
  deriving DecidableEq, Repr

/-- A caching agent (R78). -/
structure Agent where
  node : Nat
  ep : Nat
  lease : Lease := .current
  lastBeat : BitVec 64 := 0
  lost : Nat := 0
  lostBy : Tab Nat := []
  removeMb : Option Nat := none
  deriving DecidableEq, Repr

/-- Directory states other than DI (Table 03-3). -/
inductive DirState where
  | ds | de | dO
  deriving DecidableEq, Repr

/-- A directory entry (Table 03-5), the bucket and slot that hold it (R61), and the region and region offset of its
granule, which snoops name (R67). -/
structure DirEnt where
  hub : Nat
  bucket : Nat
  slot : Nat
  gran : Nat
  region : Nat := 0
  roff : Nat := 0
  st : DirState
  coarse : Bool := false
  owner : Option Nat := none
  /-- The four exact pointers, pointer 0 first. -/
  ptrs : List (Option Nat) := [none, none, none, none]
  bits : BitVec 64 := 0
  deriving DecidableEq, Repr

/-- What a request asks of one granule (Table 03-7, R65, R71). -/
inductive HomeOp where
  | rdShared | rdOwn | upgrade | rdUnc
  | wrUnc | wrThru | wrStash (target offer : Nat) | atomic (op : Nat) (width : Width) (operands : List Nat)
  /-- Back-invalidation of a directory victim (R65). -/
  | evict
  /-- Recall of every copy for a publication, a migration chunk or a write of the controller's own (R71, R108). -/
  | recall
  /-- Recall for a read of the controller's own. -/
  | recallRd
  /-- A write-back, and an eviction notice (R68, R70). -/
  | wrBack | cleanEvict
  deriving DecidableEq, Repr

/-- A request on one granule at the home: the bytes it touches, the packet it came in, and the join that collects the
pieces of one request. `ext` is the extent that it resolved (R27), `roff` the region offset of its first byte, `off` the
offset of this piece in its request. -/
structure HomeReq where
  op : HomeOp
  ppa : Nat
  len : Nat
  region : Nat
  roff : Nat
  ext : Nat := 0
  tag : Nat := 0
  part : Nat := 64
  port : Nat := 96
  hdr : Hdr := {}
  agent : Nat := 0xFFFF
  mask : Nat := 0
  data : List Byte := []
  poison : Bool := false
  off : Nat := 0
  join : Nat := 0
  cold : Bool := false
  /-- Its place among the requests that the home has taken, which joins share (R25, R27, R429). -/
  ord : Nat := 0
  deriving DecidableEq, Repr

/-- What a transaction waits for from an agent (R69). -/
inductive AwaitKind where
  | inv | snp | fwd | stash
  deriving DecidableEq, Repr

/-- An open transaction (R69): what it still awaits, the owner's answer (0 it held I or there was none; 1 to 4 a `FWD_DONE`
that left I, S, F, O), whether an expired owner may have held dirty data (R81), whether it counts as a `WRD` request, and the
snoops still to be sent, stage by stage: agent, what it awaits of it, opcode (Table 03-7). -/
structure Txn where
  id : Nat
  hub : Nat
  gran : Nat
  req : HomeReq
  await : List (Nat × AwaitKind)
  left : Nat := 0
  lost : Bool := false
  wrd : Bool := false
  stages : List (List (Nat × AwaitKind × Nat)) := []
  /-- Agents whose copies the transaction has asked back. -/
  asked : List Nat := []
  /-- Its reads of memory have been queued (R241). -/
  mem : Bool := false
  /-- The home has looked: 1 the remote-copy bit or the policy spared the directory, 2 the directory was consulted (R66). -/
  looked : Nat := 0
  /-- A stash offer is out: the `CMP` has been sent. -/
  offered : Bool := false
  /-- The state in which a stash offer was accepted, which waits for a directory entry (R65, R74). -/
  taken : Option DirState := none
  deriving DecidableEq, Repr

/-- The pieces of one packet's request, collected (R230, R265): `fwd` the mirror forwards that still await `MIR_ACK`
(R340), `closed` once every piece is done. -/
structure Join where
  port : Nat
  hdr : Hdr
  part : Nat
  /-- 0 write, 1 uncached read, 2 caching read, 3 atomic, 4 stash. -/
  kind : Nat
  region : Nat := 0
  ext : Nat := 0
  /-- The regions that its pieces lie in. -/
  regions : List Nat := []
  /-- Where its bytes lie in the pool: (offset, pool handle of the byte there) for each piece (R67). -/
  handles : List (Nat × Nat) := []
  left : Nat
  fwd : Nat := 0
  status : Status := .ok
  result : Nat := 0
  /-- Bytes read: (offset, bytes with the poison of each). -/
  parts : List (Nat × List (Byte × Bool)) := []
  deriving DecidableEq, Repr

/-- The reclaim sweep of one hub (R83): next bucket, and whether any agent is being swept. -/
structure Sweep where
  pos : Nat := 0
  deriving DecidableEq, Repr

/-- A granule in an atomic unit (R77): its 128 bytes with the poison of each, and which of its two sectors differ from
memory. -/
structure AtomLine where
  gran : Nat
  data : List (Byte × Bool)
  dirty : BitVec 2 := 0
  deriving DecidableEq, Repr

/-- Coherence (R57 to R87). -/
structure Coherence where
  agents : Tab Agent := []
  leaseUs : Nat := 10000
  beatUs : Nat := 100
  /-- Directory fraction in force and set: 0 1/32, 1 1/64, 2 1/128 (R60). -/
  frac : Nat := 1
  fracNext : Nat := 1
  dir : List DirEnt := []
  /-- Granules whose entries each hub's directory cache holds, most recent first (R64). -/
  dirCache : List (Nat × Nat) := []
  txns : List Txn := []
  /-- Requests that wait behind an open transaction of their granule, or for a free transaction, in arrival order. -/
  waiting : List HomeReq := []
  joins : Tab Join := []
  nextTxn : Nat := 0
  nextJoin : Nat := 1
  sweep : Tab Sweep := []
  backInv : Tab Nat := []
  lost : Tab Nat := []
  /-- Held writes and atomics, with the region whose hold or cursor holds them (R432). -/
  held : List HomeReq := []
  /-- Granules in the atomic units, most recent first (R77). -/
  atomicUnit : List AtomLine := []
  /-- Requests that wait in their receive buffers for a transaction, in arrival order: hub and the packet's command (R69). -/
  stalled : List (Nat × Instr) := []
  deriving DecidableEq, Repr

/-- An entry of a hub's kettle (R267): sector, bytes by index 0 to 63, source poison, first writer's partition. -/
structure KettleEnt where
  sector : Nat
  bytes : List (Nat × Byte)
  poison : Bool
  part : Nat
  deriving DecidableEq, Repr

/-- A line of a tier cache (R257): its 1 KiB line number, sector masks, and its bytes by PPA. -/
structure TierLine where
  line : Nat
  valid : BitVec 16 := 0
  dirty : BitVec 16 := 0
  poison : BitVec 16 := 0
  pinned : Bool := false
  bytes : Memory := []
  deriving DecidableEq, Repr

/-- Metadata of a sector other than the all-clear one (Table 11-1), and the bits of its stored word that a flip mask
inverted (R278). `ZERO_SECTOR` is a function of the data written (R261) and is not stored. -/
structure SectorMeta where
  poison : Bool := false
  remote : Bool := false
  flip : BitVec 576 := 0
  deriving DecidableEq, Repr

/-- A request in a unit's queue (R241, R250): sector, class, owner, time, and for a write its bytes and metadata. -/
structure QEntry where
  sector : Nat
  cls : Nat
  tag : Nat
  /-- The partition, 64 the controller, 65 no one (R289). -/
  part : Nat
  time : BitVec 64
  aon : Nat
  write : Bool
  bytes : List Byte := []
  poison : Bool := false
  /-- The descriptor it works for. -/
  desc : Option (Nat × BitVec 32) := none
  /-- The join whose piece it writes, 0 for none, and the transaction that waits for what it reads (R241, R248). -/
  join : Nat := 0
  txn : Option Nat := none
  deriving DecidableEq, Repr

/-- On whose behalf memory is accessed (R241, R289): service class, context tag, partition (64 the controller, 65 no
one), descriptor, join or transaction, whether the page carries the COLD hint (R52, R257), and whether its reads have been
queued and served before (R241). -/
structure Acc where
  cls : Nat := 2
  tag : Nat := 0
  part : Nat := 64
  desc : Option (Nat × BitVec 32) := none
  join : Nat := 0
  txn : Option Nat := none
  cold : Bool := false
  served : Bool := false
  deriving DecidableEq, Repr

/-- What a sector read gives: bytes, poison, remote-copy bit, and `ST_OK`, `ST_POISON`, `ST_LINE_LOST` or
`ST_PC_FROZEN` (R248, R262, R264). -/
structure Sector where
  data : List Byte
  poison : Bool := false
  remote : Bool := false
  st : Status := .ok
  deriving DecidableEq, Repr

/-- The outcome of decoding a stored sector (R262): 0 clean, 1 corrected (with the symbol's place in the code word), 2
uncorrectable; the syndromes S0, S1, S2. -/
structure Decoded where
  out : Nat
  sym : Nat := 0
  synd : List Nat := [0, 0, 0]
  sec : Sector
  deriving DecidableEq, Repr

/-- Where a PPA lies in its unit (Table 10-1, R237): DIMM slot, stack id or logical rank, bank group, bank, row, column. -/
structure Loc where
  slot : Nat := 0
  sid : Nat
  bg : Nat
  bank : Nat
  row : Nat
  col : Nat
  deriving DecidableEq, Repr

/-- The snapshot of a frozen unit (R250, Table 10-4). -/
structure Snapshot where
  cause : Nat
  failPpa : Nat
  time : BitVec 64
  synd : List Nat := [0, 0, 0]
  rq : List QEntry := []
  wq : List QEntry := []
  later : Nat := 0
  temp : Nat := 0
  contentsLost : Bool := false
  cmds : List Nat := []
  /-- Parity errors of refresh commands in this window (R249). -/
  refreshErrs : Nat := 0
  deriving DecidableEq, Repr

/-- A pseudo-channel or DDR5 channel (R240 to R258). -/
structure MemUnit where
  absent : Bool := false
  /-- Stack ids marked absent (R254). -/
  absentIds : List Nat := []
  /-- The spare that serves it (local pseudo-channel 0 or 1). -/
  spare : Option Nat := none
  frozen : Option Snapshot := none
  rq : List QEntry := []
  wq : List QEntry := []
  /-- Write queues that are being drained (R242): 64 for the shared part, or a strict partition's own part (R292). -/
  drain : List Nat := []
  /-- Open row of each bank. -/
  openRow : Tab Nat := []
  /-- Activate table of each bank: (row, count) by slot (R246). -/
  act : Tab (List (Nat × Nat)) := []
  /-- Neighbour refreshes of each bank in this window; banks whose storm is raised (R247). -/
  neigh : Tab Nat := []
  storm : List Nat := []
  neighTotal : Nat := 0
  /-- The request issued last: the access in flight when an interface error is found (R250). -/
  last : Option QEntry := none
  /-- Rows whose neighbour refresh waits for a guard (R291): (bank, row). -/
  due : List (Nat × Nat) := []
  /-- Banks refreshed in the present guard (R291). -/
  guarded : List Nat := []
  /-- Every sector without listed metadata is poisoned (R253, mode POISON). -/
  poisonAll : Bool := false
  refreshes : Nat := 0
  cmds : List Nat := []
  /-- A spare copy in progress: spare, mode POISON, mailbox (R253). -/
  sparing : Option (Nat × Bool × Nat) := none
  /-- A bank-spare copy in progress: spare, mailbox (R274). -/
  bankMove : Option (Nat × Nat) := none
  /-- Low-power state: 0 active, 1 precharge power-down, 2 self-refresh (R420). -/
  power : Nat := 0
  hot : Bool := false
  temp : Nat := 25
  /-- Strainer: next sector of the pass, corrected sectors per page, rows per bank, what was recommended (R270, R272). -/
  scrub : Nat := 0
  pageCe : Tab Nat := []
  bankRows : List (Nat × Nat) := []
  advised : List Nat := []
  /-- First corrected error of each bank in this pass, and the corrected errors of each bank since its last record (R276). -/
  ceBanks : List Nat := []
  ceCount : Tab Nat := []
  deriving DecidableEq, Repr

/-- A channel group (R240, R286 to R291): scheduling word, slot tables by slot (unlisted OPEN), a pending commit and the
mailboxes that wait for it, and the weighted round-robin turn (member, turns used). -/
structure Group where
  word : BitVec 64 := 0x00FA60403E800000
  active : Tab Nat := []
  shadow : Tab Nat := []
  commit : Bool := false
  turn : Nat × Nat := (0, 0)
  deriving DecidableEq, Repr

/-- The memory of the pool (R11 to R20, R236 to R278). -/
structure Pool where
  mem : Memory := []
  smeta : Tab SectorMeta := []
  units : Tab MemUnit := []
  groups : Tab Group := []
  kettle : List KettleEnt := []
  tier : List TierLine := []
  /-- Mailboxes whose command completes after the next wrap, and whether it is a `MEM_SLOT_COMMIT` (R283, R288). -/
  commitMbs : List (Nat × Bool) := []
  scrubWord : BitVec 64 := 0x0620810000000000
  /-- Capacity-tier chunks that are initialised (R263). -/
  capInit : List Nat := []
  retired : List Retired := []
  /-- Entries removed with effect from the next cold reset (R275). -/
  unretire : List Retired := []
  /-- Page moves in progress: old chunk, new chunk, mailbox (R273). -/
  moves : List (Nat × Nat × Nat) := []
  /-- The armed flip mask: unit and mask (R277). -/
  flip : Option (Nat × BitVec 576) := none
  /-- Error log of each hub: records newest first, next SEQ, overwritten (R276, R400). -/
  log : Tab (List (BitVec 512)) := []
  logSeq : Tab Nat := []
  logLost : Tab Nat := []
  /-- Training records of the memory interfaces, in the caddy (R256). -/
  memRecords : List MemRecord := []
  /-- Decoded data of the last sector read by SECTOR_READ_DECODE. -/
  lastRead : List Byte := []
  deriving DecidableEq, Repr

/-- The work that an engine abandoned at its last expiry (R318): queue, index, `RESULT`, context tag, partition. -/
structure Abandoned where
  q : Nat
  i : Nat
  result : Nat
  tag : Nat
  part : Nat
  deriving DecidableEq, Repr

/-- An engine (R112 to R115, R318, R420): its watchdog period in ms; `job` its descriptor; `gate` 0 running, 1 clock-gated, 2 power-gated. -/
structure Engine where
  absent : Bool := false
  outOfService : Bool := false
  resetting : Bool := false
  wdMs : Nat := 50
  job : Option (Nat × BitVec 32) := none
  gate : Nat := 0
  abandoned : Option Abandoned := none
  deriving DecidableEq, Repr

/-- The chunk states of Table 06-6a are functions of the bitmap and of `withheld`. One step of a collective (R150): ranks
that contributed to each chunk, their data, the accumulator, poison of each result element. -/
structure CollStep where
  /-- By chunk: the ranks whose bit is set. -/
  bits : Tab (List Nat) := []
  /-- By chunk: accumulator lanes (FP32 bits or INT32) and poison of each. -/
  acc : Tab (List (BitVec 32 × Bool)) := []
  /-- By chunk: kept contributions (rank, lanes) for RANK_ORDER. -/
  kept : Tab (List (Nat × List (BitVec 32 × Bool))) := []
  complete : List Nat := []
  dups : Nat := 0
  first : Option (BitVec 64) := none
  poison : Bool := false
  deriving DecidableEq, Repr

/-- The header and bitmaps of a status block (Table 06-6). -/
structure CollBlock where
  head : BitVec 512 := 0
  missing : List Nat := []
  withheld : List Nat := []
  deriving DecidableEq, Repr

/-- A collective (R148). -/
structure Coll where
  req : CollReq
  ctx : Nat
  part : Nat
  area : List Nat
  step : Nat := 0
  cur : CollStep := {}
  nxt : CollStep := {}
  /-- Bitmaps of the closed step (row 3 of Table 06-5). -/
  old : Tab (List Nat) := []
  timer : Bool := false
  blocks : CollBlock × CollBlock := ({}, {})
  deriving DecidableEq, Repr

/-- Partner identity from a capability block (R180). -/
structure Partner where
  serial : Nat
  node : Nat
  port : Nat
  kind : Nat := 0
  inc : Nat := 0
  deriving DecidableEq, Repr

/-- Port states (Table 07-4). -/
inductive PState where
  | disabled | down | training | up | degraded | absent
  deriving DecidableEq, Repr

/-- Training progress (R175): own `LANES_OK`, the last valid block, the block held, the confirmed block, the rates still
allowed, the target mode, rounds of step 5, whether a saved record is being tried, whether the partner has sent `RCVD`, and the
`RATES` and `WIDTHS` advertised in this training (R171). -/
structure Training where
  /-- 1 signal wait, 2 lock and exchange, 4 settings, 5 confirm, 6 link layer. -/
  step : Nat := 1
  lanes : Nat := 0
  lastBlk : Option (BitVec 512) := none
  blk : Option (BitVec 512) := none
  confirmed : Option (BitVec 512) := none
  rates : Nat := 7
  mode : Nat := 0
  rounds : Nat := 0
  saved : Bool := false
  rcvd : Bool := false
  offRates : Nat := 7
  offWidths : Nat := 7
  deriving DecidableEq, Repr

/-- The packet that a port's egress is sending (R207): the input and channel it started on, its source, and the units already
sent. -/
structure Holder where
  input : Nat
  src : Nat
  pkt : Packet
  sent : Nat
  deriving DecidableEq, Repr

/-- The arbiter's grant (R207, R208, R214): its input, the burst limit in flits that it was given under (0 for none), the flits
sent under it, whether its burst limit has expired. -/
structure Grant where
  input : Nat
  limit : Nat := 0
  flits : Nat := 0
  expired : Bool := false
  deriving DecidableEq, Repr

/-- The link layer of a port (R187 to R213). -/
structure Link where
  ready : Bool := false
  sawInit : Bool := false
  /-- A flit other than INIT has arrived since initialisation (R195 step 3). -/
  live : Bool := false
  grants : List Nat := []
  credits : List Nat := []
  nextSeq : Nat := 0
  expect : Nat := 0
  replay : List Flit := []
  /-- A packet begun in flits that are acknowledged, and its units still in the replay buffer (R196). -/
  midway : Option (Packet × Nat) := none
  /-- Position in the replay buffer of the next flit to resend. -/
  replayAt : Option Nat := none
  expiries : Nat := 0
  accepted : Nat := 0
  everAccepted : Bool := false
  ackDue : Bool := false
  ackTimer : Bool := false
  /-- Units freed and not yet returned, by channel. -/
  owed : Tab Nat := []
  /-- Units of the receive buffer in use, by channel. -/
  used : Tab Nat := []
  /-- The packet being received and its units still to come. -/
  rx : Option (Packet × Nat) := none
  /-- Where the packet being received has been forwarded already: egress port and the packet as it goes out there (R211). -/
  rxOut : List (Nat × Packet) := []
  /-- Packets received whole, oldest first; those received before the last link loss. -/
  inbox : List Packet := []
  earlier : List Packet := []
  /-- Packets that wait at egress, in the order they came: (source, packet), the input in the packet's VC field. A source is a
  partition, 64 transit or 65 the controller (R213, R295). -/
  egress : List (Nat × Packet) := []
  holder : Option Holder := none
  grant : Option Grant := none
  /-- Source served last, by input, with turns used (R208, R295). -/
  turn : Tab (Nat × Nat) := []
  /-- The source whose packet was cut, by input: it is restarted the next time the input wins (R209). -/
  again : Tab Nat := []
  /-- The packet in progress has been cut at its ingress: the next flit cuts it here (R211). -/
  abort : Bool := false
  /-- The last flit sent. -/
  wire : Option Flit := none
  /-- Flits sent and received since the last initialisation, and the last flit sent on each active lane (R169). -/
  txCount : Nat := 0
  rxCount : Nat := 0
  lanes : Tab Flit := []
  /-- A pending injection: kind 0 CRC_BAD, 1 FEC_UNCORR, 2 DROP_ACK, and the count left (R376). -/
  inject : Option (Nat × Nat) := none
  deriving DecidableEq, Repr

/-- A fabric port (R168 to R186). -/
structure Port where
  st : PState := .down
  pstate : Nat := 0
  mode : Nat := 0
  lanes : Nat := 0
  feat : Nat := 0
  admOk : Bool := false
  saved : Bool := false
  cause : Nat := 0
  retrains : Nat := 0
  partner : Option Partner := none
  lastUp : Option Partner := none
  rates : Nat := 7
  widths : Nat := 7
  word : BitVec 64 := 0x08B6C68877777777
  stats : Tab Nat := []
  train : Training := {}
  retry : Nat := 0
  failures : Nat := 0
  record : Option PortRecord := none
  link : Link := {}
  pl2En : Bool := false
  pl1Us : Nat := 20
  pl2Ms : Nat := 10
  /-- 0 none, 1 `LP_REQ` sent, 2 waking, 3 `LP_ACK` sent and not yet acknowledged, 4 `LP_ACK` received and not yet acknowledged,
  5 `LP_REQ` sent and received (R186). -/
  lp : Nat := 0
  dedicated : Option Nat := none
  /-- Fallback window of R362: counters at its start. -/
  window : Option (Nat × Nat × Nat) := none
  deriving DecidableEq, Repr

/-- A pin of an ordered flow (R226). -/
structure Pin where
  iod : Nat
  key : FlowKey
  port : Nat
  via : Option Nat := none
  deriving DecidableEq, Repr

/-- An open message (R230): bytes counted so far, packets whose bytes are not all written yet, and the status so far. -/
structure OpenMsg where
  iod : Nat
  key : MsgKey
  hdr : Hdr
  port : Nat
  got : Nat := 0
  open_ : Nat := 0
  status : Status := .ok
  /-- Bit 0 of the `CMP` result: a stash offer was made (R74). -/
  result : Nat := 0
  /-- Bytes of a contribution message: (offset, bytes with the poison of each) (R149). -/
  parts : List (Nat × List (Byte × Bool)) := []
  deriving DecidableEq, Repr

/-- An ordered flow of the controller's own (R227): its requests without a response (destination node, tag, opcode), and whether
its next packet is not the first since they all had one. -/
structure FlowUse where
  key : FlowKey
  reqs : List (Nat × Nat × Nat) := []
  sent : Bool := false
  deriving DecidableEq, Repr

/-- A request of the controller's own that has no answer yet (R229): destination node, tag, opcode, its flow when ordered,
its descriptor, and the ports it was sent on (R184). -/
structure OwnMsg where
  node : Nat
  tag : Nat
  opcode : Nat
  key : Option FlowKey := none
  desc : Option (Nat × BitVec 32) := none
  ports : List Nat := []
  /-- The transaction and the agent of a snoop (R69). -/
  snoop : Option (Nat × Nat) := none
  deriving DecidableEq, Repr

/-- Routing (R216 to R235). -/
structure Routing where
  word : BitVec 64 := 0xFFFFFD0282800000
  routes : Tab (BitVec 64) := []
  vsets : Tab (List Nat) := []
  flocks : Tab (BitVec 128) := []
  pins : List Pin := []
  pinFull : Nat := 0
  msgs : List OpenMsg := []
  /-- First packets of new messages that wait for a tracker: (I/O die, the packet's command). -/
  msgWait : List (Nat × Instr) := []
  /-- Closed messages, with the bytes of each that have not arrived (R231). -/
  closed : List (MsgKey × Nat) := []
  own : List OwnMsg := []
  nextTag : Nat := 0
  malformed : Nat := 0
  noRoute : Nat := 0
  late : Nat := 0
  flockDrops : Nat := 0
  /-- Flock and port pairs whose first drop has been reported (R234). -/
  flockDown : List (Nat × Nat) := []
  notRank : Nat := 0
  oldTag : Nat := 0
  ctxEnded : Nat := 0
  flows : List FlowUse := []
  /-- The incarnation last learnt of each node (R67, Table 09-1). -/
  learnt : Tab Nat := []
  /-- Packets that the controller addressed to its own node, oldest first. -/
  loop : List Packet := []
  deriving DecidableEq, Repr

/-- Pair roles (Table 14-2). -/
inductive Role where
  | unpaired | active | solo | standby | standbySync | fenced
  deriving DecidableEq, Repr

/-- A forward that awaits its acknowledgement (R340): the forward's tag and what completes after it. -/
structure Forward where
  tag : Nat
  /-- A join (fabric write or atomic) or a publication of a region, by number; 0 for neither. -/
  join : Nat
  pub : Nat
  /-- The descriptor whose write it carries. -/
  desc : Option (Nat × BitVec 32) := none
  deriving DecidableEq, Repr

/-- The mirror pair (R334 to R350). -/
structure Mirror where
  role : Role := .unpaired
  setId : Nat := 0
  partner : Nat := 0
  ports : List Nat := []
  claim : Nat := 0
  highest : Nat := 0
  rate : Nat := 64
  seq : Nat := 0
  ppOk : Bool := false
  hbxOk : Bool := false
  ppAlarm : Bool := false
  hbxAlarm : Bool := false
  partnerRole : Nat := 0
  partnerClaim : Nat := 0
  forwards : List Forward := []
  /-- Resynchronisation cursor: region and offset, bytes copied. -/
  curRegion : Nat := 0
  curOff : Nat := 0
  copied : Nat := 0
  syncing : Bool := false
  /-- A reset has happened, and the partner's first beat since then is still to come: the role before it (R346). -/
  returning : Option Role := none
  /-- A mirrored context's requests completed `ST_STALE_CLAIM`. -/
  stale : Nat := 0
  absent : Bool := false
  deriving DecidableEq, Repr

/-- An SPDM session (R384 to R388): function, id, tokens of the key and IV of each direction, record numbers in and out,
established. -/
structure Session where
  fn : Nat
  id : Nat
  keyIn : Nat
  keyOut : Nat
  seqIn : Nat := 0
  seqOut : Nat := 0
  finished : Bool := false
  /-- No request of the partition has run since `FINISH` (R385). -/
  fresh : Bool := true
  deriving DecidableEq, Repr

/-- A boot service (R363). -/
structure Serve where
  req : ServeReq
  extent : Nat
  round : Nat := 1
  /-- Bytes of the round already sent (manifest, table, image). -/
  pos : Nat := 0
  sent : Nat := 0
  status : Status := .ok
  live : Bool := true
  /-- Descriptors admitted before it resolved its extent (R27). -/
  order : Nat := 0
  /-- `ROUND_TIME` and `IMAGE_CRC` of the present round. -/
  time : BitVec 64 := 0
  crc : Nat := 0
  deriving DecidableEq, Repr

/-- Firmware, measurements, sessions (R354, R381 to R388). -/
structure Firmware where
  caddy : Image := {}
  /-- The slot booted, the running image's `SVN`, and whether it was booted from slot A without fallback, or is the caddy copy
  of such an image (R382). -/
  booted : Nat := 0
  svnRun : Nat := 0
  fromA : Bool := false
  measure : Tab (BitVec 384) := []
  tapLog : List Nat := []
  sessions : List Session := []
  spdm : Tab Nat := []
  serves : Tab Serve := []
  /-- Sealed records written for the host, newest first: (partition, kind, bytes). -/
  sealed : List (Nat × Nat × List Byte) := []
  /-- Sealed mailbox requests accepted: (partition, body). -/
  opened : List (Nat × List Byte) := []
  deriving DecidableEq, Repr

/-- The management processor (R319). -/
structure Mpc where
  restarting : Bool := false
  /-- The MPC watchdog runs; the AON time of its last restart. -/
  armed : Bool := false
  kicked : Nat := 0
  restarts : Nat := 0
  /-- AON time at which the last restart ended. -/
  lastRestart : Option Nat := none
  dump : Option (List Byte) := none
  deriving DecidableEq, Repr

/-- Power and heat (R415 to R424): limits in force, hub clocks, what throttles. -/
structure Power where
  /-- Package power of the last 1 ms, W (R412). -/
  watts : Nat := 0
  limitW : Nat := 1150
  limitMhz : Nat := 1800
  /-- The cap in MHz that the power average has set, while its episode lasts (R418). -/
  avgMhz : Option Nat := none
  /-- The cap in MHz of each hub that its temperature has set (R423). -/
  hotMhz : Tab Nat := []
  /-- The last reading of each sensor, numbered as R433 numbers units, I/O die i as 0x4200 + i (R423, R424). -/
  temps : Tab Nat := []
  nack : List Nat := []
  /-- Units throttled by temperature (R423), as R433 numbers them. -/
  hotUnits : List Nat := []
  standby : Bool := false
  trip : Bool := false
  rail : Bool := false
  tapTest : Bool := false
  deriving DecidableEq, Repr

/-- Free values (log 2): values given in advance, then draws by number of the opaque `Config.freeValue`. -/
structure Free where
  given : List Nat := []
  seq : Nat := 0
  deriving DecidableEq, Repr

/-- An event before it is written (Table 18-5, R398): code, object, status, body, and the context tag when it arises from
one context (R320). -/
structure Ev where
  typ : Nat
  obj : Nat := 0
  status : Nat := 0
  body : Nat := 0
  ctx : Option Nat := none
  deriving DecidableEq, Repr

/-- What the controller itself has still to write or send, in order (R152, R153): a write to a pool handle for a partition
and a context tag, an event, a packet to a flock, a mailbox response. -/
inductive OwnOut where
  | write (part tag handle : Nat) (bs : List (Byte × Bool))
  | event (eq : Nat) (ev : Ev)
  | flock (part : Nat) (pkt : Packet)
  | reply (m : Nat) (r : Resp)
  deriving DecidableEq, Repr

/-- The state of the block. -/
structure State where
  fuses : Fuses := {}
  flash : Flash := {}
  clock : Clock := {}
  boot : Boot := {}
  pins : Pins := {}
  mbs : Tab Mailbox := []
  /-- Doorbells accepted so far (R374). -/
  mbOrder : Nat := 0
  parts : Tab Partition := []
  fmEq : Option (Nat × Nat) := none
  fmUnbound : Nat := 0
  ctxs : Tab Context := []
  /-- Generation of each context number (R285), 0 when unlisted, and numbers in quarantine. -/
  gens : Tab Nat := []
  quarantine : List Nat := []
  tables : Tab PageTable := []
  /-- Translation caches: (hub, context tag, level, CVA above the leaf offset), newest first (R35). -/
  tcache : List (Nat × Nat × Nat × Nat) := []
  regions : Tab Region := []
  extents : Tab Extent := []
  chunks : Tab ChunkUse := []
  pubs : List Pub := []
  queues : Tab Queue := []
  descs : List Desc := []
  descOrder : Nat := 0
  /-- Queues that are HELD, in the order they became so (R111). -/
  heldOrder : List Nat := []
  eqs : Tab EventQ := []
  faults : Faults := {}
  coh : Coherence := {}
  pool : Pool := {}
  engines : Tab Engine := []
  colls : List Coll := []
  /-- By context and `COLL_ID`, or by 4096 + event queue: what waits for recalled copies or held writes, oldest first. -/
  ownOut : List ((Nat × Nat) × OwnOut) := []
  shapers : Tab (Nat × Shaper) := []
  /-- The calendar wheel: eligible AON time of each waiting queue (R298). -/
  wheel : Tab Nat := []
  ports : Tab Port := []
  net : Routing := {}
  mirror : Mirror := {}
  fw : Firmware := {}
  mpc : Mpc := {}
  power : Power := {}
  free : Free := {}
  pending : List Instr := []
  deriving DecidableEq, Repr

/-- The controller right after power is applied: stage AON, held in reset, a part of ordering code GSP-9612-H fresh from
manufacture (log 1). Mailbox 0 admits any direct partner (R367). Every port is DOWN (Table 07-4) and unlisted, and so is
every unit: an unlisted port, unit, group, engine or mailbox has its reset values. -/
def State.reset : State := { mbs := [(0, { direct := true })] }

end Sys2Proof.Machine
end

