-- ==== Sys2Proof/Machine/Tab.lean ====
section
/-! DEFINITION. Tables by number and byte memory: how they are read and written. -/

namespace Sys2Proof.Machine

/-- The entry of key `k`. -/
def Tab.at? {α : Type} (t : Tab α) (k : Nat) : Option α :=
  match t with
  | [] => none
  | (j, v) :: r => if j = k then some v else Tab.at? r k

/-- The entry of key `k`, or `d` where none is listed. -/
def Tab.or {α : Type} (t : Tab α) (k : Nat) (d : α) : α := (Tab.at? t k).getD d

/-- Whether key `k` is listed. -/
def Tab.has {α : Type} (t : Tab α) (k : Nat) : Bool := (Tab.at? t k).isSome

/-- The table with entry `v` at key `k`, keys ascending. -/
def Tab.put {α : Type} (t : Tab α) (k : Nat) (v : α) : Tab α :=
  match t with
  | [] => [(k, v)]
  | (j, w) :: r =>
    if j < k then (j, w) :: Tab.put r k v
    else if j = k then (k, v) :: r
    else (k, v) :: (j, w) :: r

/-- The table without key `k`. -/
def Tab.del {α : Type} (t : Tab α) (k : Nat) : Tab α := t.filter (fun e => e.1 != k)

/-- Key `k` changed by `f`, from `d` where none is listed. -/
def Tab.upd {α : Type} (t : Tab α) (k : Nat) (d : α) (f : α → α) : Tab α := Tab.put t k (f (Tab.or t k d))

/-- Key `k` changed by `f` where it is listed. -/
def Tab.mod {α : Type} (t : Tab α) (k : Nat) (f : α → α) : Tab α :=
  t.map (fun e => if e.1 = k then (e.1, f e.2) else e)

/-- The keys, ascending. -/
def Tab.keys {α : Type} (t : Tab α) : List Nat := t.map (·.1)

/-- The byte at an address; an unlisted byte is 0 (R262, R263). -/
def Memory.get (m : Memory) (a : Nat) : Byte := Tab.or (α := Byte) m a 0

/-- The memory with byte `b` at address `a`, in canonical form. -/
def Memory.put (m : Memory) (a : Nat) (b : Byte) : Memory :=
  if b = 0 then Tab.del (α := Byte) m a else Tab.put (α := Byte) m a b

/-- The `n` bytes from address `a` on. -/
def Memory.read (m : Memory) (a n : Nat) : List Byte := (List.range n).map (fun i => m.get (a + i))

/-- The bytes `bs` written from address `a` on. -/
def Memory.write (m : Memory) (a : Nat) (bs : List Byte) : Memory :=
  match bs with
  | [] => m
  | b :: r => Memory.write (m.put a b) (a + 1) r

/-- The canonical form: ascending addresses, no listed zero. -/
def Memory.wf (m : Memory) : Bool :=
  match m with
  | [] => true
  | (a, b) :: r => b != 0 && (match r with
    | [] => true
    | (a', _) :: _ => decide (a < a')) && Memory.wf r

/-- The bytes from `a` up to `a + n` removed: they read 0. -/
def Memory.clear (m : Memory) (a n : Nat) : Memory := m.filter (fun c => c.1 < a || a + n ≤ c.1)

/-- A number's `n` low bytes, lowest first (R8). -/
def leBytes (n w : Nat) : List Byte := (List.range n).map (fun i => BitVec.ofNat 8 (w >>> (8 * i)))

/-- The number whose bytes, lowest first, are `bs` (R8). -/
def leNat (bs : List Byte) : Nat :=
  match bs with
  | [] => 0
  | b :: r => b.toNat + 256 * leNat r

/-- Element `i` of a list replaced, the list filled up with `d`. -/
def listSet {α : Type} (l : List α) (i : Nat) (d v : α) : List α :=
  match l, i with
  | [], 0 => [v]
  | [], i + 1 => d :: listSet [] i d v
  | _ :: r, 0 => v :: r
  | x :: r, i + 1 => x :: listSet r i d v

/-- The elements of the list, without `x`. -/
def dropVal {α : Type} [DecidableEq α] (l : List α) (x : α) : List α := l.filter (fun y => y != x)

/-- `x` added to a set held as an ascending list. -/
def addSorted (l : List Nat) (x : Nat) : List Nat :=
  match l with
  | [] => [x]
  | y :: r => if y < x then y :: addSorted r x else if y = x then y :: r else x :: y :: r

/-- `x` placed before the first element that it may precede. -/
def insertBy {α : Type} (le : α → α → Bool) (x : α) : List α → List α
  | [] => [x]
  | y :: r => if le x y then x :: y :: r else y :: insertBy le x r

/-- The list in the order of `le`; equal elements keep their order. -/
def sortBy {α : Type} (le : α → α → Bool) : List α → List α
  | [] => []
  | x :: r => insertBy le x (sortBy le r)

/-- Repeats `f` `n` times. -/
def iter {α : Type} (n : Nat) (f : α → α) (a : α) : α :=
  match n with
  | 0 => a
  | k + 1 => iter k f (f a)

/-- A list cut in pieces of `n`, with fuel. -/
def chunksOf {α : Type} (n : Nat) : Nat → List α → List (List α)
  | 0, _ => []
  | k + 1, l => if l.isEmpty then [] else l.take n :: chunksOf n k (l.drop n)

end Sys2Proof.Machine
end

