-- ==== Sys2Proof/Machine/Ops.lean ====
section
/-! DEFINITION. Named operations over the state that every family uses: the variant's units, the clocks, free values,
configuration fields, and the frame of a mailbox command. -/

namespace Sys2Proof.Machine

/-! Statuses. -/

/-- The 16-bit code of a status (Table 16-18). -/
def Status.code : Status → Nat
  | .ok => 0x0000 | .okEmpty => 0x0001
  | .badDesc => 0x0100 | .badArg => 0x0101 | .absentUnit => 0x0102 | .noResource => 0x0103
  | .faultUnmapped => 0x0200 | .faultPerm => 0x0201 | .faultAborted => 0x0202
  | .poison => 0x0300 | .pcFrozen => 0x0301 | .lineLost => 0x0302
  | .refusedBudget => 0x0400
  | .targetDown => 0x0500 | .staleIncarnation => 0x0501 | .staleClaim => 0x0502 | .routeNone => 0x0503
  | .conflictVersion => 0x0600
  | .ctxTornDown => 0x0700 | .timeout => 0x0701 | .collIncomplete => 0x0702
  | .notPermitted => 0x0800 | .busy => 0x0801 | .authFail => 0x0802

/-- The statuses, in the order of Table 16-18. -/
def Status.all : List Status :=
  [.ok, .okEmpty, .badDesc, .badArg, .absentUnit, .noResource, .faultUnmapped, .faultPerm, .faultAborted, .poison,
   .pcFrozen, .lineLost, .refusedBudget, .targetDown, .staleIncarnation, .staleClaim, .routeNone, .conflictVersion,
   .ctxTornDown, .timeout, .collIncomplete, .notPermitted, .busy, .authFail]

/-- The status of a code that a partner sent; a reserved code reads as `ST_TARGET_DOWN` (log 7). -/
def Status.ofCode (c : Nat) : Status := (Status.all.find? (fun st => st.code == c)).getD .targetDown

/-- `ST_OK` or `ST_OK_EMPTY`. -/
def Status.good (st : Status) : Bool := st == .ok || st == .okEmpty

/-! The variant and its units (Tables 00-1, 00-3, 00-4). -/

/-- Hub dies. -/
def Variant.hubs : Variant → Nat
  | .v4806M => 1
  | _ => 2
/-- I/O dies. -/
def Variant.iods : Variant → Nat
  | .v4806M => 2
  | _ => 4
/-- Ports. -/
def Variant.ports (v : Variant) : Nat := 24 * v.iods
/-- Whether stack `n` is assembled (Table 00-4). -/
def Variant.stack (v : Variant) (n : Nat) : Bool :=
  match v with
  | .v9612H | .v9612M => n < 12
  | .v9608H => n < 4 || (6 ≤ n && n < 10)
  | .v4806M => n < 6
/-- Assembled stacks. -/
def Variant.stackCount : Variant → Nat
  | .v9612H | .v9612M => 12
  | .v9608H => 8
  | .v4806M => 6
/-- DDR5 channels. -/
def Variant.dcs : Variant → Nat
  | .v4806M => 0
  | _ => 16
/-- Operator engines. -/
def Variant.oes (v : Variant) : Nat := 12 * v.hubs
/-- Transfer engines. -/
def Variant.tes (v : Variant) : Nat := 24 * v.hubs
/-- Whether the variant has a mirror function. -/
def Variant.mirror : Variant → Bool
  | .v4806M => false
  | _ => true
/-- Fused hub clock, MHz. -/
def Variant.mhz : Variant → Nat
  | .v9612H | .v9608H => 1800
  | _ => 1500
/-- Fused package power limit, W. -/
def Variant.watts : Variant → Nat
  | .v9612H => 1150 | .v9612M => 950 | .v9608H => 1020 | .v4806M => 520
/-- The ordering code as `DISCOVER` returns it: its place in Table 00-1 (log 8). -/
def Variant.code : Variant → Nat
  | .v9612H => 0 | .v9612M => 1 | .v9608H => 2 | .v4806M => 3
/-- Whether two pseudo-channels of every stack are spares (R14, R22). -/
def Variant.spares : Variant → Bool
  | .v9612H | .v9612M => true
  | _ => false

/-- The variant of this part. -/
def State.variant (s : State) : Variant := s.fuses.variant
/-- Hubs of this part. -/
def State.hubs (s : State) : Nat := s.variant.hubs

/-- A unit of a stack or DDR5 channel, as Table 16-14 numbers it. -/
def State.unit (s : State) (u : Nat) : MemUnit := s.pool.units.or u {}
/-- Changes a unit. -/
def State.updUnit (s : State) (u : Nat) (f : MemUnit → MemUnit) : State :=
  { s with pool := { s.pool with units := s.pool.units.upd u {} f } }
/-- Whether a unit is assembled. -/
def State.assembled (s : State) (u : Nat) : Bool :=
  if u < 768 then s.variant.stack (u / 64)
  else 0x8000 ≤ u && u < 0x8000 + s.variant.dcs
/-- Whether a unit is present: assembled and not absent. -/
def State.unitPresent (s : State) (u : Nat) : Bool := s.assembled u && !(s.unit u).absent
/-- Whether a stack is present: assembled, with a pseudo-channel that is not absent (R254). -/
def State.stackPresent (s : State) (n : Nat) : Bool :=
  s.variant.stack n && (List.range 64).any (fun i => !(s.unit (64 * n + i)).absent)
/-- The hub of a unit (Table 00-3). -/
def unitHub (u : Nat) : Nat := if u < 768 then u / 384 else (u - 0x8000) / 8
/-- The channel group of a unit (R286). -/
def unitGroup (u : Nat) : Nat := if u < 768 then u / 16 else 48 + (u - 0x8000)
/-- The units of a channel group. -/
def groupUnits (g : Nat) : List Nat :=
  if g < 48 then (List.range 16).map (fun i => 16 * g + i) else [0x8000 + (g - 48)]
/-- Whether a channel group is present: some unit of it is (R286). -/
def State.groupPresent (s : State) (g : Nat) : Bool := g < 64 && (groupUnits g).any s.unitPresent
/-- A channel group. -/
def State.group (s : State) (g : Nat) : Group := s.pool.groups.or g {}
/-- Changes a channel group. -/
def State.updGroup (s : State) (g : Nat) (f : Group → Group) : State :=
  { s with pool := { s.pool with groups := s.pool.groups.upd g {} f } }

/-- Whether an engine number of R433 is assembled. -/
def State.engineAssembled (s : State) (e : Nat) : Bool :=
  e < s.variant.oes || (0x100 ≤ e && e < 0x100 + s.variant.tes)
/-- An engine, numbered as R433. -/
def State.engine (s : State) (e : Nat) : Engine := s.engines.or e {}
/-- Changes an engine. -/
def State.updEngine (s : State) (e : Nat) (f : Engine → Engine) : State :=
  { s with engines := s.engines.upd e {} f }
/-- Whether an engine is present. -/
def State.enginePresent (s : State) (e : Nat) : Bool := s.engineAssembled e && !(s.engine e).absent
/-- The hub of an engine. -/
def engineHub (e : Nat) : Nat := if e < 0x100 then e / 12 else (e - 0x100) / 24

/-- A port. -/
def State.port (s : State) (p : Nat) : Port := s.ports.or p {}
/-- Changes a port. -/
def State.updPort (s : State) (p : Nat) (f : Port → Port) : State := { s with ports := s.ports.upd p {} f }
/-- Changes a port's link layer. -/
def State.updLink (s : State) (p : Nat) (f : Link → Link) : State :=
  s.updPort p (fun q => { q with link := f q.link })
/-- Whether a port is present. -/
def State.portPresent (s : State) (p : Nat) : Bool := p < s.variant.ports && (s.port p).st != .absent
/-- The ports of this part. -/
def State.portList (s : State) : List Nat := List.range s.variant.ports

/-! Clocks (R286, R397). -/

/-- The time base as a number. -/
def State.now (s : State) : Nat := s.clock.base.toNat
/-- The slot of the slot tables that `CLK_AON` is in (R286). -/
def State.slotNow (s : State) : Nat := s.clock.aon / 16 % 1024
/-- Nanoseconds into the present turn of the slot counter. -/
def State.wrapPhase (s : State) : Nat := s.clock.aon % 16384
/-- One nanosecond of `CLK_AON`: the time base moves at its steered rate, at half of it while a negative step is being
absorbed (R397). -/
def Clock.tick (c : Clock) : Clock :=
  let inc := ((1000000000 : Int) + c.rate).toNat
  let cut := if c.absorb = 0 then 0 else min c.absorb (inc - inc / 2)
  let tot := c.frac + (inc - cut)
  { c with aon := c.aon + 1, base := c.base + BitVec.ofNat 64 (tot / 1000000000), frac := tot % 1000000000,
           absorb := c.absorb - cut }
/-- The block with no command waiting: one nanosecond passes. -/
def State.idle (s : State) : State := { s with clock := s.clock.tick }

/-! Free values (log 2). -/

/-- The next free value, and the state after drawing it. -/
def State.draw (s : State) : Nat × State :=
  match s.free.given with
  | v :: r => (v, { s with free := { s.free with given := r } })
  | [] => (Config.freeValue s.free.seq, { s with free := { s.free with seq := s.free.seq + 1 } })
/-- A member of a non-empty list, freely chosen; the state unchanged and `d` for an empty list. -/
def State.choose {α : Type} (s : State) (l : List α) (d : α) : α × State :=
  match l with
  | [] => (d, s)
  | [x] => (x, s)
  | _ =>
    let (v, s') := s.draw
    (l.getD (v % l.length) d, s')
/-- The first of the `n` numbers from `x` on for which `used` is false. -/
def scanFree (used : Nat → Bool) : Nat → Nat → Option Nat
  | 0, _ => none
  | n + 1, x => if used x then scanFree used n (x + 1) else some x
/-- The first number at or cyclically after `v` in `[lo, hi)` for which `used` is false. -/
def firstFree (used : Nat → Bool) (lo hi v : Nat) : Option Nat :=
  if hi ≤ lo then none
  else
    let start := lo + v % (hi - lo)
    match scanFree used (hi - start) start with
    | some x => some x
    | none => scanFree used (start - lo) lo

/-! Partitions and contexts. -/

/-- A partition. -/
def State.part? (s : State) (p : Nat) : Option Partition := s.parts.at? p
/-- Changes a partition that exists. -/
def State.modPart (s : State) (p : Nat) (f : Partition → Partition) : State := { s with parts := s.parts.mod p f }
/-- A field of a partition's configuration block (Table 12-1), 0 for a partition that does not exist. -/
def State.partFld (s : State) (p hi lo : Nat) : Nat :=
  match s.part? p with
  | some q => bfld q.cfg hi lo
  | none => 0
def Partition.hotQuota (p : Partition) : Nat := bfld p.cfg 511 484
def Partition.capQuota (p : Partition) : Nat := bfld p.cfg 483 456
def Partition.regionQuota (p : Partition) : Nat := bfld p.cfg 455 436
def Partition.queueBase (p : Partition) : Nat := bfld p.cfg 435 420
def Partition.queueCount (p : Partition) : Nat := bfld p.cfg 419 403
def Partition.ctxQuota (p : Partition) : Nat := bfld p.cfg 402 390
def Partition.eqBase (p : Partition) : Nat := bfld p.cfg 389 378
def Partition.eqCount (p : Partition) : Nat := bfld p.cfg 377 365
def Partition.budgetBytes (p : Partition) : Nat := bfld p.cfg 364 337 * 1024
def Partition.budgetDesc (p : Partition) : Nat := bfld p.cfg 336 317
def Partition.oeRsv (p : Partition) : Nat := bfld p.cfg 316 293
def Partition.oeMax (p : Partition) : Nat := bfld p.cfg 292 288
def Partition.teRsv (p : Partition) : Nat := bfld p.cfg 287 240
def Partition.teMax (p : Partition) : Nat := bfld p.cfg 239 235
def Partition.slotWeight (p : Partition) : Nat := bfld p.cfg 234 227
def Partition.egrWeight (p : Partition) : Nat := bfld p.cfg 226 219
def Partition.strict (p : Partition) : Bool := bit p.cfg.toNat 218
def Partition.zeroing (p : Partition) : Nat := bfld p.cfg 217 216
/-- Whether partition `p` exists and is in strict mode. -/
def State.strict (s : State) (p : Nat) : Bool := (s.part? p).any Partition.strict

/-- The context number of a tag (Table 00-3). -/
def tagNum (tag : Nat) : Nat := tag / 16 % 4096
/-- The generation of a context number (R285). -/
def State.gen (s : State) (c : Nat) : Nat := s.gens.or c 0
/-- The current tag of a context number. -/
def State.tagOf (s : State) (c : Nat) : Nat := c * 16 + s.gen c
/-- A context by number. -/
def State.ctx? (s : State) (c : Nat) : Option Context := s.ctxs.at? c
/-- The context that a tag names when the tag is current (R431). -/
def State.ctxOfTag (s : State) (tag : Nat) : Option Context :=
  if tag < 65536 && s.gen (tagNum tag) == tag % 16 then s.ctx? (tagNum tag) else none
/-- Changes a context that exists. -/
def State.modCtx (s : State) (c : Nat) (f : Context → Context) : State := { s with ctxs := s.ctxs.mod c f }
/-- The partition of a context number. -/
def State.ctxPart (s : State) (c : Nat) : Option Nat := (s.ctx? c).map (·.part)

/-- A region by id. -/
def State.region? (s : State) (r : Nat) : Option Region := s.regions.at? r
/-- Changes a region that exists. -/
def State.modRegion (s : State) (r : Nat) (f : Region → Region) : State := { s with regions := s.regions.mod r f }
/-- A queue by id. -/
def State.queue? (s : State) (q : Nat) : Option Queue := s.queues.at? q
/-- Changes a queue that exists. -/
def State.modQueue (s : State) (q : Nat) (f : Queue → Queue) : State := { s with queues := s.queues.mod q f }
/-- An event queue by id. -/
def State.eq? (s : State) (e : Nat) : Option EventQ := s.eqs.at? e
/-- Changes an event queue that exists. -/
def State.modEq (s : State) (e : Nat) (f : EventQ → EventQ) : State := { s with eqs := s.eqs.mod e f }
/-- The `DB_STATE` code of a queue state (Table 04-1). -/
def QState.code : QState → Nat
  | .disabled => 0 | .active => 1 | .held => 2 | .stalled => 3 | .error => 4 | .blocked => 5
/-- A descriptor in the controller. -/
def State.desc? (s : State) (q : Nat) (i : BitVec 32) : Option Desc := s.descs.find? (fun d => d.q == q && d.i == i)
/-- Changes a descriptor. -/
def State.modDesc (s : State) (q : Nat) (i : BitVec 32) (f : Desc → Desc) : State :=
  { s with descs := s.descs.map (fun d => if d.q == q && d.i == i then f d else d) }
/-- Removes a descriptor. -/
def State.dropDesc (s : State) (q : Nat) (i : BitVec 32) : State :=
  { s with descs := s.descs.filter (fun d => !(d.q == q && d.i == i)) }
/-- A field of a descriptor's words. -/
def Desc.f (d : Desc) (hi lo : Nat) : Nat := bfld d.words hi lo
/-- The descriptor type (Table 04-3). -/
def Desc.typ (d : Desc) : Nat := d.f 3 0

/-- The hub that runs the queues of context `c` and handles its faults (R112). -/
def State.ctxHub (s : State) (c : Nat) : Nat := c % s.hubs

/-! Chunks and quotas (R19, R282). -/

/-- Bytes counted against `HOT_QUOTA` of partition `p` (R282). -/
def State.hotUse (s : State) (p : Nat) : Nat :=
  (s.extents.map (fun e => if e.2.part = p && e.2.pl.tier = 0 then 65536 * e.2.chunks.length else 0)).sum
  + 4096 * (s.tables.filter (fun t => t.2.part == p)).length
  + 65536 * (s.ctxs.filter (fun c => c.2.part == p)).length
  + (s.colls.map (fun c => if c.part = p then 65536 * c.area.length else 0)).sum
/-- 64 KiB units of capacity-tier extents of partition `p` (R282). -/
def State.capUse (s : State) (p : Nat) : Nat :=
  (s.extents.map (fun e => if e.2.part = p && e.2.pl.tier = 1 then e.2.chunks.length else 0)).sum
/-- Whether `n` more bytes fit partition `p`'s `HOT_QUOTA`. -/
def State.hotFits (s : State) (p n : Nat) : Bool :=
  match s.part? p with
  | some q => cdiv (s.hotUse p + n) 65536 ≤ q.hotQuota
  | none => false

/-! Waking the package (R421). -/

/-- STANDBY ends: at a host's access, a doorbell, a mailbox access, a signal on a port or an always-on timer. -/
def State.rouse (s : State) : State := { s with power := { s.power with standby := false } }

/-! Mailbox commands (R373, R375). -/

/-- A mailbox. -/
def State.mb (s : State) (m : Nat) : Mailbox := s.mbs.or m {}
/-- Changes a mailbox. -/
def State.updMb (s : State) (m : Nat) (f : Mailbox → Mailbox) : State := { s with mbs := s.mbs.upd m {} f }
/-- The command in mailbox `m` has its response; MB_COMMAND_END writes it. -/
def State.respond (s : State) (m : Nat) (r : Resp) : State := s.updMb m (fun b => { b with result := some r })
/-- A response to whichever mailbox waits, if any. -/
def State.respond? (s : State) (m : Option Nat) (r : Resp) : State :=
  match m with
  | some m => s.respond m r
  | none => s

/-- A check of a command: when it applies, its status and `FAIL_OFFSET` (Table 16-5). -/
abbrev Check := Bool × Status × Nat
/-- A check with a status that names no field. -/
def chk (c : Bool) (st : Status) : Check := (c, st, 0xFFFF)
/-- A check that fails with `ST_BAD_ARG` for the field at body byte `off` (R371). -/
def bad (c : Bool) (off : Nat) : Check := (c, .badArg, 0x20 + off)
/-- The first check that applies. -/
def firstFail : List Check → Option (Status × Nat)
  | [] => none
  | (c, st, o) :: r => if c then some (st, o) else firstFail r

/-- The call of a command, as its row of Tables 16-6 to 16-17 gives it: `fm` for caller FM, `own` the owners of the
objects it names, `query` whether it is a query, `rom` whether the boot ROM serves it, `need` the units that must be
trained (1 memory, 2 ports). -/
structure Call where
  fm : Bool := false
  own : List (Option Nat) := []
  query : Bool := false
  rom : Bool := false
  need : Nat := 0

/-- R373 items 2 and 3 for a command of mailbox `m`: caller (R375), then the MPC restart (R319), the bring-up rules (R356,
R357) and a partition reset (R326 step 1). -/
def State.gate (s : State) (m : Nat) (c : Call) : List Check :=
  let st := s.boot.stage
  [chk (m != 0 && (c.fm || c.own.any (fun o => o.any (fun p => p != m - 1)))) .notPermitted,
   chk (s.mpc.restarting || s.boot.held || s.boot.stopped || (st == 15 && !c.rom) || (m == 0 && st < 3)
      || (m != 0 && st != 8) || (m != 0 && !c.query && (s.part? (m - 1)).any (·.resetting))
      || (c.need == 1 && st < 5) || (c.need == 2 && st < 7)) .busy]

/-- A mailbox command: the first check that applies gives the status and changes nothing else (R373); otherwise its
effect. -/
def State.command (s : State) (m : Nat) (c : Call) (checks : List Check) (eff : State → State) : State :=
  match firstFail (s.gate m c ++ checks) with
  | some (st, o) => s.respond m { status := st, failOff := o }
  | none => eff s

/-- `ST_OK` with a body. -/
def okBody (b : List (Nat × Nat)) : Resp := { status := .ok, body := b }
/-- `ST_OK` with an empty body. -/
def okResp : Resp := { status := .ok }
/-- Records of `w` bytes each. -/
def recs (w : Nat) (l : List Nat) : List (Nat × Nat) := l.map (fun v => (w, v))

end Sys2Proof.Machine
end

