-- ==== Sys2Proof/Machine/Events.lean ====
section
/-! DEFINITION. Posting events (R308 to R314, R398, R433): an event takes its slot number and its place in its event
queue's outbox at once; the record reaches the ring when the command ends (Machine/Settle.lean). -/

namespace Sys2Proof.Machine

/-- A count that saturates at the all-ones value of a field of `w` bits (R433). -/
def sat (w n : Nat) : Nat := min n (2 ^ w - 1)
/-- `v` placed at bit `lo` of a field of `w` bits. -/
def at_ (v w lo : Nat) : Nat := (v % 2 ^ w) <<< lo

/-- The event record of Table 18-5. -/
def Ev.record (e : Ev) (time : BitVec 64) (phase : Bool) : BitVec 256 :=
  BitVec.ofNat 256 (at_ e.body 128 128 + at_ time.toNat 64 64 + at_ (e.ctx.getD 0) 16 48
    + at_ (if e.ctx.isSome then 1 else 0) 1 47 + at_ (if phase then 1 else 0) 1 46 + at_ e.typ 8 32
    + at_ e.status 16 16 + at_ e.obj 16 0)

/-- Events of a queue posted so far, modulo 2^32: those written and those in the outbox. -/
def EventQ.posted (e : EventQ) : BitVec 32 := e.pi + BitVec.ofNat 32 e.outbox.length
/-- Records posted and not yet consumed. -/
def EventQ.fill (e : EventQ) : Nat := (e.posted - e.ci).toNat
/-- The `PHASE` of the next event (R310). -/
def EventQ.phase (e : EventQ) : Bool := !(bit e.posted.toNat e.log2)
/-- Takes the next slot for an event. -/
def EventQ.push (e : EventQ) (ev : Ev) (now : BitVec 64) : EventQ :=
  { e with outbox := e.outbox ++ [ev.record now e.phase] }
/-- The owed `EQ_OVERFLOW` record, once a slot is free (R312). -/
def EventQ.owed (e : EventQ) (q : Nat) (now : BitVec 64) : EventQ :=
  if e.overflow && decide (e.fill < 2 ^ e.log2) then
    { e.push { typ := 0x0D, obj := q, body := sat 64 e.since } now with overflow := false, since := 0 }
  else e
/-- Posts an ordinary event, or drops and counts it (R312). -/
def EventQ.post (e : EventQ) (q : Nat) (ev : Ev) (now : BitVec 64) : EventQ :=
  let e := e.owed q now
  if e.fill < 2 ^ e.log2 - 1 then e.push ev now
  else { e with overflow := true, since := e.since + 1, dropped := sat 32 (e.dropped + 1) }

/-- Posts an event to event queue `q` (Q, D, C or L of Table 13-3). -/
def State.postEq (s : State) (q : Nat) (ev : Ev) : State := s.modEq q (fun e => e.post q ev s.clock.base)
/-- Posts to the partition event queue (P), or counts it while unbound (R313). -/
def State.postPart (s : State) (p : Nat) (ev : Ev) : State :=
  match s.part? p with
  | none => s
  | some q =>
    match q.eq with
    | some e => s.postEq e ev
    | none => s.modPart p (fun q => { q with unbound := q.unbound + 1 })
/-- Posts to the fabric manager event queue (F), or counts it while unbound (R313). -/
def State.postFm (s : State) (ev : Ev) : State :=
  match s.fmEq with
  | some (e, _) => s.postEq e ev
  | none => { s with fmUnbound := s.fmUnbound + 1 }
/-- Posts one event to every partition of a list. -/
def State.postParts (s : State) (ps : List Nat) (ev : Nat → Ev) : State :=
  ps.foldl (fun s p => s.postPart p (ev p)) s

/-- Moves the drops counted while a binding was unset into a queue: its first `EQ_OVERFLOW` record carries them
(R313). -/
def State.carryDrops (s : State) (q n : Nat) : State :=
  if n = 0 then s
  else s.modEq q (fun e => ({ e with overflow := true, since := e.since + n } : EventQ).owed q s.clock.base)

/-! Sealed records towards the host (R386, R387). -/

/-- The established session of a partition's VF. -/
def State.partSession (s : State) (p : Nat) : Option Session := s.fw.sessions.find? (fun x => x.fn == p + 1 && x.finished)
/-- Changes the sessions of a function. -/
def State.updSession (s : State) (fn id : Nat) (f : Session → Session) : State :=
  { s with fw := { s.fw with sessions := s.fw.sessions.map (fun x => if x.fn = fn && x.id = id then f x else x) } }
/-- The nonce of a record: the session's IV XOR `SEQ`. -/
def sealNonce (key seq : Nat) : Nat := Nat.xor (Config.sessionIv key).toNat seq
/-- A record's header in clear: `SEQ`, `LEN`, `KIND`. -/
def sealHeader (seq len kind : Nat) : List Byte := leBytes 8 seq ++ leBytes 4 len ++ leBytes 4 kind
/-- Writes a sealed record for the host of a confidential partition: kind 2 response, 3 event, 4 completion, 5 sample. -/
def State.sealOut (s : State) (p kind : Nat) (bs : List Byte) : State :=
  match (s.part? p).any (·.bounce.isSome), s.partSession p with
  | true, some x =>
    let h := sealHeader x.seqOut bs.length kind
    let rec_ := h ++ Config.gcmSeal x.keyOut (sealNonce x.keyOut x.seqOut) h bs
    ({ s with fw := { s.fw with sealed := (p, kind, rec_) :: s.fw.sealed } } : State).updSession x.fn x.id
      (fun x => { x with seqOut := x.seqOut + 1 })
  | _, _ => s

/-- `CAUSE_OUTSIDE` (R306): the object's number, the cause, the partition's affected regions, and how many queues and ports
of it are affected. -/
def causeOutside (num cause : Nat) (regions : List Nat) (others : Nat) : Ev :=
  { typ := 0x0B, obj := num,
    body := cause + at_ (sat 32 (regions.length + others)) 32 32 + at_ (regions.headD 0) 32 64 }
/-- `THROTTLE` (R307): the unit, POWER 1 or THERMAL 2, and whether it ends. -/
def throttleEv (unit cause : Nat) (fin : Bool) (time : Nat) : Ev :=
  { typ := 0x0C, obj := unit, body := cause + at_ (if fin then 1 else 0) 1 8 + at_ time 64 64 }

end Sys2Proof.Machine
end

