-- ==== Sys2Proof/Machine/AddrMap.lean ====
section
/-! DEFINITION. The pool physical address map: units, banks and rows, interleaving, directory places (R11, R12, R60, R61,
R236 to R239). -/

namespace Sys2Proof.Machine

/-- The unit whose window holds a PPA (Table 01-1), populated or not. -/
def ppaWindow (ppa : Nat) : Option Nat :=
  if ppa < 0x0D800000000 then
    some (64 * (ppa / 0x01200000000) + ppa % 0x01200000000 / 0x48000000)
  else if 0x10000000000 ≤ ppa && ppa < 0x90000000000 then
    some (0x8000 + (ppa - 0x10000000000) / 0x08000000000)
  else none

/-- The DIMM slot of a DDR5 PPA and the offset in it. -/
def ddrSlot (ppa : Nat) : Nat × Nat :=
  ((ppa - 0x10000000000) / 0x04000000000 % 2, (ppa - 0x10000000000) % 0x04000000000)

/-- The DIMM in a slot of a DDR5 channel. -/
def State.dimm? (s : State) (dc slot : Nat) : Option Dimm :=
  s.boot.dimms.find? (fun d => d.dc == dc && d.slot == slot && d.gib != 0)

/-- The unit that backs a PPA; none in an unpopulated range (R11). -/
def State.unitOf (s : State) (ppa : Nat) : Option Nat :=
  match ppaWindow ppa with
  | none => none
  | some u =>
    if u < 768 then if s.variant.stack (u / 64) then some u else none
    else if !s.assembled u then none
    else
      let (slot, off) := ddrSlot ppa
      match s.dimm? (u - 0x8000) slot with
      | some d => if off < d.gib <<< 30 then some u else none
      | none => none

/-- The PPA of the first byte of a pseudo-channel's slice (R236). -/
def sliceBase (u : Nat) : Nat := u / 64 * 0x01200000000 + u % 64 * 0x48000000
/-- The PPA of the first byte of a DIMM slot. -/
def slotBase (dc slot : Nat) : Nat := 0x10000000000 + dc * 0x08000000000 + slot * 0x04000000000

/-- Bank and row of a slice offset (Table 10-1). -/
def decodeSlice (a : Nat) : Loc :=
  { sid := fld a 15 14, bg := fld a 11 10, bank := fld a 13 12, row := a / 65536, col := fld a 9 6 }

/-- Rank, bank, row and column of a slot offset (R237). -/
def decodeDimm (d : Dimm) (a : Nat) : Loc :=
  let b := a / 4096
  let q := b / d.ranks * 4096 + a % 4096
  let bgw := Nat.log2 d.bg
  let baw := Nat.log2 d.ba
  let cw := Nat.log2 (d.cols / 512)
  let hi := (q >>> (12 + bgw + baw)) % 2 ^ cw
  { slot := d.slot, sid := b % d.ranks, bg := (q >>> 12) % 2 ^ bgw, bank := (q >>> (12 + bgw)) % 2 ^ baw,
    row := q >>> (12 + bgw + baw + cw), col := (fld q 11 7 + hi * 32) * 16 }

/-- Bank and row of a populated PPA. -/
def State.locate (s : State) (ppa : Nat) : Loc :=
  if ppa < 0x0D800000000 then decodeSlice (ppa % 0x01200000000 % 0x48000000)
  else
    let (slot, off) := ddrSlot ppa
    match s.dimm? ((ppa - 0x10000000000) / 0x08000000000) slot with
    | some d => decodeDimm d off
    | none => decodeSlice 0

/-- `BANK` of Table 18-7: stack id or rank, bank group, bank, each in its field. -/
def Loc.bankCode (l : Loc) : Nat := at_ l.sid 4 4 + at_ l.bg 2 2 + at_ l.bank 2 0
/-- The bank as one number, whatever the DIMM's organisation: DIMM slot, stack id or logical rank, bank group, bank. -/
def Loc.bankKey (l : Loc) : Nat := l.slot * 4096 + l.sid * 256 + l.bg * 16 + l.bank
/-- `BANK` of Table 18-7 for a bank's number. -/
def keyCode (k : Nat) : Nat := ({ sid := k / 256 % 16, bg := k / 16 % 16, bank := k % 16, row := 0, col := 0 } : Loc).bankCode
/-- The PPA of a row's first byte in a pseudo-channel bank, by the bank's number (Table 10-1). -/
def sliceRow (u key row : Nat) : Nat :=
  sliceBase u + row * 65536 + key / 256 % 16 * 16384 + key % 16 * 4096 + key / 16 % 16 * 1024

/-- The highest-numbered assembled stack. -/
def Variant.topStack : Variant → Nat
  | .v9612H | .v9612M => 11
  | .v9608H => 9
  | .v4806M => 5
/-- The base of the preserve region (R12). -/
def Variant.caddy (v : Variant) : Nat := (v.topStack + 1) * 0x01200000000 - 0x40000000
/-- Whether a PPA lies in the preserve region. -/
def State.inCaddy (s : State) (ppa : Nat) : Bool :=
  s.variant.caddy ≤ ppa && ppa < s.variant.caddy + 0x40000000
/-- The directory slice of each stack, in bytes, at the fraction in force (R60). -/
def State.dirSlice (s : State) : Nat := 0x01200000000 / (2 ^ (5 + s.coh.frac))
/-- Whether a PPA lies in a directory slice. -/
def State.inDir (s : State) (ppa : Nat) : Bool :=
  ppa < 0x0D800000000 && 0x011C0000000 - s.dirSlice ≤ ppa % 0x01200000000 && ppa % 0x01200000000 < 0x011C0000000
/-- Whether a unit is a spare pseudo-channel (R252). -/
def State.isSpare (s : State) (u : Nat) : Bool := s.variant.spares && u < 768 && u % 64 < 2

/-- The assembled stacks of a hub, ascending. -/
def State.hubStacks (s : State) (h : Nat) : List Nat :=
  (List.range 6).filterMap (fun i => if s.variant.stack (6 * h + i) then some (6 * h + i) else none)
/-- Buckets of a hub's directory (R61). -/
def State.buckets (s : State) (h : Nat) : Nat := s.dirSlice / 128 * (s.hubStacks h).length
/-- The bucket of a granule (R61): `gran` is PPA [43:7]. -/
def State.bucketOf (s : State) (h gran : Nat) : Nat :=
  (Nat.xor gran (gran >>> 17) * 0x9E3779B1 % 2 ^ 32) % (s.buckets h)
/-- The PPA of a bucket. -/
def State.bucketPpa (s : State) (h b : Nat) : Nat :=
  let st := s.hubStacks h
  (st.getD (b % st.length) 0) * 0x01200000000 + 0x011C0000000 - s.dirSlice + b / st.length * 128
/-- The hub on which a granule is homed (R60). -/
def granHub (gran : Nat) : Nat :=
  match ppaWindow (gran * 128) with
  | some u => unitHub u
  | none => 0

/-- Interleave grains (Table 01-3). -/
def grainBytes : Nat → Nat
  | 0 => 256 | 1 => 1024 | 2 => 4096 | _ => 65536

/-- The members of a placement, in ascending order (R238). -/
def State.members (s : State) (pl : Placement) : List Nat :=
  if pl.tier = 0 then
    (bitsOf pl.stkMask 12).flatMap (fun n => (bitsOf pl.qtrMask 4).flatMap (fun q =>
      ((List.range 16).map (fun k => 64 * n + 16 * q + k)).filter (fun u => !s.isSpare u)))
  else (bitsOf pl.dcMask 16).map (fun n => 0x8000 + n)

/-- `H(r)` of R238. -/
def xorHash (r : Nat) : Nat := fld (Nat.xor r (r >>> 11) * 0x9E3779B1 % 2 ^ 32) 31 16
/-- The member index and share offset of a region offset (R238). -/
def interleave (m g : Nat) (hash : Bool) (o : Nat) : Nat × Nat :=
  let c := o / g
  let r := c / m
  let j := c % m
  ((if hash then (j + xorHash r) % m else j), r * g + o % g)
/-- The PPA of a region offset in an extent (R238, R239). -/
def State.ppaIn (s : State) (e : Extent) (o : Nat) : Nat :=
  let m := (s.members e.pl).length
  let (j, so) := interleave m (grainBytes e.pl.grain) e.pl.xorHash o
  e.chunks.getD (j * cdiv e.size m + so / 65536) 0 * 65536 + so % 65536

/-- The extent whose chunk list holds a PPA. -/
def State.ownerExtent (s : State) (ppa : Nat) : Option Nat :=
  match s.chunks.at? (ppa / 65536) with
  | some (.extent id) => some id
  | _ => none
/-- The partition that owns the chunk at a PPA. -/
def State.ownerPart (s : State) (ppa : Nat) : Option Nat :=
  match s.chunks.at? (ppa / 65536) with
  | some (.extent id) => (s.extents.at? id).map (·.part)
  | some (.tables p) => some p
  | some (.ranks c) => s.ctxPart c
  | some (.coll c _) => s.ctxPart c
  | _ => none
/-- The regions with a member on a unit, those of size 0 included (R22). -/
def State.regionsOn (s : State) (u : Nat) : List Nat :=
  (s.regions.filter (fun r => (s.members r.2.pl).contains u)).map (·.1)

/-- The error-log record of Table 18-7 for a PPA of unit `u`. -/
def State.logRecord (s : State) (hub kind u ppa count detail : Nat) (synd : List Nat) (tag : Option Nat) : BitVec 512 :=
  let l := s.locate ppa
  let pt := if u = 0xFFFF then none else s.ownerPart ppa
  let lo := fun i => synd.getD i 0 % 65536
  let hi := fun i => synd.getD i 0 / 65536
  BitVec.ofNat 512 (at_ s.now 64 448 + at_ (ppa / 64 * 64) 44 404 + at_ u 16 384
    + at_ (lo 0) 16 336 + at_ (lo 1) 16 352 + at_ (lo 2) 16 368
    + at_ kind 8 328 + at_ l.bankCode 8 320 + at_ l.row 18 302 + at_ (pt.getD 0) 6 296
    + at_ (if pt.isSome then 1 else 0) 1 295 + at_ (if tag.isSome then 1 else 0) 1 294 + at_ (tag.getD 0) 16 278
    + at_ count 32 246 + at_ (s.pool.logSeq.or hub 0) 32 214 + at_ hub 1 213 + at_ detail 64 64
    + at_ (hi 0) 16 0 + at_ (hi 1) 16 16 + at_ (hi 2) 16 32)

/-- Whether a log record is a corrected-error record. -/
def isCeRecord (r : BitVec 512) : Bool := bfld r 335 328 == 1 || bfld r 335 328 == 2
/-- Removes the last element that `f` accepts (the log is newest first), else the last element. -/
def dropOldest (f : BitVec 512 → Bool) (l : List (BitVec 512)) : List (BitVec 512) :=
  let r := l.reverse
  (if r.any f then r.eraseP f else r.drop 1).reverse
/-- Writes a record to a hub's error log (R276, R400). -/
def State.logOn (s : State) (hub kind u ppa count detail : Nat) (synd : List Nat) (tag : Option Nat) : State :=
  let old := s.pool.log.or hub []
  let full := decide (8192 ≤ old.length)
  let old := if full then dropOldest isCeRecord old else old
  { s with pool := { s.pool with
      log := s.pool.log.put hub (s.logRecord hub kind u ppa count detail synd tag :: old),
      logSeq := s.pool.logSeq.upd hub 0 (fun n => (n + 1) % 2 ^ 32),
      logLost := if full then s.pool.logLost.upd hub 0 (· + 1) else s.pool.logLost } }
/-- Writes a record of a unit to its hub's error log. -/
def State.log (s : State) (kind u ppa count detail : Nat) (synd : List Nat) (tag : Option Nat) : State :=
  s.logOn (unitHub u) kind u ppa count detail synd tag

end Sys2Proof.Machine
end

