-- ==== Sys2Proof/Machine/Ecc.lean ====
section
/-! DEFINITION. The Reed-Solomon codes of the two tiers (R260 to R263). Both codes are linear, so a stored word is its
written code word and the bits a flip mask inverted since; the decoder works on the error word. -/

namespace Sys2Proof.Machine

/-- Multiplication by `α = x` in GF(2^w) with field polynomial `poly` (its low `w` bits). -/
def gfX (w poly a : Nat) : Nat := if a.testBit (w - 1) then Nat.xor (a * 2 % 2 ^ w) poly else a * 2
/-- A word evaluated at `α^j`: coefficients highest power first. -/
def gfEval (w poly j : Nat) (cs : List Nat) : Nat := cs.foldl (fun r c => Nat.xor (iter j (gfX w poly) r) c) 0
/-- The syndromes S0, S1, S2 of a received word. -/
def syndromes (w poly : Nat) (cs : List Nat) : List Nat := [gfEval w poly 0 cs, gfEval w poly 1 cs, gfEval w poly 2 cs]
/-- The power `k < n` whose symbol a single error of these syndromes lies in. -/
def errorAt (w poly s1 s2 : Nat) : Nat → Nat → Nat → Nat → Option Nat
  | 0, _, _, _ => none
  | n + 1, k, a, b =>
    if a = s1 && b = s2 then some k
    else errorAt w poly s1 s2 n (k + 1) (gfX w poly a) (gfX w poly (gfX w poly b))
/-- The decoder on an error word: none when uncorrectable, else the corrected error word and the place of the symbol that
it changed (0 the first coefficient). -/
def rsDecode (w poly : Nat) (cs : List Nat) : Option (List Nat × Option Nat) :=
  let s0 := gfEval w poly 0 cs
  let s1 := gfEval w poly 1 cs
  let s2 := gfEval w poly 2 cs
  if s0 = 0 && s1 = 0 && s2 = 0 then some (cs, none)
  else if s0 = 0 then none
  else
    match errorAt w poly s1 s2 cs.length 0 s0 s0 with
    | none => none
    | some k =>
      let i := cs.length - 1 - k
      some (listSet cs i 0 (Nat.xor (cs.getD i 0) s0), some i)

/-- The hot-tier code (R260). -/
def hotPoly : Nat := 0x100B
/-- The capacity-tier code (R263). -/
def capPoly : Nat := 0x00400007

/-- The error word of a flip mask on a hot-tier sector: d0 to d31, m, p0, p1, p2 (R260, R277). -/
def hotSymbols (mask : Nat) : List Nat := (List.range 36).map (fun i => (mask >>> (16 * i)) % 65536)
/-- The place of bit `i` of sector byte `b` in the capacity-tier code: symbol and bit (R263). -/
def capPlace (b i : Nat) : Nat × Nat :=
  let c := b % 32
  (2 * (c % 4) + i / 4 + (if b < 32 then 0 else 8), 4 * (c / 4) + i % 4)
/-- The error word of a flip mask on a capacity-tier sector: d0 to d15, m, p0, p1, p2 (R263, R277). -/
def capSymbols (mask : Nat) : List Nat :=
  let ds := (List.range 512).foldl (fun (l : List Nat) n =>
    if mask.testBit n then
      let (sy, bt) := capPlace (n / 8) (n % 8)
      listSet l sy 0 (Nat.xor (l.getD sy 0) (1 <<< bt))
    else l) (List.replicate 16 0)
  ds ++ [(mask >>> 512) % 2 ^ 32, (mask >>> 544) % 2 ^ 32, 0, 0]
/-- The sector bits that the data symbols of a capacity-tier error word invert. -/
def capDataErr (cs : List Nat) : Nat :=
  (List.range 512).foldl (fun r n =>
    let (sy, bt) := capPlace (n / 8) (n % 8)
    if (cs.getD sy 0).testBit bt then r + 1 <<< n else r) 0
/-- The sector bits that the data symbols of a hot-tier error word invert. -/
def hotDataErr (cs : List Nat) : Nat := (cs.take 32).foldr (fun d r => d + 65536 * r) 0

/-- All bytes zero. -/
def allZero (bs : List Byte) : Bool := bs.all (· == 0)
/-- The pattern of a lost sector (R82). -/
def lostPattern : List Byte := (List.replicate 8 (leBytes 8 0x4C4F53544C4F5354)).flatten
/-- The status of delivered sector data (R82, R264). -/
def secStatus (data : List Byte) (poison : Bool) : Status :=
  if poison then if data == lostPattern then .lineLost else .poison else .ok

/-- Decodes a stored sector (R261 to R263, R390): the key it is stored under, the data written, its metadata and the bits inverted since. `ZERO_SECTOR` = 1 with
corrected data symbols that are not all zero counts as uncorrectable (R261). -/
def decodeSector (cap : Bool) (key : Option Nat) (ppa : Nat) (data : List Byte) (m : SectorMeta) : Decoded :=
  if m.flip = 0 then
    { out := 0, sec := { data, poison := m.poison, remote := m.remote, st := secStatus data m.poison } }
  else
    let cs := if cap then capSymbols m.flip.toNat else hotSymbols m.flip.toNat
    let w := if cap then 32 else 16
    let poly := if cap then capPoly else hotPoly
    let ds := if cap then 16 else 32
    let synd := syndromes w poly cs
    let uncorr : Decoded := { out := 2, synd, sec := { data, poison := true, st := .pcFrozen } }
    match rsDecode w poly cs with
    | none => uncorr
    | some (res, sym) =>
      let derr := if cap then capDataErr res else hotDataErr res
      let z := allZero data
      -- the data symbols as stored: all zero for a zero sector, ciphertext in the capacity tier (R263)
      let held := if z then 0 else if cap then Config.cipher key ppa data else leNat data
      let word := Nat.xor ((if m.poison then 1 else 0) + (if m.remote then 2 else 0) + (if z then 4 else 0))
        (res.getD ds 0)
      let zf := bit word 2
      let zero := decide (Nat.xor held derr = 0)
      if 8 ≤ word || (zf && !zero) then uncorr
      else
        let out := if zf then List.replicate 64 0
          else if !cap then leBytes 64 (Nat.xor held derr)
          else if derr = 0 && !z then data
          else (List.range 64).map (fun i => Config.garbled ppa (Nat.xor held derr) i)
        { out := if sym.isSome then 1 else 0, sym := sym.getD 0, synd,
          sec := { data := out, poison := bit word 0, remote := bit word 1, st := secStatus out (bit word 0) } }

/-- The check symbols of 33 or 17 information symbols, as the remainder of the word by (x-1)(x-α)(x-α²); used to state
that stored words are code words (R260, R263). -/
def rsCheck (w poly : Nat) (info : List Nat) : List Nat :=
  -- g(x) = x^3 + g2 x^2 + g1 x + g0 with roots 1, α, α²
  let mulA := fun x => gfX w poly x
  let mulA2 := fun x => mulA (mulA x)
  -- g2 = 1 + α + α², g1 = α + α² + α³, g0 = α³
  let m2 := fun x => Nat.xor x (Nat.xor (mulA x) (mulA2 x))
  let m1 := fun x => Nat.xor (mulA x) (Nat.xor (mulA2 x) (mulA (mulA2 x)))
  let m0 := fun x => mulA (mulA2 x)
  let r := info.foldl (fun (r : Nat × Nat × Nat) d =>
    let f := Nat.xor r.1 d
    (Nat.xor r.2.1 (m2 f), Nat.xor r.2.2 (m1 f), m0 f)) (0, 0, 0)
  [r.1, r.2.1, r.2.2]

end Sys2Proof.Machine
end

