-- ==== Sys2Proof/Machine/Stored.lean ====
section
/-! DEFINITION. What the pool's sectors hold: region bytes as written, and the controller's own tables, which lie in the pool
and are held as typed fields of State (R12, R13, R30, R60 to R62, R64, R221, R239, Tables 01-2, 01-3, 03-5). -/

namespace Sys2Proof.Machine

/-- A flag as a number. -/
def b2n (b : Bool) : Nat := if b then 1 else 0

/-- The region record of Table 01-3. -/
def Region.record (r : Region) (rid : Nat) : Nat :=
  at_ r.version.toNat 64 448 + at_ r.extent 32 416 + at_ r.size 28 388 + at_ r.pl.dcMask 16 368 + at_ r.pl.stkMask 12 356
  + at_ r.pl.qtrMask 4 352 + at_ r.pl.tier 2 350 + at_ r.policy 2 348 + at_ (b2n r.mirror) 1 347 + at_ r.pl.grain 2 345
  + at_ (b2n r.pl.xorHash) 1 344 + at_ r.part 6 338 + at_ r.mapCount 13 320 + at_ rid 20 300 + at_ r.st 2 298
  + at_ (b2n r.writeHold) 1 297 + at_ (b2n r.degraded) 1 296 + at_ r.createTime.toNat 64 192

/-- A directory entry as its 16 bytes (Table 03-5). -/
def DirEnt.word (e : DirEnt) : Nat :=
  let st := match e.st with
    | .ds => 1
    | .de => 2
    | .dO => 3
  let ptr := fun (i : Nat) => match e.ptrs.getD i none with
    | some a => 4096 + a % 4096
    | none => 0
  at_ e.gran 37 91 + at_ st 3 88 + at_ (b2n e.coarse) 1 87 + at_ (b2n e.owner.isSome) 1 86 + at_ (e.owner.getD 0) 12 74
  + (if e.coarse then e.bits.toNat
     else at_ (ptr 3) 13 39 + at_ (ptr 2) 13 26 + at_ (ptr 1) 13 13 + at_ (ptr 0) 13 0)
/-- The entries of a bucket. -/
def State.bucket (s : State) (h b : Nat) : List DirEnt := s.coh.dir.filter (fun e => e.hub == h && e.bucket == b)
/-- A bucket's eight entries, slot by slot. -/
def State.bucketWords (s : State) (h b : Nat) : List Nat :=
  (List.range 8).map (fun i => match (s.bucket h b).find? (fun e => e.slot == i) with
    | some e => e.word
    | none => 0)
/-- The hub and bucket whose 128 bytes hold a PPA of a directory slice (R61). -/
def State.bucketAt (s : State) (ppa : Nat) : Nat × Nat :=
  let n := ppa / 0x01200000000
  let h := n / 6
  let st := s.hubStacks h
  let k := (ppa % 0x01200000000 - (0x011C0000000 - s.dirSlice)) / 128
  (h, k * st.length + st.findIdx (· == n))

/-- Entry `k` of the chunk-list area: the extents' lists, one behind the other in ascending extent id (log 77). -/
def listEntry : Tab Extent → Nat → Nat
  | [], _ => 0
  | (_, e) :: r, k => if k < e.chunks.length then e.chunks.getD k 0 else listEntry r (k - e.chunks.length)
/-- Where an extent's list starts in the chunk-list area. -/
def listStart (t : Tab Extent) (id : Nat) : Nat :=
  ((t.filter (fun (e : Nat × Extent) => e.1 < id)).map (fun (e : Nat × Extent) => e.2.chunks.length)).sum
/-- An extent header of 16 bytes: the list's start [31:0] and the member count [63:32] (R13, log 77). -/
def State.extentHeader (s : State) (id : Nat) : Nat :=
  match s.extents.at? id with
  | some e => listStart s.extents id + at_ (s.members e.pl).length 32 32
  | none => 0
/-- Bytes of a list from a place on, zeros past its end. -/
def bytesFrom (l : List Byte) (o n : Nat) : List Byte := (List.range n).map (fun i => l.getD (o + i) 0)
/-- What a port's training record covers with its CRC (R176, log 77). -/
def PortRecord.body (r : PortRecord) : List Byte :=
  leBytes 8 r.serial ++ leBytes 1 r.port ++ leBytes 1 r.mode ++ leBytes 2 r.format
    ++ r.settings.flatMap (fun x => leBytes 1 x.1 ++ leBytes 7 x.2)
/-- What a memory training record covers with its CRC (R256, log 77). -/
def MemRecord.body (r : MemRecord) : List Byte :=
  leBytes 2 r.unit ++ leBytes 2 r.format ++ leBytes 8 r.settings ++ r.serials.flatMap (leBytes 8)
/-- The 256 bytes at place `k` of the training-record area: port `k` below 96, then stack `n` at 96 + `n`, DDR5 channel `n` at
112 + `n` (log 77). -/
def State.recordAt (s : State) (k : Nat) : List Byte :=
  if k < 96 then
    match (s.ports.at? k).bind (·.record) with
    | some r => leBytes 4 r.crc ++ r.body
    | none => []
  else
    match s.pool.memRecords.find? (fun r => r.unit == (if k < 112 then k - 96 else 0x8000 + (k - 112))) with
    | some r => leBytes 4 r.crc ++ r.body
    | none => []
/-- The 64 bytes at offset `o` of the caddy (Table 01-2); bytes of areas whose layout no rule gives are free values (log 77). -/
def State.caddySector (s : State) (o : Nat) : List Byte :=
  let free := (List.range 64).map (fun i => Config.areaByte (s.variant.caddy + o + i))
  if o < 0x04000000 then
    match s.regions.at? (o / 64) with
    | some r => leBytes 64 (r.record (o / 64))
    | none => List.replicate 64 0
  else if o < 0x08000000 then
    (List.range 4).flatMap (fun i => leBytes 16 (s.extentHeader ((o - 0x04000000) / 16 + i)))
  else if o < 0x30000000 then
    (List.range 16).flatMap (fun i => leBytes 4 (listEntry s.extents ((o - 0x08000000) / 4 + i)))
  else if o < 0x32000000 then free
  else if o < 0x36000000 then bytesFrom (s.mpc.dump.getD []) (o - 0x32000000) 64
  else if o < 0x36008000 then bytesFrom (s.recordAt ((o - 0x36000000) / 256)) (o % 256) 64
  else if 0x37000000 ≤ o && o < 0x3A000000 then s.fw.caddy.mem.read (o - 0x37000000) 64
  else free
/-- The 64 data bytes of a sector as its unit stores them (R13, R30, R62, R64, R221). -/
def State.stored (s : State) (sec : Nat) : List Byte :=
  if s.inCaddy sec then s.caddySector (sec - s.variant.caddy)
  else if s.inDir sec then
    let (h, b) := s.bucketAt sec
    ((s.bucketWords h b).drop (sec % 128 / 16)).take 4 |>.flatMap (leBytes 16)
  else
    match s.tables.at? (sec / 4096), s.chunks.at? (sec / 65536) with
    | some t, _ => (List.range 8).flatMap (fun i => leBytes 8 (t.ents.or (sec % 4096 / 8 + i) 0).toNat)
    | none, some (.ranks c) =>
      (List.range 16).flatMap (fun i =>
        leBytes 4 (((s.ctxs.at? c).map (fun (x : Context) => x.ranks)).getD [] |>.or (sec % 65536 / 4 + i) 0).toNat)
    | _, _ => s.pool.mem.read sec 64

end Sys2Proof.Machine
end

