-- ==== Sys2Proof/Machine/MemPath.lean ====
section
/-! DEFINITION. Reading and writing sectors: kettle, tier cache, unit queues, stored sectors, freezes (R240 to R271). -/

namespace Sys2Proof.Machine

/-- Changes the pool. -/
def State.updPool (s : State) (f : Pool → Pool) : State := { s with pool := f s.pool }
/-- Whether a sector lies on a unit whose unlisted sectors are poisoned (R253, mode POISON). -/
def State.allPoison (s : State) (sec : Nat) : Bool := (ppaWindow sec).any (fun u => (s.unit u).poisonAll)
/-- Whether a sector was poisoned by a spare copy in mode POISON and has not been written since. -/
def State.poisoned0 (s : State) (sec : Nat) : Bool := !s.pool.smeta.has sec && s.allPoison sec
/-- The metadata of a sector. -/
def State.meta (s : State) (sec : Nat) : SectorMeta := (s.pool.smeta.at? sec).getD { poison := s.allPoison sec }
/-- Sets the metadata of a sector; the all-clear metadata is not listed, but on a unit poisoned whole. -/
def State.setMeta (s : State) (sec : Nat) (m : SectorMeta) : State :=
  s.updPool (fun p => { p with smeta := if m = {} && !s.allPoison sec then p.smeta.del sec else p.smeta.put sec m })
/-- The remote-copy bit that the home determines for a sector: its granule has a directory entry (R66). -/
def State.remoteBit (s : State) (sec : Nat) : Bool := s.coh.dir.any (fun e => e.gran == sec / 128)
/-- Sets the remote-copy bit of both sectors of a granule (R66). -/
def State.setRemote (s : State) (gran : Nat) (b : Bool) : State :=
  [gran * 128, gran * 128 + 64].foldl (fun s a => s.setMeta a { s.meta a with remote := b }) s

/-! Row activates (R246, R247, R291). -/

/-- Replaces the entry of lowest count, lowest slot on a tie, by row `x` with that count plus 1 (R246). -/
def actReplace (t : List (Nat × Nat)) (x : Nat) : List (Nat × Nat) :=
  let lo := t.foldl (fun m e => min m e.2) (t.headD (0, 0)).2
  let i := t.findIdx (fun e => e.2 == lo)
  t.set i (x, lo + 1)
/-- An activate of row `x` in a bank's activate table (R246). -/
def actRow (t : List (Nat × Nat)) (x : Nat) : List (Nat × Nat) :=
  if t.any (fun e => e.1 == x) then t.map (fun e => if e.1 = x then (e.1, e.2 + 1) else e)
  else if t.length < 32 then t ++ [(x, 1)]
  else actReplace t x
/-- The rows that a neighbour refresh of row `x` refreshes (R246). -/
def neighbourRows (rows x : Nat) : List Nat :=
  (if 2 ≤ x then [x - 2] else []) ++ (if 1 ≤ x then [x - 1] else [])
    ++ (if x + 1 < rows then [x + 1] else []) ++ (if x + 2 < rows then [x + 2] else [])

/-- Whether a partition is in strict mode as the slot scheduler knows it (R283). -/
def State.strictNow (s : State) (p : Nat) : Bool := (s.part? p).any (fun q => q.mode == 1)
/-- The strict partitions that own a slot of a group (R291, R292). -/
def State.strictParts (s : State) (g : Nat) : List Nat :=
  (((s.group g).active.filter (fun e => e.2 / 64 == 1 && s.strictNow (e.2 % 64))).map (fun e => e.2 % 64)).dedup
/-- Whether a group holds a slot of a strict partition (R291). -/
def State.strictGroup (s : State) (g : Nat) : Bool := !(s.strictParts g).isEmpty
/-- The last four commands, newest first: command, bank, row and AON time (Table 10-4; codes 1 ACT, 2 RD, 3 WR, 4 PRE, 5 REF, 6 to 8
neighbour refreshes: log 9). -/
def MemUnit.cmd (m : MemUnit) (code bank row aon : Nat) : MemUnit :=
  { m with cmds := ((aon * 2 ^ 32 + code * 2 ^ 24 + bank % 256 * 2 ^ 16 + row % 65536) :: m.cmds).take 4 }
/-- Rows of a bank of a unit: 18,432 in a slice (R236), and as many as the DIMM's size gives (R237). -/
def State.bankRows (s : State) (u bank : Nat) : Nat :=
  if u < 768 then 18432
  else
    match s.dimm? (u - 0x8000) (bank / 4096) with
    | some d => d.gib * 2 ^ 30 / (d.ranks * d.bg * d.ba * (d.cols * 8))
    | none => 0
/-- The commands of a neighbour refresh of row `x` (R246, R247, Table 10-6): a refresh of each neighbouring row, code 6; on a
DIMM one directed refresh-management command, code 7, where it supports that, else two refresh-management commands, code 8. The
bank's open row is closed. -/
def State.neighbourCmds (s : State) (u bank x : Nat) (m : MemUnit) : MemUnit :=
  let m := { m with openRow := m.openRow.del bank }
  if u < 768 then (neighbourRows (s.bankRows u bank) x).foldl (fun m r => m.cmd 6 (keyCode bank) r s.clock.aon) m
  else if (s.dimm? (u - 0x8000) (bank / 4096)).any (·.drfm) then m.cmd 7 (keyCode bank) x s.clock.aon
  else (m.cmd 8 (keyCode bank) x s.clock.aon).cmd 8 (keyCode bank) x s.clock.aon
/-- A neighbour refresh of row `x` of a bank (R246, R247). -/
def State.neighbourRefresh (s : State) (u bank x : Nat) : State :=
  let code := keyCode bank
  let s := s.updUnit u (fun m => s.neighbourCmds u bank x
    { m with neigh := m.neigh.upd bank 0 (· + 1), neighTotal := m.neighTotal + 1 })
  let m := s.unit u
  if 64 < m.neigh.or bank 0 && !m.storm.contains bank then
    (s.updUnit u (fun m => { m with storm := bank :: m.storm })).postFm
      { typ := 0x19, obj := u, body := code + at_ (sat 32 (m.neigh.or bank 0)) 32 32 }
  else s
/-- Opens a row of a bank and counts the activate (R246); in a group with strict slots the neighbour refresh waits for a
guard (R291). -/
def State.activate (s : State) (u : Nat) (l : Loc) : State :=
  let thr := bfld (s.group (unitGroup u)).word 33 19
  let t := actRow ((s.unit u).act.or l.bankKey []) l.row
  let hot := t.any (fun e => e.1 == l.row && thr ≤ e.2)
  let strict := s.strictGroup (unitGroup u)
  let t' := if hot && !strict then t.map (fun e => if e.1 = l.row then (e.1, 0) else e) else t
  let s := s.updUnit u (fun m => ({ m with
    openRow := m.openRow.put l.bankKey l.row, act := m.act.put l.bankKey t',
    due := if hot && strict && !m.due.contains (l.bankKey, l.row) then m.due ++ [(l.bankKey, l.row)] else m.due }
      : MemUnit).cmd 1 l.bankCode l.row s.clock.aon)
  if hot && !strict then s.neighbourRefresh u l.bankKey l.row else s

/-! Unit queues. -/

/-- Whether the bytes at a PPA are absent: unit, stack id or bank (R254, R274). -/
def State.absentAt (s : State) (u ppa : Nat) : Bool :=
  let m := s.unit u
  let l := s.locate ppa
  m.absent || m.absentIds.contains l.sid || s.pool.retired.contains (.bank u l.sid l.bg l.bank)
/-- Why a unit does not serve a PPA (R248, R254). -/
def State.denied (s : State) (u ppa : Nat) : Option Status :=
  if s.absentAt u ppa then some .poison
  else if (s.unit u).frozen.isSome then some .pcFrozen
  else none
/-- Poisoned data of a unit that does not serve (R248, R254); its bits are free values (log 5). -/
def deniedSector (ppa : Nat) (st : Status) : Sector :=
  { data := (List.range 64).map (fun i => Config.garbled ppa (2 ^ 576) i), poison := true, st }

/-- The armed flip mask falls on a sector that its target has just written, and disarms (R278). -/
def State.fireFlip (s : State) (u sec : Nat) (tag : Option Nat) : State :=
  match s.pool.flip.filter (fun f => f.1 == u) with
  | some (_, mask) =>
    (((s.setMeta sec { s.meta sec with flip := mask }).updPool (fun p => { p with flip := none })).log 8 u sec 1 0 [] tag).postFm
      { typ := 0x1B, obj := u, body := sec }
  | none => s
/-- Stores a sector with its metadata, and with the armed flip mask if this unit is its target. -/
def State.store (s : State) (u : Nat) (e : QEntry) (md : SectorMeta) : State :=
  ((s.updPool (fun p => { p with mem := (p.mem.clear e.sector 64).write e.sector e.bytes })).setMeta e.sector md).fireFlip u e.sector
    (if e.tag = 0x10000 then none else some e.tag)
/-- Stores a queued write. -/
def State.commitWrite (s : State) (u : Nat) (e : QEntry) : State :=
  s.store u e { poison := e.poison, remote := s.remoteBit e.sector }

/-! Freezing (R248 to R250). -/

/-- The partitions of a list of regions, each once. -/
def State.partsOf (s : State) (rs : List Nat) : List Nat :=
  ((rs.filterMap (fun r => (s.region? r).map (·.part))).dedup)
/-- Regions of a list that belong to a partition. -/
def State.ofPart (s : State) (rs : List Nat) (p : Nat) : List Nat :=
  rs.filter (fun r => (s.region? r).any (fun x => x.part == p))
/-- Sets `DEGRADED` on regions (R22). -/
def State.degrade (s : State) (rs : List Nat) : State :=
  rs.foldl (fun s r => s.modRegion r (fun x => { x with degraded := true })) s
/-- `CAUSE_OUTSIDE` to each partition with a region on a unit (R306). -/
def State.outside (s : State) (num cause : Nat) (rs : List Nat) : State :=
  s.postParts (s.partsOf rs) (fun p => causeOutside num cause (s.ofPart rs p) 0)
/-- The worse of two statuses of memory accesses, in the order of R266. -/
def worse (x y : Status) : Status :=
  if x == .pcFrozen || y == .pcFrozen then .pcFrozen
  else if x == .lineLost || y == .lineLost then .lineLost
  else if x == .poison || y == .poison then .poison
  else if x == .ok then y else x
/-- Queued requests of a unit that freezes or becomes absent are answered with its status (R248, R254): a write's descriptor and its
join take it; what waits for a read finds the unit frozen or absent and reads poisoned data. -/
def State.answerDenied (s : State) (st : Status) (es : List QEntry) : State :=
  es.foldl (fun s e =>
    if !e.write then s
    else
      let s := match e.desc with
        | some (q, i) => s.modDesc q i (fun d => { d with status := worse d.status st })
        | none => s
      { s with coh := { s.coh with joins := s.coh.joins.mod e.join (fun j => { j with status := worse j.status st }) } }) s
/-- A unit freezes (R248), or counts a further error (R249). `first` is the access that exposed the cause. -/
def State.freeze (s : State) (u cause ppa : Nat) (synd : List Nat) (first : Option QEntry) (tag : Option Nat) : State :=
  let m := s.unit u
  match m.frozen with
  | some f => s.updUnit u (fun m => { m with frozen := some { f with later := sat 16 (f.later + 1) } })
  | none =>
    let snap : Snapshot := { cause, failPpa := ppa / 64 * 64, time := s.clock.base, synd, rq := (first.toList.filter (fun e => !e.write) ++ m.rq).take 128,
                             wq := (first.toList.filter (·.write) ++ m.wq).take 64, temp := m.temp, cmds := m.cmds.map (fun c => c % 2 ^ 32 + (s.clock.aon - c / 2 ^ 32) * 2 ^ 32) }
    let s := s.respond? (m.bankMove.map (·.2)) { status := .pcFrozen }
    let s := s.updUnit u (fun m => { m with frozen := some snap, rq := [], wq := [], sparing := none, bankMove := none, last := none })
    let s := s.answerDenied .pcFrozen (first.toList ++ m.wq)
    let rs := s.regionsOn u
    let s := (s.degrade rs).log (cause + 2) u ppa 1 0 synd tag
    let s := s.postFm { typ := 0x18, obj := u, status := 0x0301, body := cause + at_ (ppa / 64 * 64) 64 64 }
    s.outside u 1 rs

/-- A corrected error is counted and logged (R262, R276). -/
def State.corrected (s : State) (u sec sym : Nat) (synd : List Nat) (tag : Option Nat) : State :=
  let b := (s.locate sec).bankKey
  let m := s.unit u
  if !m.ceBanks.contains b then
    (s.log 1 u sec 1 sym synd tag).updUnit u (fun m => { m with ceBanks := b :: m.ceBanks, ceCount := m.ceCount.put b 0 })
  else if 63 ≤ m.ceCount.or b 0 then
    (s.log 2 u sec 64 0 synd tag).updUnit u (fun m => { m with ceCount := m.ceCount.put b 0 })
  else s.updUnit u (fun m => { m with ceCount := m.ceCount.upd b 0 (· + 1) })

/-- The tag of an access, for records: none where it works for no context. -/
def Acc.tag? (a : Acc) : Option Nat := if a.part < 64 && a.tag < 0x10000 then some a.tag else none

/-- The key that a sector is encrypted under in the capacity tier (R390): that of the partition that owns its chunk, or none for the
controller's own. -/
def State.keyAt (s : State) (sec : Nat) : Option Nat :=
  match s.chunks.at? (sec / 65536) with
  | some (.extent id) => ((s.extents.at? id).bind (fun e => s.part? e.part)).map (·.key)
  | _ => none
/-- Decodes the stored sector of a unit (R262); the data of a sector poisoned with its whole unit are free values (log 5). -/
def State.decodeAt (s : State) (u sec : Nat) : Decoded :=
  if s.poisoned0 sec then { out := 0, sec := deniedSector sec .poison }
  else decodeSector (768 ≤ u) (s.keyAt sec) sec (s.stored sec) (s.meta sec)
/-- The units that enter self-refresh together: those of a stack, or a channel. -/
def refreshUnits (u : Nat) : List Nat :=
  if u < 768 then (List.range 64).map (fun i => u / 64 * 64 + i) else [u]
/-- A memory unit wakes, with its whole stack from self-refresh; a request that meets a sleeping unit waits for it (R420). -/
def State.wakeUnit (s : State) (u : Nat) : State :=
  if (s.unit u).power = 0 then s
  else if (s.unit u).power = 2 then (refreshUnits u).foldl (fun s x => s.updUnit x (fun m => { m with power := 0 })) s
  else s.updUnit u (fun m => { m with power := 0 })
/-- Opens a request's row if need be and gives its read or write command. -/
def State.command_ (s : State) (u : Nat) (e : QEntry) : State :=
  let s := s.wakeUnit u
  let l := s.locate e.sector
  let s := if (s.unit u).openRow.at? l.bankKey = some l.row then s else s.activate u l
  s.updUnit u (fun m => { m.cmd (if e.write then 3 else 2) l.bankCode l.row s.clock.aon with last := some e })
/-- Reads a request's sector: it decodes clean, corrected, or the unit freezes (R262). -/
def State.issueRead (s : State) (u : Nat) (e : QEntry) : Sector × State :=
  let s := s.command_ u e
  let d := s.decodeAt u e.sector
  let tag := if e.part < 64 && e.tag < 0x10000 then some e.tag else none
  if d.out = 2 then (deniedSector e.sector .pcFrozen, s.freeze u 1 e.sector d.synd (some e) tag)
  else (d.sec, if d.out = 1 then s.corrected u e.sector d.sym d.synd tag else s)
/-- Issues a request: a write's bytes are stored, a read's sector is decoded. -/
def State.issue (s : State) (u : Nat) (e : QEntry) : State :=
  if e.write then (s.command_ u e).commitWrite u e else (s.issueRead u e).2

/-! Entering a queue (R241). -/

/-- A queue entry for an access. -/
def State.entry (s : State) (sec : Nat) (a : Acc) : QEntry :=
  { sector := sec, cls := a.cls, tag := a.tag, part := a.part, time := s.clock.base, aon := s.clock.aon, write := false,
    desc := a.desc, join := a.join, txn := a.txn }
/-- The part of a unit's queues that a partition's requests use: its own where it is strict there, else the shared part 64
(R292). -/
def State.queuePart (s : State) (u part : Nat) : Nat := if (s.strictParts (unitGroup u)).contains part then part else 64
/-- The entries of a part: of 128 read entries and 64 write entries, 32 and 16 for each strict partition (R241, R292). -/
def State.queueRoom (s : State) (u key : Nat) (write : Bool) : Nat :=
  let n := (s.strictParts (unitGroup u)).length
  if key < 64 then (if write then 16 else 32) else if write then 64 - 16 * n else 128 - 32 * n
/-- A request of a partition that owns no slot of the unit's group can only be spare-served (R109, R290). -/
def State.spareMark (s : State) (u : Nat) (e : QEntry) : State :=
  match e.desc with
  | some (q, i) =>
    if (s.group (unitGroup u)).active.any (fun x => x.2 == 64 + e.part) then s
    else s.modDesc q i (fun d => if d.wait = 0 then { d with wait := 1 } else d)
  | none => s
/-- Takes a request out of its queue and issues it. -/
def State.issueQueued (s : State) (u : Nat) (e : QEntry) : State :=
  ((s.updUnit u (fun m => if e.write then { m with wq := m.wq.erase e } else { m with rq := m.rq.erase e })).spareMark u e).issue u e
/-- Issues the oldest request of a full part; a write's sector is written in arrival order, whichever part its earlier writes
wait in (R243). -/
def State.makeRoom (s : State) (u : Nat) (write : Bool) (part : Nat) : State :=
  let m := s.unit u
  let key := s.queuePart u part
  let q := if write then m.wq else m.rq
  let mine := q.filter (fun e => s.queuePart u e.part == key)
  match mine with
  | e :: _ =>
    if s.queueRoom u key write ≤ mine.length then
      let before := if write then (m.wq.takeWhile (fun x => x != e)).filter (fun x => x.sector == e.sector) else []
      (before ++ [e]).foldl (fun s x => s.issueQueued u x) s
    else s
  | [] => s
/-- Whether a request still waits in a unit's queue for a transaction, a join or a descriptor. -/
def State.queuedFor (s : State) (f : QEntry → Bool) : Bool := s.pool.units.any (fun u => u.2.rq.any f || u.2.wq.any f)
/-- Queues a sector write (R241); a frozen or absent unit discards it (R248, R254). -/
def State.pushWrite (s : State) (u sec : Nat) (data : List Byte) (poison : Bool) (a : Acc) : State :=
  if (s.denied u sec).isSome then s
  else
    let s := s.makeRoom u true a.part
    let e := { s.entry sec a with write := true, bytes := data, poison }
    s.updUnit u (fun m => { m with wq := m.wq ++ [e] })
/-- Issues every queued write of a unit. -/
def State.drainUnit (s : State) (u : Nat) : State :=
  let w := (s.unit u).wq
  w.foldl (fun s e => s.issue u e) (s.updUnit u (fun m => { m with wq := [] }))

/-- Queues a read of a sector for a transaction or a descriptor (R241); a sector with a queued write needs none (R243). -/
def State.request (s : State) (u sec : Nat) (a : Acc) : State :=
  if (s.denied u sec).isSome || (s.unit u).wq.any (fun e => e.sector == sec) then s
  else
    let s := s.makeRoom u false a.part
    if (s.denied u sec).isSome then s else s.updUnit u (fun m => { m with rq := m.rq ++ [s.entry sec a] })
/-- Reads a sector from its unit (R243, R262): the newest queued write of it, else the decoded stored sector. A read that was
queued before (`served`) has been issued and counted; any other read, the controller's own, takes a place in the queue and is
issued in the same step (log 31). -/
def State.fetch (s : State) (u sec : Nat) (a : Acc) : Sector × State :=
  match s.denied u sec with
  | some st => (deniedSector sec st, s)
  | none =>
    match (s.unit u).wq.reverse.find? (fun e => e.sector == sec) with
    | some e => ({ data := e.bytes, poison := e.poison, remote := s.remoteBit sec, st := secStatus e.bytes e.poison }, s)
    | none =>
      if a.served then
        let d := s.decodeAt u sec
        if d.out = 2 then (deniedSector sec .pcFrozen, s.freeze u 1 sec d.synd (some (s.entry sec a)) a.tag?) else (d.sec, s)
      else
        let s := s.makeRoom u false a.part
        match s.denied u sec with
        | some st => (deniedSector sec st, s)
        | none => s.issueRead u (s.entry sec a)

/-! The tier cache (R257, R258). -/

/-- The line of a capacity-tier sector that a tier cache holds. -/
def State.tierLine (s : State) (sec : Nat) : Option TierLine := s.pool.tier.find? (fun l => l.line == sec / 1024)
/-- The place of a sector in its line. -/
def tierIdx (sec : Nat) : Nat := sec % 1024 / 64
/-- Whether the tier cache holds a sector. -/
def State.tierHit (s : State) (sec : Nat) : Bool := (s.tierLine sec).any (fun l => l.valid.getLsbD (tierIdx sec))
/-- Writes back a line's dirty sectors, with their poison. -/
def State.writeBackLine (s : State) (l : TierLine) : State :=
  (bitsOf l.dirty.toNat 16).foldl (fun s i =>
    let sec := l.line * 1024 + 64 * i
    match s.unitOf sec with
    | some u => s.pushWrite u sec (l.bytes.read sec 64) (l.poison.getLsbD i) { cls := 1 }
    | none => s) s
/-- The set of a tier-cache line: its line number modulo 6,144 (log 10). -/
def tierSet (line : Nat) : Nat := line % 6144
/-- Lines of the same hub and set as a line. -/
def State.tierWays (s : State) (line : Nat) : List TierLine :=
  s.pool.tier.filter (fun l => tierSet l.line == tierSet line && granHub (l.line * 8) == granHub (line * 8))
/-- Whether a line may be evicted: not pinned, and not a dirty line of a frozen channel (R257, R258). -/
def State.evictable (s : State) (l : TierLine) : Bool :=
  !l.pinned && !(l.dirty != 0 && (s.unitOf (l.line * 1024)).any (fun u => (s.unit u).frozen.isSome))
/-- Makes a line the most recently used; the least recently used evictable line of a full set is written back and dropped.
None when the set has no way to give. -/
def State.tierPut (s : State) (l : TierLine) : Option State :=
  let rest := s.pool.tier.filter (fun x => x.line != l.line)
  let s0 := s.updPool (fun p => { p with tier := rest })
  let ways := s0.tierWays l.line
  let add := fun (s : State) => s.updPool (fun p => { p with tier := l :: p.tier })
  if ways.length < 16 then some (add s0)
  else
    match ways.reverse.find? s.evictable with
    | none => none
    | some v =>
      some (add ((s0.writeBackLine v).updPool (fun p => { p with tier := p.tier.filter (fun x => x.line != v.line) })))
/-- A sector set in a line. -/
def TierLine.setSector (l : TierLine) (sec : Nat) (data : List Byte) (poison dirty : Bool) : TierLine :=
  let m : BitVec 16 := 1#16 <<< tierIdx sec
  { l with valid := l.valid ||| m, dirty := if dirty then l.dirty ||| m else l.dirty &&& ~~~m,
           poison := if poison then l.poison ||| m else l.poison &&& ~~~m,
           bytes := (l.bytes.clear sec 64).write sec data }
/-- The sectors of a line in the order of a fill: the requested one first (R257). -/
def fillOrder (i : Nat) : List Nat := i :: (List.range 16).filter (fun k => k != i)
/-- Whether a line that is to be allocated finds no way because the only ways that are not pinned hold dirty lines of a frozen
channel (R258). -/
def State.tierStuck (s : State) (line : Nat) : Bool :=
  let ways := (s.tierWays line).filter (fun l => l.line != line)
  decide (16 ≤ ways.length) && !ways.any s.evictable && ways.any (fun l => !l.pinned)
/-- Fills a line's missing sectors from the channel, sector `i` of the line first. -/
def State.tierFill (s : State) (u line i : Nat) (a : Acc) : State × TierLine :=
  let l := (s.tierLine (line * 1024)).getD { line }
  (fillOrder i).foldl (fun (r : State × TierLine) i =>
    let sec := line * 1024 + 64 * i
    if r.2.valid.getLsbD i then r
    else
      let (x, s') := r.1.fetch u sec a
      if x.st == .pcFrozen || (s'.denied u sec).isSome then (s', r.2)
      else (s', r.2.setSector sec x.data x.poison false)) (s, l)
/-- The sector as a line holds it. -/
def TierLine.sector (l : TierLine) (sec : Nat) : Sector :=
  let d := l.bytes.read sec 64
  let p := l.poison.getLsbD (tierIdx sec)
  { data := d, poison := p, st := secStatus d p }

/-- Reads a sector below the kettle: the tier cache for the capacity tier (R257), else the unit. A miss that would evict a
frozen channel's dirty line is answered as a frozen unit answers (R258); one whose set holds only pinned lines is served past the
cache. -/
def State.readBelow (s : State) (sec : Nat) (a : Acc) : Sector × State :=
  match s.unitOf sec with
  | none => ({ deniedSector sec .faultUnmapped with st := .faultUnmapped }, s)
  | some u =>
    if u < 768 then s.fetch u sec a
    else
      match s.tierLine sec with
      | some l =>
        if s.absentAt u sec then s.fetch u sec a
        else if l.valid.getLsbD (tierIdx sec) then
          ({ l.sector sec with remote := s.remoteBit sec }, (s.tierPut l).getD s)
        else
          let (s', l) := s.tierFill u (sec / 1024) (tierIdx sec) a
          (if l.valid.getLsbD (tierIdx sec) then { l.sector sec with remote := s.remoteBit sec }
           else deniedSector sec .pcFrozen, (s'.tierPut l).getD s')
      | none =>
        if a.cold || (s.denied u sec).isSome then s.fetch u sec a
        else if s.tierStuck (sec / 1024) then (deniedSector sec .pcFrozen, s)
        else
          let (s', l) := s.tierFill u (sec / 1024) (tierIdx sec) a
          if l.valid.getLsbD (tierIdx sec) then
            ({ l.sector sec with remote := s.remoteBit sec }, (s'.tierPut l).getD s')
          else (deniedSector sec .pcFrozen, s')
/-- Queues the reads that a sector's read will need below the kettle: its unit's sector, or the missing sectors of its tier-cache
line, the requested one first (R241, R257). -/
def State.requestBelow (s : State) (sec : Nat) (a : Acc) : State :=
  match s.unitOf sec with
  | none => s
  | some u =>
    let l := s.tierLine sec
    if u < 768 || (a.cold && l.isNone) then s.request u sec a
    else if l.any (fun l => l.valid.getLsbD (tierIdx sec)) then s
    else (fillOrder (tierIdx sec)).foldl (fun s i =>
      if l.any (fun l => l.valid.getLsbD i) then s else s.request u (sec / 1024 * 1024 + 64 * i) a) s
/-- Writes a whole sector below the kettle. A sector whose line finds no way is written past the tier cache, or refused (R258). -/
def State.writeBelow (s : State) (sec : Nat) (data : List Byte) (poison : Bool) (a : Acc) : Status × State :=
  match s.unitOf sec with
  | none => (.faultUnmapped, s)
  | some u =>
    if u < 768 then
      match s.denied u sec with
      | some st => (st, s)
      | none => (.ok, s.pushWrite u sec data poison a)
    else if s.absentAt u sec then (.poison, s)
    else
      match s.tierLine sec with
      | some l => (.ok, (s.tierPut (l.setSector sec data poison true)).getD s)
      | none =>
        match s.denied u sec with
        | some st => (st, s)
        | none =>
          if a.cold then (.ok, s.pushWrite u sec data poison a)
          else if s.tierStuck (sec / 1024) then (.pcFrozen, s)
          else
            match s.tierPut (({ line := sec / 1024 } : TierLine).setSector sec data poison true) with
            | some s' => (.ok, s')
            | none => (.ok, s.pushWrite u sec data poison a)

/-! The kettle (R267 to R269). -/

/-- The entry of a sector. -/
def State.kettleAt (s : State) (sec : Nat) : Option KettleEnt := s.pool.kettle.find? (fun e => e.sector == sec)
/-- A byte list with the bytes of an entry laid over it. -/
def overlayBytes (data : List Byte) (bs : List (Nat × Byte)) : List Byte := bs.foldl (fun d b => d.set b.1 b.2) data
/-- Flushes an entry: a whole-sector write when full, otherwise a read-modify-write (R268). -/
def State.kettleFlush (s : State) (e : KettleEnt) : State :=
  let s := s.updPool (fun p => { p with kettle := p.kettle.filter (fun x => x.sector != e.sector) })
  let a : Acc := { cls := 3, part := e.part, tag := 0x10000 }
  if e.bytes.length = 64 then (s.writeBelow e.sector (overlayBytes (List.replicate 64 0) e.bytes) e.poison a).2
  else
    let (x, s) := s.readBelow e.sector a
    if x.st == .pcFrozen || ((s.unitOf e.sector).any (fun u => s.absentAt u e.sector)) then s
    else (s.writeBelow e.sector (overlayBytes x.data e.bytes) (x.poison || e.poison) a).2
/-- Flushes a sector's entry, if it has one. -/
def State.kettleForce (s : State) (sec : Nat) : State :=
  match s.kettleAt sec with
  | some e => s.kettleFlush e
  | none => s
/-- Bytes merged into an entry, later ones standing. -/
def mergeBytes (old new : List (Nat × Byte)) : List (Nat × Byte) :=
  old.filter (fun b => !new.any (fun c => c.1 == b.1)) ++ new
/-- Whether a write to a sector is refused: absent, or frozen and not held by the tier cache (R248, R254, R258). -/
def State.writeDenied (s : State) (sec : Nat) : Option Status :=
  match s.unitOf sec with
  | none => some .faultUnmapped
  | some u => if 768 ≤ u && s.tierHit sec && !s.absentAt u sec then none else s.denied u sec
/-- A write of some bytes of a sector, by index, through the kettle (R267). -/
def State.kettleWrite (s : State) (sec : Nat) (bs : List (Nat × Byte)) (poison : Bool) (a : Acc) : Status × State :=
  match s.writeDenied sec with
  | some st => (st, s)
  | none =>
    match s.kettleAt sec with
    | some e =>
      let e' := { e with bytes := mergeBytes e.bytes bs, poison := e.poison || poison }
      let e' := if bs.length = 64 then { e' with poison } else e'
      if e'.bytes.length = 64 then (.ok, s.kettleFlush e')
      else (.ok, s.updPool (fun p => { p with kettle := p.kettle.map (fun x => if x.sector = sec then e' else x) }))
    | none =>
      let hub := granHub (sec / 128)
      let mine := s.pool.kettle.filter (fun x => granHub (x.sector / 128) == hub)
      let s := if 512 ≤ mine.length then (match mine with | o :: _ => s.kettleFlush o | [] => s) else s
      (.ok, s.updPool (fun p => { p with kettle := p.kettle ++ [{ sector := sec, bytes := bs, poison, part := a.part }] }))

/-- Reads a sector with the kettle's bytes laid over it (R269). -/
def State.readSector (s : State) (sec : Nat) (a : Acc) : Sector × State :=
  let (x, s') := s.readBelow sec a
  match s.kettleAt sec with
  | some e =>
    if x.st == .pcFrozen || x.st == .faultUnmapped || (s'.unitOf sec).any (fun u => s'.absentAt u sec) then (x, s')
    else
      let d := overlayBytes x.data e.bytes
      let p := x.poison || e.poison
      ({ x with data := d, poison := p, st := secStatus d p }, s')
  | none => (x, s')
/-- Writes bytes of one sector from offset `off` on: through the kettle unless the whole sector is written and has no entry
(R267). -/
def State.writeSector (s : State) (sec off : Nat) (bs : List Byte) (poison : Bool) (a : Acc) : Status × State :=
  if bs.length = 64 && (s.kettleAt sec).isNone then
    match s.writeDenied sec with
    | some st => (st, s)
    | none => s.writeBelow sec bs poison a
  else s.kettleWrite sec (bs.zipIdx.map (fun x => (off + x.2, x.1))) poison a

/-- The sectors that `n` bytes from `ppa` on touch: sector, first offset in it, bytes in it. -/
def sectorsOf (ppa n : Nat) : List (Nat × Nat × Nat) :=
  if n = 0 then []
  else (List.range ((ppa + n - 1) / 64 - ppa / 64 + 1)).map (fun i =>
    let sec := (ppa / 64 + i) * 64
    let lo := max ppa sec
    (sec, lo - sec, min (ppa + n) (sec + 64) - lo))
/-- The granule as the atomic unit holds it (R77). -/
def State.atomLine (s : State) (g : Nat) : Option AtomLine := s.coh.atomicUnit.find? (fun l => l.gran == g)
/-- A granule leaves the atomic unit: its changed sectors are written back to memory (R77). -/
def State.atomDrop (s : State) (g : Nat) : State :=
  match s.atomLine g with
  | none => s
  | some l =>
    (bitsOf l.dirty.toNat 2).foldl (fun (s : State) i =>
      let bs := (l.data.drop (64 * i)).take 64
      (s.writeSector (g * 128 + 64 * i) 0 (bs.map (·.1)) (bs.any (·.2)) {}).2)
      { s with coh := { s.coh with atomicUnit := s.coh.atomicUnit.filter (fun x => x.gran != g) } }
/-- Every granule leaves the atomic units. -/
def State.atomDrain (s : State) : State := (s.coh.atomicUnit.map (·.gran)).foldl (fun s g => s.atomDrop g) s

/-- Reads `n` bytes from `ppa` on: the bytes with the poison of each, and the status. What the atomic unit holds of them is
written back first (log 79). -/
def State.readBytes (s : State) (ppa n : Nat) (a : Acc) : List (Byte × Bool) × Status × State :=
  (sectorsOf ppa n).foldl (fun (r : List (Byte × Bool) × Status × State) x =>
    let (d, s) := (r.2.2.atomDrop (x.1 / 128)).readSector x.1 a
    (r.1 ++ ((d.data.drop x.2.1).take x.2.2).map (fun b => (b, d.poison)), worse r.2.1 d.st, s)) ([], .ok, s)
/-- Writes bytes from `ppa` on, each sector with the poison of any of its bytes (R264 to R266). -/
def State.writeBytes (s : State) (ppa : Nat) (bs : List (Byte × Bool)) (a : Acc) : Status × State :=
  (sectorsOf ppa bs.length).foldl (fun (r : Status × State) x =>
    let part := (bs.drop (x.1 + x.2.1 - ppa)).take x.2.2
    let (st, s) := (r.2.atomDrop (x.1 / 128)).writeSector x.1 x.2.1 (part.map (·.1)) (part.any (·.2)) a
    (worse r.1 st, s)) (.ok, s)

/-- Flushes the whole kettle. -/
def State.kettleDrain (s : State) : State := s.pool.kettle.foldl (fun s e => s.kettleForce e.sector) s
/-- Whether a line lies on a frozen channel, whose dirty lines the tier cache keeps (R258). -/
def State.lineFrozen (s : State) (l : TierLine) : Bool :=
  (s.unitOf (l.line * 1024)).any (fun u => (s.unit u).frozen.isSome)
/-- Writes back every dirty line of the tier caches, but for those of a frozen channel. -/
def State.tierDrain (s : State) : State :=
  let out := s.pool.tier.filter (fun l => !s.lineFrozen l)
  let s' := out.foldl (fun s l => s.writeBackLine l) s
  s'.updPool (fun p => { p with tier := p.tier.map (fun l => if out.contains l then { l with dirty := 0 } else l) })
/-- Issues every queued write of every unit. -/
def State.queuesDrain (s : State) : State := (s.pool.units.map (·.1)).foldl (fun s u => s.drainUnit u) s

end Sys2Proof.Machine
end

