-- ==== Sys2Proof/Machine/Packets.lean ====
section
/-! DEFINITION. Packets and flits: header words, checksums, opcodes, sizes (R163, R187 to R189, R192, R212, R216, R217,
R224, R230). -/

namespace Sys2Proof.Machine

/-! Checksums. -/

/-- One byte of a reflected CRC-32. -/
def crc32cByte (c : Nat) (b : Byte) : Nat :=
  iter 8 (fun x => if x % 2 = 1 then Nat.xor (x / 2) 0x82F63B78 else x / 2) (Nat.xor c b.toNat)
/-- CRC32C: polynomial 0x1EDC6F41 reflected, initial value and final XOR all ones (R163). -/
def crc32c (bs : List Byte) : Nat := Nat.xor (bs.foldl crc32cByte 0xFFFFFFFF) 0xFFFFFFFF
/-- One byte of the ECMA-182 CRC-64, bit 7 first. -/
def crc64Byte (c : Nat) (b : Byte) : Nat :=
  iter 8 (fun x => if x.testBit 63 then Nat.xor (x * 2 % 2 ^ 64) 0x42F0E1EBA9EA3693 else x * 2)
    (Nat.xor c (b.toNat <<< 56))
/-- The flit CRC (R189). -/
def crc64 (bs : List Byte) : Nat := bs.foldl crc64Byte 0xFFFFFFFFFFFFFFFF

/-! Words. -/

/-! Opcodes (Tables 03-6, 09-2, 14-1). -/

/-- The opcodes that draw a response (R217): those of Table 09-2, the coherence requests and snoops of Table 03-6, and the
forwards of Table 14-1. -/
def isRequest (op : Nat) : Bool :=
  [0x01, 0x02, 0x10, 0x11, 0x40, 0x41, 0x42, 0x43, 0x44, 0x48, 0x49, 0x4A, 0x4B, 0x4C, 0x50, 0x51, 0x52, 0x53, 0x54, 0x60,
   0x76].contains op
/-- The assigned opcodes. -/
def opAssigned (op : Nat) : Bool :=
  [0x01, 0x02, 0x03, 0x10, 0x11, 0x12, 0x13, 0x14, 0x70, 0x71, 0x72, 0x74, 0x76, 0x77, 0x78].contains op
  || (0x40 ≤ op && op ≤ 0x44) || (0x48 ≤ op && op ≤ 0x4C) || (0x50 ≤ op && op ≤ 0x54)
  || (0x58 ≤ op && op ≤ 0x61)
/-- The channel that an opcode fixes (R212); the others are mapped. -/
def fixedVc (op : Nat) : Option Nat :=
  if op = 0x11 then some 4
  else if 0x40 ≤ op && op ≤ 0x44 then some 3
  else if 0x48 ≤ op && op ≤ 0x4C then some 2
  else if 0x50 ≤ op && op ≤ 0x54 then some 6
  else if 0x58 ≤ op && op ≤ 0x5F then some 5
  else if op = 0x60 || op = 0x61 || (0x70 ≤ op && op ≤ 0x72) || op = 0x74 then some 7
  else if op = 0x76 then some 2
  else if op = 0x77 then some 5
  else if op = 0x78 then some 0
  else none
end Sys2Proof.Machine

namespace Sys2Proof

open Sys2Proof.Machine

/-- The packet header as bits (Table 09-1). -/
def Hdr.word (h : Hdr) : Nat :=
  at_ h.addr 64 192 + at_ h.incClaim 32 160 + at_ h.dstNode 16 144 + at_ h.dstEp 8 136 + at_ h.srcNode 16 120
  + at_ h.srcEp 8 112 + at_ h.ctxTag 16 96 + at_ h.viaNode 16 80 + at_ h.tag 16 64 + at_ h.msgLen 28 36
  + at_ h.opcode 8 28 + at_ h.length 9 19 + at_ h.pad 4 15 + at_ h.vc 3 12 + at_ h.tc 3 9 + at_ h.hops 4 5
  + at_ (b2n h.viaV) 1 4 + at_ (b2n h.repin) 1 3 + at_ (b2n h.ordered) 1 2 + at_ (b2n h.poison) 1 1 + at_ (b2n h.last) 1 0
/-- The header that 256 bits spell (Table 09-1). -/
def Hdr.ofWord (w : Nat) : Hdr :=
  { addr := fld w 255 192, incClaim := fld w 191 160, dstNode := fld w 159 144, dstEp := fld w 143 136,
    srcNode := fld w 135 120, srcEp := fld w 119 112, ctxTag := fld w 111 96, viaNode := fld w 95 80,
    tag := fld w 79 64, msgLen := fld w 63 36, opcode := fld w 35 28, length := fld w 27 19, pad := fld w 18 15,
    vc := fld w 14 12, tc := fld w 11 9, hops := fld w 8 5, viaV := bit w 4, repin := bit w 3, ordered := bit w 2,
    poison := bit w 1, last := bit w 0 }
/-- The flit header as bits (Table 08-1). -/
def Flit.word (f : Flit) : Nat :=
  at_ f.seq 12 52 + at_ f.ackSeq 12 40 + at_ (b2n f.ackV) 1 39 + at_ f.typ 2 37 + at_ f.units.length 4 33
  + at_ f.stompAt 4 29 + at_ (b2n f.rsvd) 1 28 + at_ f.crAVc 3 25 + at_ f.crACnt 11 14 + at_ f.crBVc 3 11
  + at_ f.crBCnt 11 0
/-- A packet's units: two of header and its payload (R192). -/
def Packet.units (p : Packet) : Nat := 2 + p.hdr.length
/-- The numbers that a packet carries besides the common header, its kind first (log 6). -/
def Msg.nums : Msg → List Nat
  | .plain => []
  | .cmp a b => [1, a, b]
  | .data a b => [2, a, b]
  | .grant a b => [3, a, b]
  | .wbAck a => [4, a]
  | .snp a b c d => [5, a, b, c, d]
  | .stashOffer a b => [6, a, b]
  | .leaseAck a b c d e => [7, a, b, c, d, e]
  | .mirAck a b => [8, a, b]
  | .mirFwd b => [9, b2n b]
  | .agent a b => [10, a, b]
  | .rsp a b => [11, a, b]
  | .collDone a b c d => [12, a, b, c, d]
/-- The bytes of a packet's payload units: its data; the fields that the spec places nowhere are free values (log 6). -/
def Packet.payload (p : Packet) : List Byte :=
  match p.msg with
  | .plain | .collDone _ _ _ _ => p.data
  | m => Config.msgBytes m.nums p.data
/-- The 16 bytes of a unit (R192, R216). -/
def LUnit.bytes : LUnit → List Byte
  | .head p => leBytes 16 (p.hdr.word % 2 ^ 128)
  | .second p => leBytes 16 (p.hdr.word / 2 ^ 128)
  | .payload p k => bytesFrom p.payload (16 * k) 16
  | .raw w => leBytes 16 w.toNat
/-- Bytes 0 to 247 of a flit: its header word, then 15 units of 16 bytes, those not used zero (R187, Table 08-1). -/
def Flit.body (f : Flit) : List Byte :=
  leBytes 8 f.word ++ bytesFrom ((f.units.take 15).flatMap LUnit.bytes) 0 240
/-- The CRC that a flit's bytes 0 to 247 give (R189). -/
def Flit.sum (f : Flit) : BitVec 64 := BitVec.ofNat 64 (crc64 f.body)
/-- The 256 bytes of a flit (R187). -/
def Flit.bytes (f : Flit) : List Byte := f.body ++ leBytes 8 f.crc.toNat
/-- A flit with the CRC of its bytes. -/
def Flit.sealed (f : Flit) : Flit := { f with crc := f.sum }

/-- The flow key of a packet (R224). -/
def Hdr.flow (h : Hdr) : FlowKey := { srcNode := h.srcNode, srcEp := h.srcEp, dstNode := h.dstNode, tc := h.tc }
/-- The hash of a flow key (R224). -/
def FlowKey.hash (k : FlowKey) : Nat :=
  crc32c ((leBytes 2 k.srcNode) ++ (leBytes 1 k.srcEp) ++ (leBytes 2 k.dstNode) ++ (leBytes 1 (k.tc % 8)))
/-- `LENGTH` and `PAD` of `n` payload bytes. -/
def Hdr.sized (h : Hdr) (n : Nat) : Hdr := { h with length := cdiv n 16, pad := cdiv n 16 * 16 - n }
/-- Payload bytes of a packet. -/
def Hdr.bytes (h : Hdr) : Nat := 16 * h.length - h.pad

/-- Whether a received packet is malformed (R217): `n` its payload bytes. -/
def Hdr.malformed (h : Hdr) : Bool :=
  !opAssigned h.opcode || (h.pad != 0 && (h.length == 0 || 16 * h.length ≤ h.pad))
  || (h.opcode != 0x11 && h.msgLen < h.bytes) || (h.opcode == 0x11 && h.msgLen + 16 < h.bytes)
  || (h.dstEp == 0xFF && (4096 ≤ h.dstNode || !(h.opcode == 0x12 || h.opcode == 0x13)))
/-- A message's key. -/
def Hdr.key (h : Hdr) : MsgKey :=
  { srcNode := h.srcNode, srcEp := h.srcEp, ctxTag := h.ctxTag, tag := h.tag, opcode := h.opcode }

/-- The arrival port and the header of the packet that a request's command takes. -/
def Instr.arrival : Instr → Option (Nat × Hdr)
  | .rdShared p h _ | .rdOwn p h _ | .upgrade p h _ | .rdUncached p h | .cleanEvict p h _ _ | .wrBack p h _ _ | .wrThru p h _ _ _
  | .wrUncached p h _ | .wrStash p h _ _ _ | .atomic p h _ _ _ | .publish p h _ _ _ _ | .collWr p h _ _ _ _ | .fabricDoorbell p h _ _ =>
    some (p, h)
  | .dbRejectsRead (.fabric p h) _ | .eqCiWrite (.fabric p h) _ _ | .eqDroppedRead (.fabric p h) _ | .mbLockRead (.fabric p h) _
  | .mbLockWrite (.fabric p h) _ _ | .mbDoorbellWrite (.fabric p h) _ _ | .mbRequestWrite (.fabric p h) _ _ _
  | .mbRejectsRead (.fabric p h) _ => some (p, h)
  | .transitForward p pkt => some (p, pkt.hdr)
  | _ => none

end Sys2Proof
end

