-- ==== Sys2Proof/Machine/Net.lean ====
section
/-! DEFINITION. Choice of port, sending, replies and messages (R212, R216 to R231). -/

namespace Sys2Proof.Machine

/-- The input that a port's class-to-input map gives a class (Table 08-4). -/
def Port.classInput (p : Port) (tc : Nat) : Nat := fld p.word.toNat (3 * tc + 34) (3 * tc + 32)
/-- The egress input, which is also the channel, of a packet on a port (R212). -/
def Port.input (p : Port) (h : Hdr) : Nat := (fixedVc h.opcode).getD (p.classInput h.tc)

/-! Choosing a port (R223, R224). -/

/-- This controller's node id (Table 09-3). -/
def State.node (s : State) : Nat := bfld s.net.word 63 48
/-- Whether class `c` is ordered. -/
def State.ordClass (s : State) (c : Nat) : Bool := bit s.net.word.toNat (40 + c)
/-- The bandwidth weight of a mode (Table 07-1). -/
def modeWeight : Nat → Nat
  | 1 => 16 | 2 | 3 => 8 | 4 | 5 | 6 => 4 | 7 | 8 => 2 | 9 => 1 | _ => 0
/-- Whether a port is UP or DEGRADED. -/
def Port.isUp (p : Port) : Bool := p.st == .up || p.st == .degraded
/-- The weight of a port, 0 unless UP or DEGRADED (Table 07-4). -/
def Port.weight (p : Port) : Nat := if p.isUp then modeWeight p.mode else 0
/-- Whether a port is usable for packets of a source (R223, R296). -/
def State.usable (s : State) (src p : Nat) : Bool :=
  let q := s.port p
  p < s.variant.ports && q.isUp && q.admOk && (q.dedicated.isNone || q.dedicated == some src)
/-- The valid ports of a node's route entry, in byte order (Table 09-6). -/
def State.routePorts (s : State) (node : Nat) : List Nat :=
  let e := (s.net.routes.or node 0).toNat
  (List.range 4).filterMap (fun i => if bit e (8 * i + 7) then some (fld e (8 * i + 6) (8 * i)) else none)
/-- The usable ports of a node's route entry. -/
def State.usablePorts (s : State) (src node : Nat) : List Nat := (s.routePorts node).filter (s.usable src)
/-- The port whose share holds `x` modulo the total weight (R224). -/
def State.weightedPick (s : State) (ps : List Nat) (x : Nat) : Option Nat :=
  let tot := (ps.map (fun p => (s.port p).weight)).sum
  let rec go : List Nat → Nat → Option Nat
    | [], _ => none
    | p :: r, x => if x < (s.port p).weight then some p else go r (x - (s.port p).weight)
  go ps (x % tot)
/-- Units queued on a port. -/
def Port.queued (p : Port) : Nat := (p.link.egress.map (fun e => e.2.units)).sum
/-- The largest packet of a channel in units (Table 08-2). -/
def maxUnits (vc : Nat) : Nat := if vc = 7 then 4 else 258
/-- The port with the fewest units queued per unit of weight, the lowest port on a tie (Table 09-7). -/
def State.leastLoaded (s : State) (ps : List Nat) : Option Nat :=
  ps.foldl (fun best p =>
    match best with
    | none => some p
    | some b =>
      let x := (s.port p).queued * (s.port b).weight
      let y := (s.port b).queued * (s.port p).weight
      if x < y || (x = y && p < b) then some p else some b) none
/-- Whether a node may serve as an intermediate (R223). -/
def State.viaOk (s : State) (src dst n : Nat) : Bool := n != s.node && n != dst && !(s.usablePorts src n).isEmpty
/-- The usable members of a node's Valiant set, in list order; empty when the entry names none. -/
def State.viaList (s : State) (src dst : Nat) : List Nat :=
  let e := (s.net.routes.or dst 0).toNat
  if bit e 55 then ((s.net.vsets.or (fld e 63 56) []).filter (s.viaOk src dst)) else []
/-- The intermediate of a packet that the controller originates (Table 09-7). -/
def State.pickVia (s : State) (src : Nat) (h : Hdr) (bulk : Bool) : Option Nat × State :=
  let l := s.viaList src h.dstNode
  if h.ordered then
    if bit (s.net.routes.or h.dstNode 0).toNat 54 && !l.isEmpty then (l[h.flow.hash % l.length]?, s) else (none, s)
  else if bulk && !l.isEmpty then
    let (v, s) := s.choose l 0
    (some v, s)
  else (none, s)
/-- The pin of a flow at an I/O die, or of a flow of the controller's own. -/
def State.pin? (s : State) (iod : Option Nat) (k : FlowKey) : Option Pin :=
  s.net.pins.find? (fun p => p.key == k && (iod.isNone || some p.iod == iod))
/-- Changes the routing state. -/
def State.updNet (s : State) (f : Routing → Routing) : State := { s with net := f s.net }
/-- The port of an ordered packet: its flow's pin while usable, else the weighted pick, which is pinned (R226). -/
def State.pinnedPort (s : State) (src : Nat) (iod : Option Nat) (k : FlowKey) (node : Nat) (via : Option Nat) :
    Option Nat × State :=
  let ps := s.usablePorts src node
  match s.pin? iod k with
  | some p =>
    if s.usable src p.port then (some p.port, s)
    else
      let s := s.updNet (fun n => { n with pins := n.pins.filter (fun x => x != p) })
      match s.weightedPick ps k.hash with
      | none => (none, s)
      | some q => (some q, s.updNet (fun n => { n with pins := { p with port := q, via } :: n.pins }))
  | none =>
    match s.weightedPick ps k.hash with
    | none => (none, s)
    | some q =>
      let die := iod.getD (q / 24)
      if 65536 ≤ (s.net.pins.filter (fun x => x.iod == die)).length then
        (some q, s.updNet (fun n => { n with pinFull := n.pinFull + 1 }))
      else (some q, s.updNet (fun n => { n with pins := { iod := die, key := k, port := q, via } :: n.pins }))
/-- Releases a flow's pin. -/
def State.unpin (s : State) (iod : Option Nat) (k : FlowKey) : State :=
  s.updNet (fun n => { n with pins := n.pins.filter (fun x => !(x.key == k && (iod.isNone || some x.iod == iod))) })

/-- Puts a packet in a port's egress, as a packet of source `src`. One that is too large for its channel, which no conforming sender
makes, is discarded (R193; DESIGN CHOICE, log 94). -/
def State.egress (s : State) (p src : Nat) (pkt : Packet) : State :=
  let i := (s.port p).input pkt.hdr
  let pkt := { pkt with hdr := { pkt.hdr with vc := i } }
  if maxUnits i < pkt.units then s else s.updLink p (fun l => { l with egress := l.egress ++ [(src, pkt)] })

/-- A request of the controller's own among those of its flow: destination node, tag, opcode. -/
def reqIdOf (h : Hdr) : Nat × Nat × Nat := (h.dstNode, h.tag, h.opcode)
/-- The flow bookkeeping of R227 for an ordered packet of the controller's own: the packet's `REPIN`, and the state after
it. Every packet of one request counts once. -/
def State.useFlow (s : State) (h : Hdr) : Bool × State :=
  let add := fun (l : List (Nat × Nat × Nat)) =>
    if isRequest h.opcode && !l.contains (reqIdOf h) then l ++ [reqIdOf h] else l
  match s.net.flows.find? (fun f => f.key == h.flow) with
  | some f =>
    (!f.sent, s.updNet (fun n => { n with flows := n.flows.map (fun g =>
      if g.key = h.flow then { g with sent := true, reqs := add g.reqs } else g) }))
  | none => (true, s.updNet (fun n => { n with flows := { key := h.flow, sent := true, reqs := add [] } :: n.flows }))
/-- A request of a flow of the controller's own has its response or has failed (R227). -/
def State.endRequest (s : State) (k : FlowKey) (id : Nat × Nat × Nat) : State :=
  s.updNet (fun n => { n with flows := n.flows.map (fun g =>
    if g.key = k && g.reqs.contains id then
      let rest := g.reqs.filter (fun x => x != id)
      { g with reqs := rest, sent := g.sent && !rest.isEmpty }
    else g) })
/-- Own requests that `f` accepts are no longer outstanding: their tags are free, and their flows have one request fewer
(R227, R229). -/
def State.closeOwn (s : State) (f : OwnMsg → Bool) : State :=
  let gone := s.net.own.filter f
  let s := s.updNet (fun n => { n with own := n.own.filter (fun o => !f o) })
  gone.foldl (fun s o => match o.key with
    | some k => s.endRequest k (o.node, o.tag, o.opcode)
    | none => s) s
/-- The incarnation that a request towards a node carries: the one last learnt (R67, Table 09-1). -/
def State.learntInc (s : State) (node : Nat) : Nat := s.net.learnt.or node 0
/-- Learns a node's incarnation. -/
def State.learn (s : State) (node inc : Nat) : State := s.updNet (fun n => { n with learnt := n.learnt.put node inc })

/-- Notes the port on which a packet of an own request leaves (R184). -/
def State.sentOn (s : State) (p : Nat) (h : Hdr) : State :=
  s.updNet (fun n => { n with own := n.own.map (fun o =>
    if o.node = h.dstNode && o.tag = h.tag && o.opcode = h.opcode then { o with ports := addSorted o.ports p } else o) })
/-- Whether a packet travels on BULK, by the map of the port that would take it without an intermediate (Table 09-7, R212). -/
def State.onBulk (s : State) (src : Nat) (h : Hdr) : Bool :=
  (fixedVc h.opcode).isNone && (s.leastLoaded (s.usablePorts src h.dstNode)).all (fun q => (s.port q).classInput h.tc == 1)
/-- Sends a packet of the controller's own as source `src`; none when it has no route (R220, R224 to R227). A pinned flow keeps its
intermediate as long as its pin. -/
def State.originate (s : State) (src : Nat) (pkt : Packet) : Option State :=
  let h := { pkt.hdr with srcNode := s.node, hops := 0, ordered := s.ordClass pkt.hdr.tc, viaV := false }
  if h.dstNode = s.node then
    some (s.updNet (fun n => { n with loop := n.loop ++ [{ pkt with hdr := h }] }))
  else
    let (rep, s1) := if h.ordered then s.useFlow h else (false, s)
    let s1 := if rep then s1.unpin none h.flow else s1
    let h := { h with repin := rep }
    let old := if h.ordered then s1.pin? none h.flow else none
    let keep := old.any (fun p => s1.usable src p.port)
    let (via, s1) := if keep then (old.bind (·.via), s1) else s1.pickVia src h (s1.onBulk src h)
    let tgt := via.getD h.dstNode
    let h := match via with
      | some v => { h with viaNode := v, viaV := true }
      | none => h
    let (port, s1) := if h.ordered then s1.pinnedPort src none h.flow tgt via
      else (s1.leastLoaded (s1.usablePorts src tgt), s1)
    match port with
    | some p => some ((s1.egress p src { pkt with hdr := h }).sentOn p h)
    | none => none
/-- Sends a packet, or discards and counts it (R225). -/
def State.send (s : State) (src : Nat) (pkt : Packet) : State :=
  (s.originate src pkt).getD (s.updNet (fun n => { n with noRoute := n.noRoute + 1 }))

/-- The incarnation this controller's responses carry (Table 09-1). -/
def State.inc (s : State) : Nat := s.boot.incarnation.toNat
/-- One packet of a reply to a request that arrived on port `p`, of a message of `total` bytes, `last` on its last packet: routed,
but sent on the arrival port while the node id is unset (R218) and, for endpoint 0xFE, while its partner is not admitted (R180); a
claim below the highest seen is discarded at egress (R342). -/
def State.replyPart (s : State) (p src : Nat) (h : Hdr) (op : Nat) (msg : Msg) (data : List Byte) (poison : Bool) (addr : Nat)
    (claim : Option Nat) (total : Nat) (last : Bool) : State :=
  if claim.any (fun c => decide (c < s.mirror.highest)) then s
  else
  let r : Hdr := { addr, incClaim := claim.getD s.inc, dstNode := h.srcNode, dstEp := h.srcEp, srcNode := s.node,
                   srcEp := h.dstEp, ctxTag := h.ctxTag, tag := h.tag, msgLen := total, opcode := op, tc := h.tc,
                   ordered := s.ordClass h.tc, poison, last }
  let pkt : Packet := { hdr := r.sized data.length, msg, data }
  let direct := s.node == 0xFFFF || (h.dstEp == 0xFE && decide (p < 96) && (s.port p).isUp && !(s.port p).admOk)
  if direct then s.egress p src pkt else s.send src pkt
/-- A reply of one packet. -/
def State.reply (s : State) (p src : Nat) (h : Hdr) (op : Nat) (msg : Msg) (data : List Byte) (poison : Bool) (addr : Nat)
    (claim : Option Nat) : State := s.replyPart p src h op msg data poison addr claim data.length true
/-- A `CMP` with a status and a result, from the address of the request. -/
def State.cmp (s : State) (p src : Nat) (h : Hdr) (st : Status) (result : Nat) (claim : Option Nat) : State :=
  s.reply p src h 0x5A (.cmp st.code result) [] false h.addr claim
/-- The response that a refused request of any opcode draws. -/
def State.refuse (s : State) (p src : Nat) (h : Hdr) (st : Status) (claim : Option Nat) : State :=
  if !isRequest h.opcode then s
  else if h.opcode = 0x02 then s.reply p src h 0x03 (.rsp 0 st.code) [] false h.addr claim
  else if h.opcode = 0x40 || h.opcode = 0x41 || h.opcode = 0x43 then s.reply p src h 0x58 (.data st.code 4) [] false h.addr claim
  else if h.opcode = 0x42 then s.reply p src h 0x59 (.grant st.code 0) [] false h.addr claim
  else if h.opcode = 0x44 || h.opcode = 0x48 then s.reply p src h 0x5E (.wbAck st.code) [] false h.addr claim
  else s.cmp p src h st 0 claim

/-- The answer to a malformed packet: a `CMP` with `ST_BAD_ARG` when it draws a response (R217). -/
def State.refuseBad (s : State) (p : Nat) (h : Hdr) (claim : Option Nat) : State :=
  if isRequest h.opcode then s.cmp p 65 h .badArg 0 claim else s

/-- Pieces of a byte run for packets: cut at 4 KiB addresses, and at each change of poison, which lies at sector
boundaries (R231, R265). Offset, bytes, poison. -/
def cutRun (addr : Nat) (bs : List (Byte × Bool)) : List (Nat × List Byte × Bool) :=
  let rec go : Nat → List (Byte × Bool) → List (Nat × List Byte × Bool) → List (Nat × List Byte × Bool)
    | _, [], acc => acc.reverse.map (fun x => (x.1, x.2.1.reverse, x.2.2))
    | o, (b, q) :: r, acc =>
      match acc with
      | (o', l, q') :: t =>
        if q = q' && (addr + o) % 4096 != 0 then go (o + 1) r ((o', b :: l, q) :: t)
        else go (o + 1) r ((o, [b], q) :: (o', l, q') :: t)
      | [] => go (o + 1) r [(o, [b], q)]
  go 0 bs []

/-! Receiving (R217, R230, R231). -/

/-- The I/O die of an arrival port; packets of the controller's own count on die 0. -/
def portIod (p : Nat) : Nat := if p < 96 then p / 24 else 0
/-- What becomes of a packet of a message: its bytes are taken, it belongs to a closed message, or it waits for a
tracker. -/
inductive Taken where
  | taken
  | late
  | waits
  deriving DecidableEq, Repr
/-- An open message of a key, whichever ports its packets come through; its tracker is one of the I/O die that its first packet
came to (R230, R231). -/
def State.msg? (s : State) (k : MsgKey) : Option OpenMsg := s.net.msgs.find? (fun m => m.key == k)
/-- Changes an open message. -/
def State.modMsg (s : State) (k : MsgKey) (f : OpenMsg → OpenMsg) : State :=
  s.updNet (fun n => { n with msgs := n.msgs.map (fun m => if m.key == k then f m else m) })
/-- Closes a message. -/
def State.dropMsg (s : State) (k : MsgKey) : State :=
  s.updNet (fun n => { n with msgs := n.msgs.filter (fun m => m.key != k) })
/-- Counts a packet of `n` bytes towards its message; its bytes are being written until `msgDone`. -/
def State.msgTake (s : State) (p : Nat) (h : Hdr) (n : Nat) (cmd : Instr) : Taken × State :=
  let iod := portIod p
  match s.msg? h.key with
  | some _ => (.taken, s.modMsg h.key (fun m => { m with got := m.got + n, open_ := m.open_ + 1 }))
  | none =>
    let waiting := if s.net.msgWait.contains (iod, cmd) then s.net.msgWait else s.net.msgWait ++ [(iod, cmd)]
    let wait := s.updNet (fun r => { r with msgWait := waiting })
    match s.net.closed.find? (fun c => c.1 == h.key) with
    | some c =>
      (.late, s.updNet (fun r => { r with late := r.late + 1, closed :=
        (r.closed.map (fun x => if x == c then (x.1, x.2 - n) else x)).filter (fun x => x.2 != 0) }))
    | none =>
      let m : OpenMsg := { iod, key := h.key, hdr := h, port := p, got := n, open_ := 1 }
      if 16384 ≤ (s.net.msgs.filter (fun m => m.iod == iod)).length || s.net.msgWait.any (fun w => w.1 == iod) then
        (.waits, wait)
      else (.taken, s.updNet (fun r => { r with msgs := r.msgs ++ [m] }))
/-- A packet's bytes are written: the message's status so far, and whether the message is complete; none when it has been
closed meanwhile. -/
def State.msgDone (s : State) (h : Hdr) (st : Status) : Option (Status × Bool) × State :=
  match s.msg? h.key with
  | none => (none, s)
  | some m =>
    let st' := if m.status.good then (if st.good then m.status else st) else m.status
    if m.open_ ≤ 1 && m.hdr.msgLen ≤ m.got then
      (some (if m.hdr.msgLen < m.got then .badArg else st', true), s.dropMsg h.key)
    else (some (st', false), s.modMsg h.key (fun m => { m with open_ := m.open_ - 1, status := st' }))

/-- Whether a tag is outstanding towards a node (R229). -/
def State.tagUsed (s : State) (node t : Nat) : Bool :=
  s.net.own.any (fun o => o.node == node && o.tag == t)
  || (node == s.mirror.partner && s.mirror.forwards.any (fun f => f.tag == t))
/-- Whether `n` more tags are free towards a node. -/
def State.tagsFree (s : State) (node n : Nat) : Bool :=
  (s.net.own.filter (fun o => o.node == node)).length
    + (if node = s.mirror.partner then s.mirror.forwards.length else 0) + n ≤ 65536
/-- A free tag for a message of the controller's own towards a node (R229); what would send without one free waits
(`tagsFree`). -/
def State.newTag (s : State) (node : Nat) : Nat × State :=
  let t := (firstFree (s.tagUsed node) 0 65536 s.net.nextTag).getD 0
  (t, s.updNet (fun n => { n with nextTag := (t + 1) % 65536 }))

/-- A packet with an old tag of a context is dropped and counted (R322 step 6). -/
def State.countOld (s : State) (h : Hdr) : State :=
  (s.updNet (fun n => { n with oldTag := n.oldTag + 1 })).modCtx (tagNum h.ctxTag) (fun c => { c with dropped := c.dropped + 1 })
/-- Whether a tag is an old one of a context in use, or that of a context that is not ACTIVE. -/
def State.staleTag (s : State) (tag : Nat) : Bool :=
  (s.ctx? (tagNum tag)).any (fun c => c.st != .active || s.tagOf (tagNum tag) != tag)

/-! Taking packets from the receive buffer (R198). -/

/-- Units of a channel are freed: the receiver owes them to the sender. -/
def State.freeUnits (s : State) (p vc n : Nat) : State :=
  s.updLink p (fun l => { l with used := l.used.upd vc 0 (· - n), owed := l.owed.upd vc 0 (· + n) })
/-- No command of a packet waits any more for a transaction or a tracker. -/
def State.waitOver (s : State) (p : Nat) (h : Hdr) : State :=
  { s with coh := { s.coh with stalled := s.coh.stalled.filter (fun x => x.2.arrival != some (p, h)) }
           net := { s.net with msgWait := s.net.msgWait.filter (fun x => x.2.arrival != some (p, h)) } }
/-- The packet with this header is taken from port `p`'s receive buffer, if it waits there, and its units are freed. -/
def State.consume (s : State) (p : Nat) (h : Hdr) : State :=
  let s := s.waitOver p h
  if p = 96 then s.updNet (fun n => { n with loop := n.loop.eraseP (fun q => q.hdr == h) })
  else if (s.port p).link.inbox.any (fun q => q.hdr == h) then
    (s.updLink p (fun l => { l with inbox := l.inbox.eraseP (fun q => q.hdr == h) })).freeUnits p h.vc (2 + h.length)
  else if (s.port p).link.earlier.any (fun q => q.hdr == h) then
    s.updLink p (fun l => { l with earlier := l.earlier.eraseP (fun q => q.hdr == h) })
  else s
/-- Whether packets of its channel that came before it still wait in the receive buffer: traffic of one channel and link is
taken in its order of arrival (R69, R228). -/
def State.behind (s : State) (p : Nat) (h : Hdr) : Bool :=
  if p = 96 then s.net.loop.head?.any (fun q => q.hdr != h)
  else
    let l := (s.port p).link
    match l.earlier.find? (fun q => q.hdr.vc == h.vc), l.inbox.find? (fun q => q.hdr.vc == h.vc) with
    | some q, _ => q.hdr != h
    | none, some q => q.hdr != h
    | none, none => false
/-- Whether a packet is addressed to this node (R218); a packet of the controller's own is. -/
def State.addressed (s : State) (h : Hdr) : Bool := s.node != 0xFFFF && h.dstNode == s.node
/-- Whether a packet for this node is let in from its arrival port: a port whose partner changed carries only
management-endpoint traffic (R180). -/
def State.heard (s : State) (p : Nat) (h : Hdr) : Bool := s.addressed h && (decide (96 ≤ p) || (s.port p).admOk)
/-- A packet that a command of its own takes (R217, R218): left in the buffer behind earlier ones, discarded when it is not for
this node, discarded, counted and answered when malformed, else `k`, which takes it. -/
def State.arrive (s : State) (p : Nat) (h : Hdr) (k : State → State) : State :=
  if s.behind p h then s
  else if !s.heard p h then s.consume p h
  else if h.malformed then
    ((s.consume p h).updNet (fun n => { n with malformed := n.malformed + 1 })).refuseBad p h none
  else k s

end Sys2Proof.Machine
end

