-- ==== Sys2Proof/Machine/Translate.lean ====
section
/-! DEFINITION. Chunks, extents, page tables and translation (R15 to R42, R239, R282). -/

namespace Sys2Proof.Machine

/-! Free chunks and extents (R19, R20). -/

/-- The 64 KiB chunks of a unit, as ranges of chunk numbers: a slice, or the installed part of each DIMM slot. -/
def State.unitChunks (s : State) (u : Nat) : List (Nat × Nat) :=
  if u < 768 then [(sliceBase u / 65536, sliceBase u / 65536 + 18432)]
  else [0, 1].filterMap (fun d => (s.dimm? (u - 0x8000) d).map (fun m =>
    let b := slotBase (u - 0x8000) d / 65536
    (b, b + m.gib * 16384)))
/-- Whether a chunk of unit `u` holds a byte of a fenced bank (R274). -/
def State.chunkFenced (s : State) (u c : Nat) : Bool :=
  s.pool.retired.any (fun r => match r with
    | .bank u' sid bg bank => u' == u && (u < 768 || (List.range 16).any (fun i =>
        let l := s.locate (c * 65536 + 4096 * i)
        l.sid == sid && l.bg == bg && l.bank == bank))
    | .page _ => false)
/-- Whether a chunk is zeroed free space (R12, R14, R19, R20, R263, R273, R274). -/
def State.chunkFree (s : State) (c : Nat) : Bool :=
  match s.unitOf (c * 65536) with
  | none => false
  | some u =>
    !s.chunks.has c && !s.inCaddy (c * 65536) && !s.inDir (c * 65536) && !s.isSpare u && !(s.unit u).absent
    && !s.pool.retired.contains (.page c) && !s.chunkFenced u c && (u < 768 || s.pool.capInit.contains c)
/-- A free chunk of a unit, freely chosen (R19). -/
def State.takeChunk (s : State) (u : Nat) (use_ : ChunkUse) : Option (Nat × State) :=
  let rs := s.unitChunks u
  let (v, s) := s.draw
  let k := v % (max rs.length 1)
  let order := rs.drop k ++ rs.take k
  match order.findSome? (fun r => firstFree (fun c => !s.chunkFree c) r.1 r.2 (v / max rs.length 1)) with
  | some c => some (c, { s with chunks := s.chunks.put c use_ })
  | none => none
/-- `n` free chunks of a unit. -/
def State.takeChunks (s : State) (u : Nat) (use_ : ChunkUse) : Nat → Option (List Nat × State)
  | 0 => some ([], s)
  | n + 1 =>
    match s.takeChunk u use_ with
    | none => none
    | some (c, s) =>
      match State.takeChunks s u use_ n with
      | none => none
      | some (cs, s) => some (c :: cs, s)
/-- The free chunks of a unit. -/
def State.freeCount (s : State) (u : Nat) : Nat :=
  ((s.unitChunks u).map (fun r => ((List.range' r.1 (r.2 - r.1)).filter s.chunkFree).length)).sum
/-- Shares of `n` chunks from each unit of a list, in its order (R239). -/
def State.takeShares (s : State) (n : Nat) (use_ : ChunkUse) : List Nat → Option (List Nat × State)
  | [] => some ([], s)
  | u :: r =>
    match s.takeChunks u use_ n with
    | none => none
    | some (cs, s) =>
      match State.takeShares s n use_ r with
      | none => none
      | some (ds, s) => some (cs ++ ds, s)
/-- A new extent of `size` 64 KiB units (R19, R239): a free non-zero id, equal shares of every member. -/
def State.newExtent (s : State) (pl : Placement) (size part : Nat) : Option (Nat × State) :=
  let (v, s) := s.draw
  match firstFree s.extents.has 1 4194304 v with
  | none => none
  | some id =>
    let ms := s.members pl
    match s.takeShares (cdiv size ms.length) (.extent id) ms with
    | none => none
    | some (cs, s) => some (id, { s with extents := s.extents.put id { chunks := cs, size, pl, part } })
/-- Hands chunks to zeroing; `region` waits for them, 0 for none (R20, R21). -/
def State.zeroLater (s : State) (cs : List Nat) (region : Nat) : State :=
  { s with chunks := cs.foldl (fun t c => t.put c (.zeroing region)) s.chunks }
/-- Frees an extent: its chunks go to zeroing. -/
def State.freeExtent (s : State) (id region : Nat) : State :=
  match s.extents.at? id with
  | none => s
  | some e => { s.zeroLater e.chunks region with extents := s.extents.del id }
/-- The hot-tier pseudo-channels that may hold controller allocations: assembled, present, not spares. -/
def State.hotUnits (s : State) : List Nat := (List.range 768).filter (fun u => s.unitPresent u && !s.isSpare u)
/-- A free hot-tier chunk of any unit, freely chosen. -/
def State.takeHot (s : State) (use_ : ChunkUse) : Option (Nat × State) :=
  let us := s.hotUnits
  let (v, s) := s.draw
  let k := v % (max us.length 1)
  (us.drop k ++ us.take k).findSome? (fun u => s.takeChunk u use_)

/-! Page tables (R30 to R34). -/

/-- A frame's table. -/
def State.tableAt (s : State) (f : Nat) : PageTable := s.tables.or f { part := 64 }
/-- Writes a table entry; a zero entry is not listed. -/
def State.setEntry (s : State) (f i : Nat) (e : BitVec 64) : State :=
  { s with tables := s.tables.mod f (fun t => { t with ents := if e = 0 then t.ents.del i else t.ents.put i e }) }
/-- The bits of a CVA below level `l`'s index (Table 02-1). -/
def lvlShift (l : Nat) : Nat := 43 - 9 * l
/-- The span of one entry of level `l`. -/
def lvlSpan (l : Nat) : Nat := 2 ^ lvlShift l
/-- The index of a CVA at level `l`. -/
def lvlIdx (l cva : Nat) : Nat := cva / lvlSpan l % 512
/-- A table-pointer entry (Table 02-2). -/
def ptrEntry (f : Nat) : BitVec 64 := BitVec.ofNat 64 (f * 4096 + 1)
/-- A leaf entry (Table 02-3): region, offset in bytes, hint, permissions. -/
def leafEntry (rid off hint : Nat) (rd wr : Bool) : BitVec 64 :=
  BitVec.ofNat 64 (rid * 2 ^ 44 + off / 65536 * 65536 + hint * 1024 + b2n wr * 128 + b2n rd * 64 + 2)
/-- A ZERO leaf (R34). -/
def zeroLeaf : BitVec 64 := BitVec.ofNat 64 (256 + 64 + 2)
def entType (e : BitVec 64) : Nat := bfld e 1 0
def leafRegion (e : BitVec 64) : Nat := bfld e 63 44
def leafOff (e : BitVec 64) : Nat := bfld e 43 16 * 65536
def leafZero (e : BitVec 64) : Bool := bit e.toNat 8
def leafW (e : BitVec 64) : Bool := bit e.toNat 7
def leafR (e : BitVec 64) : Bool := bit e.toNat 6
def leafHint (e : BitVec 64) : Nat := bfld e 11 10
/-- The frame a table pointer names. -/
def ptrFrame (e : BitVec 64) : Nat := bfld e 43 12
/-- Whether an entry of level `l` is a table pointer (R32). -/
def isPtr (l : Nat) (e : BitVec 64) : Bool := l < 3 && entType e == 1
/-- Whether an entry of level `l` is a leaf (Table 02-1, R32). -/
def isLeaf (l : Nat) (e : BitVec 64) : Bool := 1 ≤ l && entType e == 2

/-- What a walk ends in: an invalid entry or a leaf, and the level. -/
inductive Walk where
  | invalid (level : Nat)
  | leaf (level : Nat) (e : BitVec 64)
  deriving DecidableEq, Repr

/-- Walks `n` more levels from table `f` of level `l` (R30, R32). -/
def State.walkFrom (s : State) (cva : Nat) : Nat → Nat → Nat → Walk
  | 0, l, _ => .invalid l
  | n + 1, l, f =>
    let e := (s.tableAt f).ents.or (lvlIdx l cva) 0
    if isPtr l e then State.walkFrom s cva n (l + 1) (ptrFrame e)
    else if isLeaf l e then .leaf l e
    else .invalid l
/-- The walk of a CVA in a context. -/
def State.walk (s : State) (c : Context) (cva : Nat) : Walk := s.walkFrom cva 4 0 c.root

/-- The leaves below table `f` of level `l`: CVA, level, entry. -/
def State.leavesFrom (s : State) : Nat → Nat → Nat → Nat → List (Nat × Nat × BitVec 64)
  | 0, _, _, _ => []
  | n + 1, l, f, base =>
    (s.tableAt f).ents.flatMap (fun x =>
      let cva := base + x.1 * lvlSpan l
      if isPtr l x.2 then State.leavesFrom s n (l + 1) (ptrFrame x.2) cva
      else if isLeaf l x.2 then [(cva, l, x.2)] else [])
/-- Every leaf of a context, in ascending CVA order. -/
def State.leaves (s : State) (c : Context) : List (Nat × Nat × BitVec 64) := s.leavesFrom 4 0 c.root 0
/-- The region leaves of a context that map a region. -/
def State.leavesOf (s : State) (c : Context) (rid : Nat) : List (Nat × Nat × BitVec 64) :=
  (s.leaves c).filter (fun x => !leafZero x.2.2 && leafRegion x.2.2 == rid)
/-- Whether a context maps a region anywhere. -/
def State.maps (s : State) (c : Context) (rid : Nat) : Bool := !(s.leavesOf c rid).isEmpty
/-- Leaves of a context that touch `[lo, hi)`. -/
def State.leavesIn (s : State) (c : Context) (lo hi : Nat) : List (Nat × Nat × BitVec 64) :=
  (s.leaves c).filter (fun x => x.1 < hi && lo < x.1 + lvlSpan x.2.1)

/-- A frame for a new table of a partition (R31): in one of its table chunks, else in a new one; none without quota or
space. -/
def State.newTable (s : State) (part : Nat) : Option (Nat × State) :=
  if !s.hotFits part 4096 then none
  else
    let mine := (s.chunks.filter (fun c => c.2 = .tables part)).map (·.1)
    let spot := mine.findSome? (fun c => (List.range 16).findSome? (fun i =>
      if s.tables.has (c * 16 + i) then none else some (c * 16 + i)))
    match spot with
    | some f => some (f, { s with tables := s.tables.put f { part } })
    | none =>
      match s.takeHot (.tables part) with
      | none => none
      | some (c, s) => some (c * 16, { s with tables := s.tables.put (c * 16) { part } })
/-- Frees a table; a chunk left without tables goes to zeroing (R20, R31). -/
def State.freeTable (s : State) (f : Nat) : State :=
  let s := { s with tables := s.tables.del f }
  if (List.range 16).any (fun i => s.tables.has (f / 16 * 16 + i)) then s else s.zeroLater [f / 16] 0
/-- Frees a table of level `l` and every table below it. -/
def State.freeTree (s : State) : Nat → Nat → Nat → State
  | 0, _, _ => s
  | n + 1, l, f =>
    let s' := (s.tableAt f).ents.foldl (fun s x => if isPtr l x.2 then State.freeTree s n (l + 1) (ptrFrame x.2) else s) s
    s'.freeTable f
/-- The entries of a table of level `l + 1` that split a leaf of level `l` (R50 step 4). -/
def splitEntries (l : Nat) (e : BitVec 64) : Tab (BitVec 64) :=
  (List.range 512).map (fun i =>
    (i, if leafZero e then e
        else leafEntry (leafRegion e) (leafOff e + i * lvlSpan (l + 1)) (leafHint e) (leafR e) (leafW e)))
/-- The table that entry `i` of table `f` (level `l`) leads to: allocated when the entry is invalid, made by a split when
it is a leaf. -/
def State.descend (s : State) (part l f i : Nat) : Option (Nat × State) :=
  let e := (s.tableAt f).ents.or i 0
  if isPtr l e then some (ptrFrame e, s)
  else
    match s.newTable part with
    | none => none
    | some (g, s) =>
      let s := if isLeaf l e then { s with tables := s.tables.mod g (fun t => { t with ents := splitEntries l e }) } else s
      some (g, s.setEntry f i (ptrEntry g))
/-- Writes a leaf of level `target` at a CVA, from table `f` of level `l` on. -/
def State.putLeafFrom (s : State) (part cva target : Nat) (e : BitVec 64) : Nat → Nat → Nat → Option State
  | 0, _, _ => none
  | n + 1, l, f =>
    let i := lvlIdx l cva
    if l = target then
      let old := (s.tableAt f).ents.or i 0
      let s := if isPtr l old then s.freeTree 4 (l + 1) (ptrFrame old) else s
      some (s.setEntry f i e)
    else
      match s.descend part l f i with
      | none => none
      | some (g, s) => State.putLeafFrom s part cva target e n (l + 1) g
/-- Writes a leaf in a context; none when a table cannot be allocated. -/
def State.putLeaf (s : State) (c : Context) (cva target : Nat) (e : BitVec 64) : Option State :=
  s.putLeafFrom c.part cva target e 4 0 c.root
/-- The level of the largest leaf for a range that starts at `cva`, region offset `off`, and is `len` long (R33). -/
def leafLevel (cva off len : Nat) : Nat :=
  if cva % lvlSpan 1 = 0 && off % lvlSpan 1 = 0 && lvlSpan 1 ≤ len then 1
  else if cva % lvlSpan 2 = 0 && off % lvlSpan 2 = 0 && lvlSpan 2 ≤ len then 2
  else 3
/-- Maps a range with the largest leaves; `mk off` is the leaf of a region offset (R33, R34). `only` says which pages to
write. -/
def State.mapRange (s : State) (c : Context) (mk : Nat → BitVec 64) : Nat → Nat → Nat → Nat → Option State
  | 0, _, _, _ => some s
  | n + 1, cva, off, len =>
    if len = 0 then some s
    else
      let l := leafLevel cva off len
      match s.putLeaf c cva l (mk off) with
      | none => none
      | some s => State.mapRange s c mk n (cva + lvlSpan l) (off + lvlSpan l) (len - lvlSpan l)
/-- Invalidates the leaves of `[lo, hi)` below table `f` of level `l`, splitting leaves that lie partly outside and freeing
tables left without a valid entry (R31, R50). -/
def State.clearFrom (s : State) (part lo hi : Nat) : Nat → Nat → Nat → Nat → Option State
  | 0, _, _, _ => some s
  | n + 1, l, f, base =>
    (s.tableAt f).ents.foldl (fun (r : Option State) x =>
      match r with
      | none => none
      | some s =>
        let b := base + x.1 * lvlSpan l
        let e := b + lvlSpan l
        if hi ≤ b || e ≤ lo then some s
        else if isLeaf l x.2 && lo ≤ b && e ≤ hi then some (s.setEntry f x.1 0)
        else if isLeaf l x.2 || isPtr l x.2 then
          match s.descend part l f x.1 with
          | none => none
          | some (g, s) =>
            match State.clearFrom s part lo hi n (l + 1) g b with
            | none => none
            | some s =>
              if (s.tableAt g).ents.isEmpty then some ((s.freeTable g).setEntry f x.1 0) else some s
        else some s) (some s)
/-- Invalidates a range of a context. -/
def State.clearRange (s : State) (c : Context) (lo hi : Nat) : Option State := s.clearFrom c.part lo hi 4 0 c.root 0

/-! Translation caches (R35, R36). -/

/-- A leaf translation is in the hub's cache, most recent first; at most 65,536 per hub. -/
def State.cacheLeaf (s : State) (hub tag level cva : Nat) : State :=
  let e := (hub, tag, level, cva / lvlSpan level)
  let rest := s.tcache.filter (fun x => x != e)
  let mine := rest.filter (fun x => x.1 == hub)
  let rest := if 65536 ≤ mine.length then rest.eraseP (fun x => some x == mine.getLast?) else rest
  { s with tcache := e :: rest }
/-- The sectors of the table entries that a walk of a CVA reads (R30), from table `f` of level `l` on. -/
def State.walkSectors (s : State) (cva : Nat) : Nat → Nat → Nat → List Nat
  | 0, _, _ => []
  | n + 1, l, f =>
    let e := (s.tableAt f).ents.or (lvlIdx l cva) 0
    (f * 4096 + lvlIdx l cva * 8) / 64 * 64 :: (if isPtr l e then State.walkSectors s cva n (l + 1) (ptrFrame e) else [])
/-- Finds a page's leaf: in the translation cache of the context's hub, or by a walk, whose reads take the CRIT class and whose leaf
the cache takes (R35, R36, R241, R262). The status says whether the tables could be read. -/
def State.walkThrough (s : State) (c : Context) (tag cva : Nat) : Status × State :=
  let hub := s.ctxHub (tagNum tag)
  let page := cva / 65536 * 65536
  match s.tcache.find? (fun x => x.1 == hub && x.2.1 == tag && page / lvlSpan x.2.2.1 == x.2.2.2) with
  | some x => (.ok, s.cacheLeaf hub tag x.2.2.1 page)
  | none =>
    let (st, s) := (s.walkSectors page 4 0 c.root).foldl (fun (r : Status × State) a =>
      let (d, s) := r.2.readBelow a { cls := 3, tag, part := c.part }
      (worse r.1 d.st, s)) (.ok, s)
    (st, if st != .ok then s else
      match s.walk c page with
      | .leaf l _ => s.cacheLeaf hub tag l page
      | .invalid _ => s)
/-- Finds the leaves of a list of pages. -/
def State.walkPages (s : State) (c : Context) (tag : Nat) (pages : List Nat) : Status × State :=
  pages.foldl (fun (r : Status × State) pg =>
    if 2 ^ 52 ≤ pg then r
    else
      let (st, s) := r.2.walkThrough c tag pg
      (worse r.1 st, s)) (.ok, s)
/-- Invalidates the cached leaves of a context number that touch a range (R36). -/
def State.uncache (s : State) (c lo hi : Nat) : State :=
  { s with tcache := s.tcache.filter (fun x =>
      !(tagNum x.2.1 == c && x.2.2.2 * lvlSpan x.2.2.1 < hi && lo < (x.2.2.2 + 1) * lvlSpan x.2.2.1)) }
/-- Flushes a context number's cached leaves (R36, R322). -/
def State.uncacheAll (s : State) (c : Nat) : State :=
  { s with tcache := s.tcache.filter (fun x => tagNum x.2.1 != c) }

/-! Translating a page (R29, R42, R98, Table 02-4). -/

/-- A page's translation: region (0 in a ZERO leaf), the region offset of the page's first byte, permissions, hint; or a
fault with its cause and level. -/
inductive Trans where
  | ok (region off : Nat) (zero rd wr : Bool) (hint : Nat)
  | fault (cause level : Nat)
  deriving DecidableEq, Repr

/-- The status of a fault cause (Table 02-4). -/
def causeStatus (c : Nat) : Status := if c = 2 || c = 3 || c = 4 then .faultPerm else .faultUnmapped
/-- Checks a leaf's permissions for an access: 0 read, 1 write, 2 atomic. -/
def permCheck (acc level : Nat) (e : BitVec 64) : Option Trans :=
  if acc = 0 then if leafR e then none else some (.fault 2 level)
  else if leafZero e then some (.fault 4 level)
  else if leafW e then none else some (.fault 3 level)
/-- Translates the 64 KiB page that holds a CVA. -/
def State.transPage (s : State) (c : Context) (cva acc : Nat) : Trans :=
  if 2 ^ 52 ≤ cva then .fault 5 0
  else
    let page := cva / 65536 * 65536
    let un := c.unmaps.any (fun u => u.cva ≤ page && page < u.cva + u.len)
    match s.walk c page with
    | .invalid l => .fault (if un then 6 else 0) l
    | .leaf l e =>
      if un then .fault 6 l
      else
        match permCheck acc l e with
        | some f => f
        | none => .ok (leafRegion e) (leafOff e + page % lvlSpan l) (leafZero e) (leafR e) (leafW e) (leafHint e)
/-- Translates the page of a pool handle for a context (R16, R24, R98). -/
def State.transHandle (s : State) (c : Context) (handle acc : Nat) : Trans :=
  let rid := handle / 2 ^ 44
  let off := handle % 2 ^ 44
  if rid = 0 then .fault 1 0
  else
    let ls := s.leavesOf c rid
    match s.region? rid with
    | none => .fault 0 0
    | some r =>
      if ls.isEmpty then .fault 0 0
      else if r.size * 65536 ≤ off then .fault 1 0
      else
        let rd := ls.any (fun x => leafR x.2.2)
        let wr := ls.any (fun x => leafW x.2.2)
        if acc = 0 && !rd then .fault 2 0
        else if acc != 0 && !wr then .fault 3 0
        else .ok rid (off / 65536 * 65536) false rd wr ((ls.head?.map (fun x => leafHint x.2.2)).getD 0)

/-- The extent that serves what an extent id named: migrations that have ended are followed (R56). -/
def State.liveExt (s : State) : Nat → Nat → Nat
  | 0, e => e
  | n + 1, e =>
    match s.extents.at? e with
    | some x => if x.movedTo = 0 then e else State.liveExt s n x.movedTo
    | none => e
/-- Where a region's byte lies now: the cursor of a migration decides between the extents (R55, R56). `ext` is the extent
that the request resolved (R27). -/
def State.regionPpa (s : State) (rid ext off : Nat) : Option Nat :=
  let e := s.liveExt 64 ext
  let use_ :=
    match s.region? rid with
    | some r =>
      match r.mig with
      | some m => if e = r.extent && off / 65536 < m.cursor then m.ext else e
      | none => e
    | none => e
  (s.extents.at? use_).map (fun x => s.ppaIn x off)
/-- Whether a write to a region's byte is held now: `WRITE_HOLD`, or the chunk at a migration or resynchronisation cursor (R27,
R55, R349). -/
def State.writeHeld (s : State) (rid off : Nat) : Bool :=
  match s.region? rid with
  | some r => r.writeHold || r.mig.any (fun m => off / 65536 == m.cursor && m.cursor < r.size)
      || (s.mirror.syncing && r.mirror && s.mirror.curRegion == rid && off / 65536 == s.mirror.curOff / 65536)
  | none => false
/-- A region range cut at granules of its interleave: (offset, PPA, length) with each piece inside one 128 B granule. -/
def State.granPieces (s : State) (rid ext off len : Nat) : List (Nat × Nat × Nat) :=
  if len = 0 then []
  else (List.range ((off + len - 1) / 128 - off / 128 + 1)).filterMap (fun i =>
    let g := (off / 128 + i) * 128
    let lo := max off g
    (s.regionPpa rid ext lo).map (fun p => (lo, p, min (off + len) (g + 128) - lo)))

end Sys2Proof.Machine
end

