-- ==== Sys2Proof/Machine/Home.lean ====
section
/-! DEFINITION. The home: directory, transactions, requests on one granule, responses, stash offers, atomics' data path,
mirrored writes (R57 to R77, R81, R82, R340, R432). -/

namespace Sys2Proof.Machine

/-- Changes the coherence state. -/
def State.updCoh (s : State) (f : Coherence → Coherence) : State := { s with coh := f s.coh }

/-! The directory and its cache (R60 to R66). -/

/-- The directory entry of a granule. -/
def State.dirEnt? (s : State) (g : Nat) : Option DirEnt := s.coh.dir.find? (fun e => e.gran == g)
/-- The set of a granule's entry in its hub's directory cache: its bucket modulo 131,072 (R64, log 80). -/
def State.dirSet (s : State) (g : Nat) : Nat := s.bucketOf (granHub g) g % 131072
/-- Whether a hub's directory cache holds a granule's entry. -/
def State.dirHeld (s : State) (g : Nat) : Bool := s.coh.dirCache.contains (granHub g, g)
/-- The directory cache takes a granule's entry as the most recently used of its set of 16 (R64). -/
def State.dirTouch (s : State) (g : Nat) : State :=
  let rest := s.coh.dirCache.filter (fun x => x.2 != g)
  let mine := rest.filter (fun x => x.1 == granHub g && s.dirSet x.2 == s.dirSet g)
  let rest := if 16 ≤ mine.length then rest.eraseP (fun x => some x == mine.getLast?) else rest
  s.updCoh (fun c => { c with dirCache := (granHub g, g) :: rest })
/-- Reads the two sectors of a bucket (R64). -/
def State.bucketRead (s : State) (b : Nat) (a : Acc) : Status × State :=
  let x := s.readBelow b a
  let y := x.2.readBelow (b + 64) a
  (worse x.1.st y.1.st, y.2)
/-- Looks up a granule for a partition and context tag: a miss in the directory cache reads the bucket's 128 bytes (R64, R241, R262,
R289). The status says whether the bucket could be read. -/
def State.dirFetch (s : State) (g part tag : Nat) : Status × State :=
  if s.dirHeld g then (.ok, s.dirTouch g)
  else
    let (st, s) := s.bucketRead (s.bucketPpa (granHub g) (s.bucketOf (granHub g) g)) { cls := 3, tag, part }
    (st, if st == .ok && (s.dirEnt? g).isSome then s.dirTouch g else s)
/-- Writes a granule's entry, in its place; the cache is write-through (R64). -/
def State.setDir (s : State) (e : DirEnt) : State :=
  (s.updCoh (fun c => { c with dir := c.dir.map (fun x => if x.gran = e.gran then e else x) })).dirTouch e.gran
/-- Frees a granule's entry and clears the remote-copy bits (R66). -/
def State.freeDir (s : State) (g : Nat) : State :=
  if (s.dirEnt? g).isSome then
    (s.updCoh (fun c => { c with dir := c.dir.filter (fun x => x.gran != g),
                                 dirCache := c.dirCache.filter (fun x => x.2 != g) })).setRemote g false
  else s
/-- Whether a granule can take an entry now: it has one, or its bucket has room. -/
def State.dirRoom (s : State) (g : Nat) : Bool :=
  (s.dirEnt? g).isSome || decide ((s.bucket (granHub g) (s.bucketOf (granHub g) g)).length < 8)
/-- Records the owner of a granule that no one else then shares. A granule without an entry takes the lowest free slot of its
bucket (DESIGN CHOICE, log 81), and the remote-copy bits are set (R61, R66); an entry in coarse form stays so (R63). The atomic
unit gives the granule up (R77). -/
def State.newDir (s : State) (r : HomeReq) (st : DirState) (owner : Option Nat) : State :=
  let g := r.ppa / 128
  match s.dirEnt? g with
  | some e => s.setDir { e with st, owner, ptrs := [none, none, none, none], bits := 0 }
  | none =>
    let s := s.atomDrop g
    let h := granHub g
    let b := s.bucketOf h g
    let used := (s.bucket h b).map (·.slot)
    let slot := ((List.range 8).find? (fun i => !used.contains i)).getD 0
    let e : DirEnt := { hub := h, bucket := b, slot, gran := g, region := r.region, roff := r.roff / 128 * 128, st, owner }
    ((s.updCoh (fun c => { c with dir := e :: c.dir })).dirTouch g).setRemote g true

/-- Whether an agent is registered. -/
def State.agent? (s : State) (a : Nat) : Option Agent := s.coh.agents.at? a
/-- Whether an agent is registered and its lease is current (R78). -/
def State.agentLive (s : State) (a : Nat) : Bool := (s.agent? a).any (fun x => x.lease == .current)
/-- The sharers of an entry: exact pointers, or in coarse form every registered agent of a set bit, without the owner
(R63). -/
def State.sharers (s : State) (e : DirEnt) : List Nat :=
  if e.coarse then
    ((bitsOf e.bits.toNat 64).flatMap (fun i => (List.range 64).map (fun k => 64 * i + k))).filter
      (fun a => (s.agent? a).isSome && e.owner != some a)
  else e.ptrs.filterMap id
/-- Whether an entry lists an agent as owner or sharer. -/
def DirEnt.lists (e : DirEnt) (a : Nat) : Bool :=
  e.owner == some a || (if e.coarse then e.bits.getLsbD (a / 64) else e.ptrs.contains (some a))
/-- Records a sharer, in the first free pointer (log 81), or in coarse form when the pointers are full (R63). -/
def DirEnt.addSharer (e : DirEnt) (a : Nat) : DirEnt :=
  if e.owner == some a || e.lists a then e
  else if e.coarse then { e with bits := e.bits ||| (1#64 <<< (a / 64)) }
  else if e.ptrs.contains none then { e with ptrs := e.ptrs.set (e.ptrs.findIdx (· == none)) (some a) }
  else
    { e with coarse := true, ptrs := [none, none, none, none],
             bits := (a :: e.ptrs.filterMap id).foldl (fun b x => b ||| (1#64 <<< (x / 64))) 0 }
/-- Removes a sharer from an entry in exact form. -/
def DirEnt.dropSharer (e : DirEnt) (a : Nat) : DirEnt :=
  if e.coarse then e else { e with ptrs := e.ptrs.map (fun p => if p = some a then none else p) }
/-- Whether no copy remains (R63). -/
def DirEnt.bare (e : DirEnt) : Bool := e.owner.isNone && (if e.coarse then e.bits == 0 else e.ptrs.all (·.isNone))
/-- The entry after its O owner has written back: DS with F the first valid exact pointer, or none (Table 03-7). The first is the
pointer at the lowest bits (DESIGN CHOICE, log 81). -/
def DirEnt.toDS (e : DirEnt) : DirEnt :=
  if e.coarse then { e with st := .ds, owner := none }
  else
    match e.ptrs.find? (·.isSome) with
    | some (some f) => ({ e with st := .ds, owner := none } : DirEnt).dropSharer f |> fun e => { e with owner := some f }
    | _ => { e with st := .ds, owner := none }
/-- Recorded copies, for the choice of a victim (R65). -/
def DirEnt.copies (e : DirEnt) : Nat :=
  b2n e.owner.isSome + (if e.coarse then 64 * (bitsOf e.bits.toNat 64).length else (e.ptrs.filterMap id).length)
/-- Writes an entry, or frees it when no copy remains (R63). -/
def State.keepDir (s : State) (e : DirEnt) : State := if e.bare then s.freeDir e.gran else s.setDir e

/-! Transactions. -/

/-- Whether a granule has an open transaction. -/
def State.busyGran (s : State) (g : Nat) : Bool := s.coh.txns.any (fun t => t.gran == g)
/-- Whether an operation is a `WRD` request other than `WR_BACK` (Table 03-6). -/
def HomeOp.isWrd : HomeOp → Bool
  | .wrUnc | .wrThru | .wrStash _ _ | .atomic _ _ _ => true
  | _ => false
/-- Whether an operation is the controller's own. -/
def HomeOp.own : HomeOp → Bool
  | .evict | .recall | .recallRd => true
  | _ => false
/-- The pool that a request's transaction comes from: 0 the common one, 1 that which `WRD` requests may use, 2 the trackers of
`WR_BACK`, 3 none (R68, R69). -/
def HomeOp.slotKind (o : HomeOp) : Nat := if o.own then 3 else if o.isWrd then 1 else if o = .wrBack then 2 else 0
/-- The policy of a region: WB for none. -/
def State.policy (s : State) (rid : Nat) : Nat := ((s.region? rid).map (·.policy)).getD 0
/-- Changes a transaction. -/
def State.modTxn (s : State) (id : Nat) (f : Txn → Txn) : State :=
  s.updCoh (fun c => { c with txns := c.txns.map (fun t => if t.id = id then f t else t) })
/-- Removes a transaction. -/
def State.dropTxn (s : State) (id : Nat) : State :=
  s.updCoh (fun c => { c with txns := c.txns.filter (fun t => t.id != id) })
/-- The hub on which a request's granule is homed. -/
def HomeReq.hub (r : HomeReq) : Nat := granHub (r.ppa / 128)
/-- Transactions of a hub and pool in use, by requests under way, waiting and held. -/
def State.slotsUsed (s : State) (h k : Nat) : Nat :=
  (s.coh.txns.filter (fun t => t.hub == h && t.req.op.slotKind == k)).length
  + (s.coh.waiting.filter (fun r => r.hub == h && r.op.slotKind == k)).length
  + (s.coh.held.filter (fun r => r.hub == h && r.op.slotKind == k)).length
/-- Whether a write must be held: its region holds writes, or a held request of its granule came before it (R27, R55, R432). -/
def State.mustHold (s : State) (earlier : List HomeReq) (r : HomeReq) : Bool :=
  (r.op.slotKind == 1 || r.op.slotKind == 2)
    && (s.writeHeld r.region r.roff || earlier.any (fun x => x.ppa / 128 == r.ppa / 128))
/-- Whether the requests of a packet find transactions on hub `h` (R68, R69, R432): of 8,192, 1,024 are for `WRD` requests alone,
held ones among them; `WR_BACK` has 256 trackers of its own. -/
def State.fitsHub (s : State) (rs : List HomeReq) (h : Nat) : Bool :=
  let n := fun k => (rs.filter (fun r => r.hub == h && r.op.slotKind == k)).length
  let u := s.slotsUsed h
  let held := (s.coh.held.filter (fun r => r.hub == h && r.op.slotKind == 1)).length
  let hold := (rs.filter (fun r => r.hub == h && r.op.slotKind == 1 && s.mustHold s.coh.held r)).length
  (n 0 = 0 || u 0 + n 0 ≤ 7168) && (n 0 + n 1 = 0 || u 0 + u 1 + n 0 + n 1 ≤ 8192) && (n 2 = 0 || u 2 + n 2 ≤ 256)
    && (hold = 0 || held + hold ≤ 1024)
/-- The first hub on which the requests of a packet do not find transactions. -/
def State.shortHub (s : State) (rs : List HomeReq) : Option Nat := (List.range s.hubs).find? (fun h => !s.fitsHub rs h)
/-- A packet waits in its receive buffer for transactions of a hub (R69). -/
def State.stall (s : State) (hub : Nat) (cmd : Instr) : State :=
  if s.coh.stalled.contains (hub, cmd) then s
  else s.updCoh (fun c => { c with stalled := c.stalled ++ [(hub, cmd)] })

/-- Whether an earlier ordered request of a flow has still to take effect (R228): `ord` its place among the requests taken. -/
def State.flowOpen (s : State) (h : Hdr) (ord : Nat) : Bool :=
  let before := fun (x : HomeReq) => !x.op.own && x.hdr.ordered && x.hdr.flow == h.flow && decide (x.ord < ord)
  h.ordered && (s.coh.txns.any (fun t => !t.offered && before t.req) || s.coh.waiting.any before || s.coh.held.any before)

/-- The operation that a request amounts to on an entry: `UPGRADE` from an agent that the entry does not list, or that holds E or
M, acts as `RD_OWN`; `WR_THRU` from an agent that is not the owner in DE, or in a region that is not WT, as `WR_UNCACHED` (R70). -/
def State.effOp (s : State) (r : HomeReq) (e : Option DirEnt) : HomeOp :=
  match r.op with
  | .upgrade => if e.any (fun e => e.lists r.agent && e.st != .de) then .upgrade else .rdOwn
  | .wrThru => if e.any (fun e => e.st == .de && e.owner == some r.agent) && s.policy r.region == 1 then .wrThru else .wrUnc
  | op => op
/-- The snoops that a request needs on an entry, stage by stage (Table 03-7, R65, R71). Opcodes 0x50 `SNP_INV`, 0x51 `SNP_FWD_S`,
0x52 `SNP_FWD_OWN`, 0x53 `SNP_RECALL`. -/
def State.plan (s : State) (r : HomeReq) (e : DirEnt) : List (List (Nat × AwaitKind × Nat)) :=
  let sh := (s.sharers e).filter (fun a => a != r.agent)
  let f := e.owner.toList.filter (fun a => a != r.agent)
  let inv := fun (l : List Nat) => l.map (fun a => (a, AwaitKind.inv, 0x50))
  let ask := fun (k : AwaitKind) (op : Nat) => e.owner.toList.map (fun o => (o, k, op))
  match s.effOp r (some e), e.st with
  | .rdShared, _ => [ask .fwd 0x51]
  | .rdOwn, .ds => [inv (sh ++ f)]
  | .rdOwn, .de => [ask .fwd 0x52]
  | .rdOwn, .dO => [inv sh, ask .fwd 0x52]
  | .upgrade, _ => [inv (sh ++ f)]
  | .rdUnc, .ds | .recallRd, .ds => []
  | .rdUnc, _ | .recallRd, _ => [ask .snp 0x53]
  | .wrThru, _ | .wrBack, _ | .cleanEvict, _ => []
  | _, .ds => [inv (sh ++ f)]
  | _, .de => [ask .snp 0x53]
  | _, .dO => [ask .snp 0x53, inv sh]
/-- The invalidations of a granule that is lost: every live sharer but the requester and those asked already (R81 step 3). -/
def State.lostStage (s : State) (t : Txn) : List (List (Nat × AwaitKind × Nat)) :=
  match s.dirEnt? t.gran with
  | some e => [((s.sharers e).filter (fun a => a != t.req.agent && !t.asked.contains a && s.agentLive a)).map
      (fun a => (a, AwaitKind.inv, 0x50))]
  | none => []
/-- Whether an agent's absence loses a granule: it is the owner in DE or DO of a WB region (R81). -/
def State.losesWith (s : State) (t : Txn) (a : Nat) : Bool :=
  (s.dirEnt? t.gran).any (fun e => e.owner == some a && e.st != DirState.ds) && s.policy t.req.region == 0
    && t.req.op != .wrBack && t.req.op != .cleanEvict

/-- Memory access of a request on its granule. -/
def HomeReq.acc (r : HomeReq) : Acc :=
  { cls := if r.op.own then 0 else 2, tag := r.tag, part := r.part, join := r.join, cold := r.cold }
/-- Writes a granule as lost (R82), counted for its owner's partition and for agent `a` (R83). -/
def State.writeLost (s : State) (g a : Nat) : State :=
  let acc : Acc := { cls := 0 }
  let (_, s) := s.writeBytes (g * 128) ((lostPattern ++ lostPattern).map (fun b => (b, true))) acc
  let hub := granHub g
  let s := match s.unitOf (g * 128) with
    | some u => s.log 6 u (g * 128) 1 4 [] none
    | none => s
  let pt := s.ownerPart (g * 128)
  s.updCoh (fun c => { c with
    lost := c.lost.upd hub 0 (· + 1),
    agents := c.agents.mod a (fun x => { x with
      lost := x.lost + 1
      lostBy := match pt with
        | some p => x.lostBy.upd p 0 (· + 1)
        | none => x.lostBy }) })

/-! Mirrored writes (R340, R341, R349). -/

/-- Whether a write at a region offset is forwarded to the partner: the active to its standby; a serving controller that
resynchronises its partner, below the cursor. -/
def State.forwards (s : State) (rid off : Nat) : Bool :=
  (s.region? rid).any (·.mirror) &&
  (s.mirror.role == .active && !s.mirror.syncing
    || s.mirror.syncing && (rid < s.mirror.curRegion || (rid == s.mirror.curRegion && off < s.mirror.curOff)))
/-- Whether this controller does not serve mirrored contexts (R339, R346). -/
def State.mirrorIdle (s : State) : Bool :=
  s.mirror.role == .standby || s.mirror.role == .standbySync || s.mirror.role == .fenced
/-- Whether a port serves as a pair port: it is up with MIRROR in use (R173). -/
def Port.pairs (q : Port) : Bool := q.isUp && bit q.feat 2
/-- The usable pair ports, ascending. -/
def State.pairPorts (s : State) : List Nat := s.mirror.ports.filter (fun p => (s.port p).pairs)
/-- Sends a pair message on the pair port that a handle's hash chooses (R340). -/
def State.pairSend (s : State) (handle op tag : Nat) (msg : Msg) (data : List Byte) (poison : Bool) : State :=
  match s.weightedPick s.pairPorts (crc32c (leBytes 8 handle)) with
  | none => s
  | some p =>
    let h : Hdr := { addr := handle, incClaim := s.mirror.claim, dstNode := s.mirror.partner, srcNode := s.node, tag,
                     msgLen := data.length, opcode := op, ordered := s.ordClass 0, poison, last := true }
    s.egress p 65 { hdr := h.sized data.length, msg, data }
/-- Forwards changed bytes of a mirrored region; the forward awaits its `MIR_ACK`. -/
def State.forward (s : State) (rid off : Nat) (bs : List (Byte × Bool)) (join pub : Nat) (desc : Option (Nat × BitVec 32)) :
    State :=
  let (t, s) := s.newTag s.mirror.partner
  let s := { s with mirror := { s.mirror with forwards := s.mirror.forwards ++ [({ tag := t, join, pub, desc } : Forward)] } }
  s.pairSend (rid * 2 ^ 44 + off) 0x76 t (.mirFwd false) (bs.map (·.1)) (bs.any (·.2))

/-! Answers. -/

/-- The pool handle of a request's granule (R67). -/
def HomeReq.handle (r : HomeReq) : Nat := r.region * 2 ^ 44 + r.roff / 128 * 128
/-- The claim that a response in a mirrored region or context carries (R342), none elsewhere. -/
def State.claimOf (s : State) (rid tag : Nat) : Option Nat :=
  if (s.region? rid).any (·.mirror) || (s.ctx? (tagNum tag)).any (·.mirror) then some s.mirror.claim else none
/-- `DATA` of one granule: status, granted state (0 S, 1 F, 2 E, 3 M, 4 UC), bytes, in packets of one poison each (R67, R265). -/
def State.sendData (s : State) (r : HomeReq) (st : Status) (state : Nat) (bs : List (Byte × Bool)) : State :=
  (cutRun r.handle bs).foldl (fun s x =>
    s.replyPart r.port r.part r.hdr 0x58 (.data st.code state) x.2.1 x.2.2 (r.handle + x.1) (s.claimOf r.region r.tag)
      bs.length (x.1 + x.2.1.length == bs.length)) s
/-- The pool handle of a byte of a request, by its offset; a byte of a ZERO leaf has none, and its address stands there (log 82). -/
def Join.handleAt (j : Join) (o : Nat) : Nat :=
  match j.handles.reverse.find? (fun x => x.1 ≤ o) with
  | some x => x.2 + (o - x.1)
  | none => j.hdr.addr + o
/-- The answer of a finished join: `DATA` UC in packets of one poison each (R265), the message's `CMP` (R230), a `CMP`, a `WB_ACK`,
or none. -/
def State.answerJoin (s : State) (j : Join) : State :=
  let cl := if j.status == .staleClaim then some s.mirror.highest else s.claimOf j.region j.hdr.ctxTag
  match j.kind with
  | 0 =>
    let s := s.modMsg j.hdr.key (fun m => { m with result := max m.result j.result })
    let res := ((s.msg? j.hdr.key).map (·.result)).getD 0
    (match s.msgDone j.hdr j.status with
      | (some (st, true), s) => s.cmp j.port j.part j.hdr st res cl
      | (_, s) => s)
  | 1 =>
    let bs := (sortBy (fun a b => a.1 ≤ b.1) j.parts).flatMap (·.2)
    (cutRun j.hdr.addr bs).foldl (fun s x =>
      s.replyPart j.port j.part j.hdr 0x58 (.data j.status.code 4) x.2.1 x.2.2 (j.handleAt x.1) cl bs.length
        (x.1 + x.2.1.length == bs.length)) s
  | 5 => s.reply j.port j.part j.hdr 0x5E (.wbAck j.status.code) [] false (j.handleAt 0) cl
  | 6 => s
  | _ => s.cmp j.port j.part j.hdr j.status j.result cl
/-- Closes a join whose pieces are done, whose forwards are acknowledged, and whose bytes are in memory (R429). -/
def State.closeJoin (s : State) (id : Nat) : State :=
  match s.coh.joins.at? id with
  | none => s
  | some j =>
    if j.left = 0 && j.fwd = 0 && !s.queuedFor (fun e => e.join == id) then
      (s.updCoh (fun c => { c with joins := c.joins.del id })).answerJoin j
    else s
/-- A piece of a join is done. -/
def State.pieceDone (s : State) (id : Nat) (st : Status) (f : Join → Join) : State :=
  (s.updCoh (fun c => { c with joins := c.joins.mod id (fun j =>
    let j := f j
    { j with left := j.left - 1, status := if j.status == .ok then st else if st == .ok then j.status else worse j.status st }) })
    ).closeJoin id
/-- Adds an open forward to a join. -/
def State.joinForward (s : State) (id : Nat) : State :=
  s.updCoh (fun c => { c with joins := c.joins.mod id (fun j => { j with fwd := j.fwd + 1 }) })

/-! Atomics (R75 to R77). -/

/-- The IEEE 754 sum of two bit patterns with `e` exponent and `m` fraction bits, to nearest even, subnormals kept; a NaN
result is the quiet NaN with sign 0 and only the top payload bit set (Table 03-9). -/
def fpAdd (e m a b : Nat) : Nat :=
  let inf := (2 ^ e - 1) * 2 ^ m
  let nan := inf + 2 ^ (m - 1)
  let sg := fun (x : Nat) => decide (x / 2 ^ (e + m) % 2 = 1)
  let mag := fun (x : Nat) => x % 2 ^ (e + m)
  let isNan := fun (x : Nat) => decide (inf < mag x)
  let isInf := fun (x : Nat) => decide (mag x = inf)
  -- the value as an integer multiple of the least subnormal
  let val := fun (x : Nat) =>
    let ex := mag x / 2 ^ m
    let fr := mag x % 2 ^ m
    if ex = 0 then fr else (2 ^ m + fr) * 2 ^ (ex - 1)
  if isNan a || isNan b then nan
  else if isInf a && isInf b then if sg a = sg b then a else nan
  else if isInf a then a
  else if isInf b then b
  else
    let sum : Int := (if sg a then -((val a : Nat) : Int) else ((val a : Nat) : Int)) + (if sg b then -((val b : Nat) : Int) else ((val b : Nat) : Int))
    let n := sum.natAbs
    if n = 0 then if sg a && sg b then 2 ^ (e + m) else 0
    else
      let sign := if sum < 0 then 2 ^ (e + m) else 0
      let l := Nat.log2 n
      if l ≤ m then sign + n
      else
        let sh := l - m
        let q := n / 2 ^ sh
        let rem := n % 2 ^ sh
        let half := 2 ^ (sh - 1)
        let q := if half < rem || (rem = half && q % 2 = 1) then q + 1 else q
        let bits := (sh + 1) * 2 ^ m + (q - 2 ^ m)
        sign + min bits inf
/-- Bytes of an atomic's operand. -/
def widthBytes : Width → Nat
  | .int b => b / 8
  | .fp32 => 4
  | .fp16 | .bf16 => 2
/-- The operand sign-extended. -/
def toSigned (bits x : Nat) : Int := if x < 2 ^ (bits - 1) then x else (x : Int) - ((2 ^ bits : Nat) : Int)
/-- The value that an atomic writes (Table 03-9), none for a code or width that the table does not give. -/
def atomicOp (op : Nat) (w : Width) (old : Nat) (args : List Nat) : Option Nat :=
  let x := args.getD 0 0
  match w with
  | .int b =>
    if !([8, 16, 32, 64, 128].contains b) then none
    else
      let x := x % 2 ^ b
      match op with
      | 0 => some ((old + x) % 2 ^ b)
      | 1 => some (if toSigned b x < toSigned b old then x else old)
      | 2 => some (if toSigned b old < toSigned b x then x else old)
      | 3 => some (min old x)
      | 4 => some (max old x)
      | 5 => some x
      | 6 => some (if old = x then args.getD 1 0 % 2 ^ b else old)
      | _ => none
  | .fp32 => if op = 7 then some (fpAdd 8 23 old (x % 2 ^ 32)) else none
  | .fp16 => if op = 7 then some (fpAdd 5 10 old (x % 2 ^ 16)) else none
  | .bf16 => if op = 7 then some (fpAdd 8 7 old (x % 2 ^ 16)) else none
/-- The atomic unit takes a granule as the most recently used of its pipe, which PPA bit 7 selects: 2,048 granules in each of a
hub's two pipes (R77, log 79). The granule that gives way is written back. -/
def State.atomPut (s : State) (l : AtomLine) : State :=
  let rest := s.coh.atomicUnit.filter (fun x => x.gran != l.gran)
  let pipe := rest.filter (fun x => granHub x.gran == granHub l.gran && x.gran % 2 == l.gran % 2)
  let s := if 2048 ≤ pipe.length then (match pipe.getLast? with
    | some v => s.atomDrop v.gran
    | none => s) else s
  s.updCoh (fun c => { c with atomicUnit := l :: c.atomicUnit.filter (fun x => x.gran != l.gran) })
/-- A granule's line in the atomic unit, filled from memory when it holds none (R77, R241, R269). -/
def State.atomFill (s : State) (r : HomeReq) : AtomLine × Status × State :=
  let g := r.ppa / 128
  match s.atomLine g with
  | some l => (l, .ok, s)
  | none =>
    let s := [g * 128, g * 128 + 64].foldl (fun s a => s.kettleForce a) s
    let (bs, st, s) := s.readBytes (g * 128) 128 { r.acc with cls := 3, served := true }
    ({ gran := g, data := bs }, st, s)
/-- Executes an atomic in the atomic unit: status, prior value, and the state (R75 to R77). A poisoned target sector stops it. -/
def State.atomicAt (s : State) (r : HomeReq) (op : Nat) (w : Width) (args : List Nat) : Status × Nat × State :=
  let (l, st, s) := s.atomFill r
  let o := r.ppa % 128
  let sec := (l.data.drop (o / 64 * 64)).take 64
  if st == .pcFrozen then (.pcFrozen, 0, s)
  else if sec.any (·.2) then (secStatus (sec.map (·.1)) true, 0, s)
  else
    match atomicOp op w (leNat (((l.data.drop o).take (widthBytes w)).map (·.1))) args with
    | none => (.badArg, 0, s)
    | some v =>
      let old := leNat (((l.data.drop o).take (widthBytes w)).map (·.1))
      let new := (leBytes (widthBytes w) v).map (fun b => (b, false))
      let s := s.atomPut { l with data := l.data.take o ++ new ++ l.data.drop (o + widthBytes w)
                                  dirty := l.dirty ||| (1#2 <<< (o / 64)) }
      let s := if s.forwards r.region r.roff then (s.forward r.region r.roff new r.join 0 none).joinForward r.join else s
      (.ok, old, s)

/-! Completing a transaction. -/

/-- The bytes that a write request puts at its PPA: the whole piece, or the masked bytes as runs. -/
def HomeReq.runs (r : HomeReq) : List (Nat × List (Byte × Bool)) :=
  match r.op with
  | .wrThru => ((List.range r.len).filter (fun i => r.mask.testBit i)).map (fun i => (i, [(r.data.getD i 0, r.poison)]))
  | _ => [(0, r.data.map (fun b => (b, r.poison)))]
/-- POISON_CREATED, detail 5 (Table 11-3, R265, R276): one record for each sector that a poisoned write's bytes touch. -/
def State.poisonMade (s : State) (r : HomeReq) : State :=
  match s.unitOf r.ppa with
  | none => s
  | some u => ((r.runs.flatMap (fun w => (sectorsOf (r.ppa + w.1) w.2.length).map (·.1))).eraseDups).foldl
      (fun s sec => s.log 6 u sec 1 5 [] (some r.tag)) s
/-- The runs of a write, one after the other. -/
def State.writeRuns (s : State) (r : HomeReq) : Status × State :=
  r.runs.foldl (fun (x : Status × State) w =>
    let (st, s) := x.2.writeBytes (r.ppa + w.1) w.2 r.acc
    let s := if s.forwards r.region (r.roff + w.1) then
        (s.forward r.region (r.roff + w.1) w.2 r.join 0 none).joinForward r.join else s
    (if x.1 == .ok then st else x.1, s)) (.ok, s)
/-- Executes a write at memory. A packet with `POISON` poisons every sector it touches and completes `ST_OK` (R265). -/
def State.writeAt (s : State) (r : HomeReq) : Status × State :=
  let x := s.writeRuns r
  (x.1, if r.poison && x.1 == .ok then x.2.poisonMade r else x.2)
/-- Grants a copy of the request's granule from memory (Table 03-7). -/
def State.grant (s : State) (r : HomeReq) (e : Option DirEnt) (st : DirState) (state : Nat) : State :=
  let (bs, res, s) := s.readBytes (r.ppa / 128 * 128) 128 { r.acc with served := true }
  if res == .pcFrozen then s.sendData r res 4 bs
  else
    let s := match st, e with
      | .ds, some e => s.setDir { e.dropSharer r.agent with owner := some r.agent }
      | _, _ => s.newDir r st (some r.agent)
    s.sendData r res state bs
/-- `DATA` UC of the request's granule (R58). -/
def State.dataUc (s : State) (r : HomeReq) : State :=
  let (bs, st, s) := s.readBytes (r.ppa / 128 * 128) 128 { r.acc with served := true }
  s.sendData r st 4 bs
/-- `GRANT` E or M of an upgrade. -/
def State.sendGrant (s : State) (r : HomeReq) (state : Nat) : State :=
  s.reply r.port r.part r.hdr 0x59 (.grant Status.ok.code state) [] false r.handle (s.claimOf r.region r.tag)
/-- An uncached read's piece from memory. -/
def State.readPiece (s : State) (r : HomeReq) : State :=
  let (bs, st, s) := s.readBytes r.ppa r.len { r.acc with served := true }
  s.pieceDone r.join st (fun j => { j with parts := (r.off, bs) :: j.parts })
/-- Whether a stash offer is due after a write, to which agent and in which state: 0 S, 2 E (R74). -/
def State.stashOffer (s : State) (r : HomeReq) : Option (Nat × Nat) :=
  match r.op with
  | .wrStash target offer =>
    if r.len = 128 && s.policy r.region != 2 && s.agentLive target && (s.dirEnt? (r.ppa / 128)).isNone then
      some (target, if offer = 1 then 2 else 0) else none
  | _ => none
/-- The answer of a request that ends with a status and no other effect. -/
def State.failReq (s : State) (r : HomeReq) (st : Status) : State :=
  match r.op with
  | .evict | .recall | .recallRd => s
  | .rdUnc =>
    s.pieceDone r.join st (fun j => { j with parts := (r.off, (List.range r.len).map (fun i =>
      (Config.garbled ((r.ppa + i) / 64 * 64) (2 ^ 576) ((r.ppa + i) % 64), true))) :: j.parts })
  | .rdShared | .rdOwn | .upgrade | .cleanEvict => s.refuse r.port r.part r.hdr st (s.claimOf r.region r.tag)
  | _ => s.pieceDone r.join st id

/-- What a transaction does next: it is done, it goes on, it waits, or a victim of its bucket is evicted first. -/
inductive TxnNext where
  | done
  | again
  | wait_
  | evict (v : DirEnt)
  deriving DecidableEq, Repr

/-- Completes a transaction whose granule is lost: the entry is freed and the request ends `ST_LINE_LOST` (R81 step 3). -/
def State.completeLost (s : State) (t : Txn) : State :=
  let r := t.req
  let s := (s.writeLost t.gran (((s.dirEnt? t.gran).bind (·.owner)).getD 0xFFFF)).freeDir t.gran
  match r.op with
  | .evict => s.updCoh (fun c => { c with backInv := c.backInv.upd t.hub 0 (· + 1) })
  | .recall | .recallRd | .wrBack | .cleanEvict => s
  | .rdUnc => s.readPiece r
  | .rdShared | .rdOwn | .upgrade => s.cmp r.port r.part r.hdr .lineLost 0 (s.claimOf r.region r.tag)
  | _ => s.pieceDone r.join .lineLost id
/-- `RD_SHARED` once its forward, if any, is answered. -/
def State.endShared (s : State) (t : Txn) (e : Option DirEnt) : State :=
  let r := t.req
  match e with
  | none => s.grant r none .de 2
  | some e =>
    if t.left = 0 then
      match e.st with
      | .de => s.grant r (some e) .de 2
      | _ => (s.setDir { e with st := .ds, owner := none }).grant r (some { e with st := .ds, owner := none }) .ds 1
    else
      let e' : DirEnt := { e with st := if t.left = 4 then .dO else .ds }
      let e' := if t.left = 3 || t.left = 4 then e'
        else if t.left = 2 then (match e.owner with
          | some o => ({ e' with owner := none } : DirEnt).addSharer o
          | none => e')
        else { e' with owner := none }
      s.setDir (e'.addSharer r.agent)
/-- The copies that a read of memory leaves behind in the directory: none in DE, DS in DO (Table 03-7). -/
def State.recalledRd (s : State) (e : Option DirEnt) : State :=
  match e with
  | some e => if e.st == DirState.de then s.freeDir e.gran else if e.st == DirState.dO then s.setDir e.toDS else s
  | none => s
/-- Completes a transaction whose responses are all in, by Table 03-7; `e` the entry that it found. -/
def State.complete (s : State) (t : Txn) (e : Option DirEnt) : TxnNext × State :=
  let r := t.req
  let g := t.gran
  match s.effOp r e with
  | .rdShared => (.done, if s.policy r.region = 2 then s.dataUc r else s.endShared t e)
  | .rdOwn =>
    (.done, if s.policy r.region = 2 then s.dataUc r
      else if t.left != 0 then s.newDir r .de (some r.agent)
      else s.grant r none .de 2)
  | .upgrade => (.done, (s.newDir r .de (some r.agent)).sendGrant r (if e.any (fun e => e.st == DirState.dO) then 3 else 2))
  | .rdUnc => (.done, (s.recalledRd e).readPiece r)
  | .recallRd => (.done, s.recalledRd e)
  | .wrThru =>
    let (st, s) := s.writeAt r
    (.done, s.pieceDone r.join st id)
  | .wrUnc =>
    let (st, s) := (s.freeDir g).writeAt r
    (.done, s.pieceDone r.join st id)
  | .wrStash _ _ =>
    let (st, s) := (s.freeDir g).writeAt r
    (match s.stashOffer r with
      | some (a, _) =>
        (.again, (s.modTxn t.id (fun t => { t with offered := true, stages := [[(a, .stash, 0x54)]] })).pieceDone r.join st
          (fun j => { j with result := 1 }))
      | none => (.done, s.pieceDone r.join st id))
  | .atomic op w args =>
    let (st, old, s) := (s.freeDir g).atomicAt r op w args
    (.done, s.pieceDone r.join st (fun j => { j with result := old }))
  | .evict => (.done, (s.freeDir g).updCoh (fun c => { c with backInv := c.backInv.upd t.hub 0 (· + 1) }))
  | .recall => (.done, s.freeDir g)
  | .wrBack =>
    (match e with
      | some e =>
        if e.owner = some r.agent && e.st != DirState.ds then
          let (st, s) := s.writeBytes (g * 128) (r.data.map (fun b => (b, r.poison))) r.acc
          (.done, (if e.st == DirState.de then s.freeDir g else s.setDir e.toDS).pieceDone r.join st id)
        else (.done, s.pieceDone r.join .ok id)
      | none => (.done, s.pieceDone r.join .ok id))
  | .cleanEvict =>
    let ack := fun (s : State) => s.reply r.port r.part r.hdr 0x5E (.wbAck Status.ok.code) [] false r.handle
      (s.claimOf r.region r.tag)
    (.done, match e with
      | some e =>
        if e.owner = some r.agent then
          (match e.st with
            | .ds => s.keepDir { e with owner := none }
            | .de => s.freeDir g
            | .dO => ack s)
        else ack (s.keepDir (e.dropSharer r.agent))
      | none => ack s)

/-! The course of a transaction (R64 to R66, R69, R70). -/

/-- Sends a snoop of a transaction to an agent, with the granule when it offers it; none when no tag or no port is free for it
now. -/
def State.snoop (s : State) (t : Txn) (a op : Nat) : Option State :=
  match s.agent? a with
  | none => none
  | some g =>
    if !s.tagsFree g.node 1 then none
    else
      let r := t.req
      let (tag, s) := s.newTag g.node
      let h : Hdr := { addr := r.handle, incClaim := s.learntInc g.node, dstNode := g.node, dstEp := g.ep, srcNode := s.node, tag,
                       opcode := op, last := true }
      let s := s.updNet (fun n => { n with own := n.own ++ [{ node := g.node, tag, opcode := op, snoop := some (t.id, a),
                                                              key := if s.ordClass 0 then some h.flow else none }] })
      if op = 0x54 then
        s.originate 65 { hdr := { h with msgLen := 128, poison := r.poison }.sized 128, data := r.data,
                         msg := .stashOffer t.id (((s.stashOffer r).map (·.2)).getD 0) }
      else s.originate 65 { hdr := h, msg := .snp t.id r.hdr.srcNode r.hdr.srcEp r.hdr.tag }
/-- Sends what can be sent of a transaction's present stage; the home answers for agents that are gone (R81). -/
def State.sendStage (s : State) (t : Txn) (st : List (Nat × AwaitKind × Nat)) (rest : List (List (Nat × AwaitKind × Nat))) :
    TxnNext × State :=
  let (left, s) := st.foldl (fun (x : List (Nat × AwaitKind × Nat) × State) a =>
    let s := x.2
    if !s.agentLive a.1 then
      if a.2.1 != .inv && s.losesWith t a.1 then
        (x.1, s.modTxn t.id (fun t => { t with lost := true }))
      else x
    else
      match s.snoop t a.1 a.2.2 with
      | some s => (x.1, s.modTxn t.id (fun t => { t with await := t.await ++ [(a.1, a.2.1)], asked := a.1 :: t.asked }))
      | none => (x.1 ++ [a], s)) ([], s)
  let lost := !t.lost && s.coh.txns.any (fun x => x.id == t.id && x.lost)
  let s := s.modTxn t.id (fun x => { x with stages := if lost then s.lostStage x else left :: rest })
  (if left.isEmpty || lost then .again else .wait_, s)
/-- The sectors that a request reads before the home looks at the directory (R66): for an atomic those of the atomic unit's fill. -/
def HomeReq.probe (r : HomeReq) : List Nat :=
  match r.op with
  | .rdShared | .rdOwn | .upgrade | .atomic _ _ _ => [r.ppa / 128 * 128, r.ppa / 128 * 128 + 64]
  | _ => (sectorsOf r.ppa r.len).map (·.1)
/-- Queues a transaction's reads (R241). -/
def State.requestMem (s : State) (t : Txn) : State :=
  let a : Acc := { t.req.acc with txn := some t.id, cls := (match t.req.op with
    | .atomic _ _ _ => 3
    | _ => 2) }
  (t.req.probe.foldl (fun s x => s.requestBelow x a) s).modTxn t.id (fun t => { t with mem := true })
/-- Whether a transaction's reads still wait in a queue. -/
def State.memWaits (s : State) (t : Txn) : Bool := s.queuedFor (fun e => e.txn == some t.id)
/-- Consults the directory: the snoops that the request needs, or, when an owner is gone that may have held dirty data, the
invalidations of a lost granule (R70, R81). A bucket that cannot be read ends the request (R262). -/
def State.consult (s : State) (t : Txn) : TxnNext × State :=
  let (st, s) := s.dirFetch t.gran t.req.part t.req.tag
  if st != .ok && !t.req.op.own then (.done, s.failReq t.req st)
  else
    match s.dirEnt? t.gran with
    | none => (.again, s.modTxn t.id (fun t => { t with looked := 2 }))
    | some e =>
      let lost := e.owner.any (fun o => !s.agentLive o && s.losesWith t o)
      (.again, s.modTxn t.id (fun t => { t with looked := 2, lost, stages := if lost then s.lostStage t else s.plan t.req e }))
/-- The home looks whether other copies may exist (R66): never for a UC region; from the remote-copy bits of the sectors that a
read or an atomic reads; for an uncached write from the directory cache, and on a miss from its target sectors' bits. Sectors that
cannot be read leave the bit unknown, and the directory is consulted. -/
def State.look (s : State) (t : Txn) : TxnNext × State :=
  let r := t.req
  let skip := (TxnNext.again, s.modTxn t.id (fun t => { t with looked := 1 }))
  let probe :=
    if !t.mem then (TxnNext.again, s.requestMem t)
    else if s.memWaits t then (.wait_, s)
    else
      let (known, s) := r.probe.foldl (fun (x : Bool × State) sec =>
        let (d, s) := x.2.readBelow sec { r.acc with served := true }
        (x.1 && !d.remote && d.st != .pcFrozen && (s.unitOf sec).all (fun u => !s.absentAt u sec), s)) (true, s)
      if known then (.again, s.modTxn t.id (fun t => { t with looked := 1 })) else s.consult t
  if !r.op.own && s.policy r.region = 2 then skip
  else
    match r.op with
    | .rdShared | .rdOwn | .rdUnc => probe
    | .atomic _ _ _ => if (s.atomLine t.gran).isSome then skip else probe
    | .wrUnc | .wrThru | .wrStash _ _ => if s.dirHeld t.gran then s.consult t else probe
    | .upgrade | .cleanEvict | .wrBack | .evict | .recall | .recallRd => s.consult t
/-- Whether a request may need a new directory entry (R65). -/
def State.wantsEntry (s : State) (r : HomeReq) : Bool :=
  (match r.op with
    | .rdShared | .rdOwn | .upgrade => true
    | _ => false) && s.policy r.region != 2 && !s.dirRoom (r.ppa / 128)
/-- The victim of a full bucket: the fewest copies among entries that no open transaction uses, the lowest slot on a tie
(R65). -/
def State.victim (s : State) (h b : Nat) : Option DirEnt :=
  ((s.bucket h b).filter (fun e => !s.busyGran e.gran)).foldl (fun v e =>
    match v with
    | none => some e
    | some x => if e.copies < x.copies || (e.copies = x.copies && e.slot < x.slot) then some e else some x) none
/-- A transaction waits for a slot of its bucket: one victim at a time is evicted (R65). -/
def State.room (s : State) (t : Txn) : TxnNext × State :=
  let b := s.bucketOf t.hub t.gran
  if s.coh.txns.any (fun x => x.req.op == .evict && x.hub == t.hub && s.bucketOf x.hub x.gran == b) then (.wait_, s)
  else
    match s.victim t.hub b with
    | some v => (.evict v, s)
    | none => (.wait_, s)
/-- Whether completing a transaction reads memory that has not been asked for: `UPGRADE` that acts as `RD_OWN`. -/
def State.readsLate (s : State) (t : Txn) (e : Option DirEnt) : Bool :=
  !t.mem && t.left == 0 && (match t.req.op with
    | .rdShared | .rdOwn | .rdUnc => true
    | .upgrade => s.effOp t.req e == .rdOwn
    | .atomic _ _ _ => (s.atomLine t.gran).isNone
    | _ => false)
/-- The tags that a mirrored write needs towards the partner (R340). -/
def State.fwdTags (s : State) (r : HomeReq) : Nat := if r.op.isWrd && s.forwards r.region r.roff then r.runs.length else 0
/-- One step of a transaction. -/
def State.stepTxn (s : State) (t : Txn) : TxnNext × State :=
  if t.looked = 0 then s.look t
  else
    match t.stages with
    | [] :: rest =>
      if t.await.isEmpty then (.again, s.modTxn t.id (fun t => { t with stages := rest })) else (.wait_, s)
    | st :: rest => s.sendStage t st rest
    | [] =>
      let e := if t.looked = 2 then s.dirEnt? t.gran else none
      if !t.await.isEmpty then (.wait_, s)
      else if t.offered then
        match t.taken, t.req.op with
        | some st, .wrStash target _ =>
          if s.dirRoom t.gran then (.done, s.newDir t.req st (some target)) else s.room t
        | _, _ => (.done, s)
      else if t.lost then (.done, s.completeLost t)
      else if s.readsLate t e then (.again, s.requestMem t)
      else if s.memWaits t || !s.tagsFree s.mirror.partner (s.fwdTags t.req) then (.wait_, s)
      else if s.wantsEntry t.req then s.room t
      else s.complete t e
/-- What an opcode of a snoop awaits. -/
def snoopKind (op : Nat) : AwaitKind := if op = 0x50 then .inv else if op = 0x53 then .snp else if op = 0x54 then .stash else .fwd
/-- A snoop that did not reach its agent is sent again (R229, log 86). -/
def State.resnoop (s : State) (o : OwnMsg) : State :=
  match o.snoop with
  | none => s
  | some (id, a) =>
    s.modTxn id (fun t =>
      if t.await.contains (a, snoopKind o.opcode) then
        { t with await := t.await.erase (a, snoopKind o.opcode), stages := [(a, snoopKind o.opcode, o.opcode)] :: t.stages }
      else t)
/-- Opens a transaction. -/
def State.openTxn (s : State) (r : HomeReq) : State :=
  let g := r.ppa / 128
  let s := match r.op with
    | .atomic _ _ _ => s
    | _ => s.atomDrop g
  s.updCoh (fun c => { c with
    txns := c.txns ++ [{ id := c.nextTxn, hub := granHub g, gran := g, req := r, wrd := r.op.isWrd, await := [] }]
    nextTxn := c.nextTxn + 1 })
/-- Takes a transaction as far as it goes now, with fuel. -/
def State.advanceN : Nat → State → Nat → State
  | 0, s, _ => s
  | n + 1, s, id =>
    match s.coh.txns.find? (fun t => t.id == id) with
    | none => s
    | some t =>
      match s.stepTxn t with
      | (.done, s) => s.dropTxn id
      | (.wait_, s) => s
      | (.again, s) => State.advanceN n s id
      | (.evict v, s) =>
        State.advanceN n (s.openTxn { op := .evict, ppa := v.gran * 128, len := 128, region := v.region, roff := v.roff,
                                      part := t.req.part }) s.coh.nextTxn
/-- Takes a transaction as far as it goes now: a look, its stages, its reads, its completion. -/
def State.advance (s : State) (id : Nat) : State := s.advanceN 16 id
/-- Begins a request on a granule that has no open transaction. -/
def State.begin (s : State) (r : HomeReq) : State := (s.openTxn r).advance s.coh.nextTxn

/-- A request that holds a transaction takes its place: it begins, or it waits behind its granule's transaction, behind requests
that came before it, or for an earlier request of its flow (R69, R228). -/
def State.handle (s : State) (r : HomeReq) : State :=
  let g := r.ppa / 128
  if s.busyGran g || s.flowOpen r.hdr r.ord
      || s.coh.waiting.any (fun w => w.ppa / 128 == g && !s.flowOpen w.hdr w.ord) then
    s.updCoh (fun c => { c with waiting := c.waiting ++ [r] })
  else s.begin r
/-- A request that holds a transaction is held, or takes its place (R432). -/
def State.submit (s : State) (r : HomeReq) : State :=
  if s.mustHold s.coh.held r then s.updCoh (fun c => { c with held := c.held ++ [r] }) else s.handle r
/-- The requests of a packet at the home: the packet is taken once they find transactions, and waits in its receive buffer
otherwise (R69). -/
def State.take (s : State) (p : Nat) (h : Hdr) (cmd : Instr) (rs : List HomeReq) (k : State → State) : State :=
  match s.shortHub rs with
  | some hub => s.stall hub cmd
  | none =>
    rs.foldl (fun s r => s.submit r) (k (s.consume p h))
/-- Every open transaction, every waiting request and every join goes on where it can, in order. -/
def State.pump (s : State) : State :=
  let s := (s.coh.txns.map (·.id)).foldl (fun s id => s.advance id) s
  let w := s.coh.waiting
  let s := w.foldl (fun s r => s.handle r) (s.updCoh (fun c => { c with waiting := [] }))
  (s.coh.joins.map (·.1)).foldl (fun s id => s.closeJoin id) s
/-- `pump` until nothing more can begin, with fuel. -/
def State.pumpN : Nat → State → State
  | 0, s => s
  | n + 1, s =>
    let s' := s.pump
    if s'.coh = s.coh then s' else State.pumpN n s'

/-! Accesses of the controller's own (R71, R108, R310). -/

/-- Whether a granule may be read (`wr` false) or written by the controller at once: no copy in the way, no transaction
open. -/
def State.clear (s : State) (g : Nat) (wr : Bool) : Bool :=
  !s.busyGran g && !s.coh.waiting.any (fun w => w.ppa / 128 == g) &&
  (match s.dirEnt? g with
    | none => true
    | some e => !wr && e.st == .ds)
/-- Opens the recall of a granule unless one is open; what it writes back belongs to the region's partition (R289). -/
def State.recallGran (s : State) (g region roff : Nat) (wr : Bool) : State :=
  if s.busyGran g || s.clear g wr then s
  else s.begin { op := if wr then .recall else .recallRd, ppa := g * 128, len := 128, region, roff,
                 part := ((s.region? region).map (·.part)).getD 64 }
/-- Recalls every granule of a list that is in the way; whether none was. -/
def State.recallAll (s : State) (gs : List (Nat × Nat × Nat)) (wr : Bool) : Bool × State :=
  let s' := gs.foldl (fun s x => s.recallGran x.1 x.2.1 x.2.2 wr) s
  (gs.all (fun x => s'.clear x.1 wr), s')
/-- Granules of a region range in an extent: (granule, region, region offset). -/
def State.granulesOf (s : State) (rid ext off len : Nat) : List (Nat × Nat × Nat) :=
  (s.granPieces rid ext off len).map (fun x => (x.2.1 / 128, rid, x.1))

end Sys2Proof.Machine
end

