-- ==== Sys2Proof/Machine/Flocks.lean ====
section
/-! DEFINITION. Writes of packets at the home, fault reports, multicast, and the controller's own writes in order (R44, R45,
R152, R153, R234, R235, R310, R399). -/

namespace Sys2Proof.Machine

/-! Fault reports (R44 to R49, R399). -/

/-- The fault record's `INFO` and `BODY` (Table 18-6) as an event. -/
def faultEv (id tag cva cause level access : Nat) (stalled srcPort handle : Bool) (source waiters : Nat) : Ev :=
  let info := at_ cause 3 29 + at_ level 2 27 + at_ access 2 25 + at_ (if stalled then 0 else 1) 1 24
    + at_ (b2n srcPort) 1 23 + at_ (b2n handle) 1 22 + at_ (sat 16 waiters) 16 0
  { typ := 3, obj := info % 65536, status := info / 65536, ctx := some tag,
    body := at_ cva 64 64 + at_ id 32 32 + at_ source 16 16 }
/-- Takes the next fault sequence number of a hub (R45). -/
def State.faultSeq (s : State) (hub : Nat) : Nat × State :=
  let n := s.faults.seq.or hub 0
  (n, { s with faults := { s.faults with seq := s.faults.seq.put hub ((n + 1) % 2 ^ 21) } })
/-- A REPORTED fault: counted on an open entry of its key, else a record at once (R45). -/
def State.reportFault (s : State) (tag page cause level access : Nat) (srcPort handle : Bool) (source : Nat) : State :=
  let c := tagNum tag
  let hub := s.ctxHub c
  if s.faults.entries.any (fun e => e.tag == tag && e.page == page && e.handle == handle) then
    { s with faults := { s.faults with entries := s.faults.entries.map (fun e =>
        if e.tag = tag && e.page = page && e.handle = handle then { e with dropped := e.dropped + 1 } else e) } }
  else
    let (n, s) := s.faultSeq hub
    match s.ctx? c with
    | none => s
    | some x => s.postEq x.eq (faultEv (at_ hub 1 31 + 0x3FF * 2 ^ 21 + n) tag page cause level access false srcPort handle source 0)

/-! Packets at the home (R42). -/

/-- One page's part of a range: its CVA, its length, and its translation. -/
def State.pagesOf (s : State) (c : Context) (cva len acc : Nat) : List (Nat × Nat × Trans) :=
  (List.range ((cva + len - 1) / 65536 - cva / 65536 + 1)).map (fun i =>
    let pg := (cva / 65536 + i) * 65536
    let lo := max cva pg
    (lo, min (cva + len) (pg + 65536) - lo, s.transPage c lo acc))
/-- The first faulting page of a list: page CVA, cause, level. -/
def firstFault : List (Nat × Nat × Trans) → Option (Nat × Nat × Nat)
  | [] => none
  | (lo, _, .fault c l) :: _ => some (lo / 65536 * 65536, c, l)
  | _ :: r => firstFault r
/-- The pages that a CVA range touches. -/
def rangePages (cva len : Nat) : List Nat :=
  (List.range ((cva + len - 1) / 65536 - cva / 65536 + 1)).map (fun i => (cva / 65536 + i) * 65536)
/-- The granule pieces of a translated range: offset in the request, region (0 in a ZERO leaf), extent, region offset, PPA,
length. -/
def State.piecesOf (s : State) (cva : Nat) (ps : List (Nat × Nat × Trans)) : List (Nat × Nat × Nat × Nat × Nat × Nat) :=
  ps.flatMap (fun x =>
    match x.2.2 with
    | .ok rid off zero _ _ _ =>
      if zero then [(x.1 - cva, 0, 0, 0, 0, x.2.1)]
      else
        let ext := ((s.region? rid).map (·.extent)).getD 0
        let ro := off + x.1 % 65536
        (s.granPieces rid ext ro x.2.1).map (fun y => (x.1 - cva + (y.1 - ro), rid, ext, y.1, y.2.1, y.2.2))
    | .fault _ _ => [])
/-- Whether a page of the range carries the COLD hint (R52, R257). -/
def coldPages (ps : List (Nat × Nat × Trans)) : Bool :=
  ps.any (fun x => match x.2.2 with
    | .ok _ _ _ _ _ hint => hint == 2
    | .fault _ _ => false)
/-- Opens a join of `n` pieces for a packet. -/
def State.openJoin (s : State) (j : Join) : Nat × State :=
  (s.coh.nextJoin, s.updCoh (fun c => { c with joins := c.joins.put c.nextJoin j, nextJoin := c.nextJoin + 1 }))

/-- The join of a packet's pieces. -/
def pieceJoin (p : Nat) (h : Hdr) (part kind : Nat) (pcs : List (Nat × Nat × Nat × Nat × Nat × Nat)) : Join :=
  { port := p, hdr := h, part, kind, left := pcs.length, region := (pcs.head?.map (·.2.1)).getD 0,
    ext := (pcs.head?.map (·.2.2.1)).getD 0, regions := (pcs.map (·.2.1)).dedup,
    handles := pcs.map (fun x => (x.1, x.2.1 * 2 ^ 44 + x.2.2.2.1)) }
/-- The requests of a packet's pieces, of join `id`, which is also their place in the order of requests. -/
def pieceReqs (p : Nat) (h : Hdr) (part : Nat) (op : HomeOp) (agent mask : Nat) (data : List Byte) (cold : Bool)
    (pcs : List (Nat × Nat × Nat × Nat × Nat × Nat)) (id : Nat) : List HomeReq :=
  pcs.map (fun x =>
    { op, ppa := x.2.2.2.2.1, len := x.2.2.2.2.2, region := x.2.1, roff := x.2.2.2.1, ext := x.2.2.1, tag := h.ctxTag, part,
      port := p, hdr := h, agent, mask := mask >>> x.1, data := (data.drop x.1).take x.2.2.2.2.2, poison := h.poison,
      off := x.1, join := id, cold, ord := id })
/-- A write packet at the home, once it finds transactions; a write through a ZERO leaf has faulted before. -/
def State.writePieces (s : State) (p : Nat) (h : Hdr) (cmd : Instr) (part kind : Nat) (op : HomeOp) (agent mask : Nat)
    (data : List Byte) (cold : Bool) (pcs : List (Nat × Nat × Nat × Nat × Nat × Nat)) : State :=
  (s.take p h cmd (pieceReqs p h part op agent mask data cold pcs s.coh.nextJoin)
    (fun s => (s.openJoin (pieceJoin p h part kind pcs)).2)).closeJoin s.coh.nextJoin

/-! Multicast (R233 to R235). -/

/-- A flock entry's fields (Table 09-9). -/
def State.flockEnt (s : State) (f : Nat) : BitVec 128 := s.net.flocks.or f 0
/-- Counts a dropped copy, or a discarded multicast packet. -/
def State.dropCopy (s : State) : State := s.updNet (fun n => { n with flockDrops := n.flockDrops + 1 })
/-- Local delivery: a write of the payload at `ADDR` in `LOCAL_CTX`; `port` the arrival port, 0xFFFF for none. -/
def State.deliverLocal (s : State) (port tag : Nat) (h : Hdr) (data : List Byte) : State :=
  match s.ctxOfTag tag with
  | none => s.dropCopy
  | some c =>
    if c.st != .active || (c.mirror && s.mirrorIdle) then
      s.dropCopy
    else if data.isEmpty then s
    else
      let (st, s) := s.walkPages c tag (rangePages h.addr data.length)
      let ps := s.pagesOf c h.addr data.length 1
      if st != .ok then s.dropCopy
      else
        match firstFault ps with
        | some (pg, cause, lvl) => s.reportFault tag pg cause lvl 1 true false port
        | none =>
          let h := { h with ctxTag := tag, ordered := false }
          let pcs := s.piecesOf h.addr ps
          let id := s.coh.nextJoin
          ((pieceReqs 96 h c.part .wrUnc 0xFFFF 0 data (coldPages ps) pcs id).foldl (fun s r => s.submit r)
            (s.openJoin (pieceJoin 96 h c.part 6 pcs)).2).closeJoin id
/-- One copy of a multicast packet on a port. -/
def State.copyTo (s : State) (src : Nat) (pkt : Packet) (p : Nat) : State :=
  if s.usable src p then s.egress p src { pkt with hdr := { pkt.hdr with hops := pkt.hdr.hops + 1 } }
  else
    let f := pkt.hdr.dstNode % 4096
    let s := s.dropCopy
    if s.net.flockDown.contains (f, p) then s
    else (s.updNet (fun n => { n with flockDown := (f, p) :: n.flockDown })).postFm { typ := 0x17, obj := f, body := p }
/-- A multicast packet that arrived on port `p`, or is originated here (`p` 96) for source `src` (R234, R357). -/
def State.multicast (s : State) (p src : Nat) (pkt : Packet) : State :=
  let e := s.flockEnt (pkt.hdr.dstNode % 4096)
  if bfld e 127 127 = 0 || pkt.hdr.hops = 15 || s.boot.stage != 8 then s.dropCopy
  else
    let s := ((bitsOf (bfld e 95 0) 96).filter (fun q => q != p)).foldl (fun s q => s.copyTo src pkt q) s
    if bfld e 126 126 = 1 then s.deliverLocal (if p < 96 then p else 0xFFFF) (bfld e 111 96) pkt.hdr pkt.data else s
/-- A multicast packet of the controller's own. -/
def State.flockPacket (s : State) (flock tc tag addr op : Nat) (msg : Msg) (data : List Byte) (poison last : Bool) (len : Nat)
    (mtag : Nat) : Packet :=
  let h : Hdr := { addr, dstNode := flock, dstEp := 0xFF, srcNode := s.node, ctxTag := tag, tag := mtag, msgLen := len,
                   opcode := op, tc, ordered := s.ordClass tc, poison, last }
  { hdr := h.sized data.length, msg, data }
/-- The multicast writes of a byte run. -/
def State.flockWrites (s : State) (flock tc tag addr : Nat) (bs : List (Byte × Bool)) : List Packet × State :=
  let (t, s) := s.newTag (65536 + flock)
  let l := cutRun addr bs
  (l.zipIdx.map (fun x => s.flockPacket flock tc tag (addr + x.1.1) 0x12 .plain x.1.2.1 x.1.2.2 (x.2 + 1 == l.length) bs.length t), s)

/-! The controller's own writes (R71, R310, R340). -/

/-- Writes bytes at a region offset once no copy of their granules is in the way and no hold stands; whether it was done. -/
def State.ownWrite (s : State) (rid off : Nat) (bs : List (Byte × Bool)) (a : Acc) : Bool × State :=
  match s.region? rid with
  | none => (true, s)
  | some r =>
    let (ok, s) := s.recallAll (s.granulesOf rid r.extent off bs.length) true
    let pcs := s.granPieces rid r.extent off bs.length
    if !ok || pcs.any (fun g => s.writeHeld rid g.1) then (false, s)
    else
      (true, pcs.foldl (fun s g =>
        let part := (bs.drop (g.1 - off)).take g.2.2
        let (_, s) := s.writeBytes g.2.1 part a
        if s.forwards rid g.1 then s.forward rid g.1 part 0 0 none else s) s)
/-- Does one waiting item, or leaves it. -/
def State.doOwn (s : State) : OwnOut → Bool × State
  | .write part tag handle bs => s.ownWrite (handle / 2 ^ 44) (handle % 2 ^ 44) bs { part, tag }
  | .event eq ev => (true, s.postEq eq ev)
  | .flock part pkt => (true, s.multicast 96 part pkt)
  | .reply m r => (true, s.respond m r)
/-- Does every waiting item that no earlier item of its collective holds up. -/
def State.flushOwn (s : State) : State :=
  let r := s.ownOut.foldl (fun (r : State × List (Nat × Nat) × List ((Nat × Nat) × OwnOut)) x =>
    if r.2.1.contains x.1 then (r.1, r.2.1, r.2.2 ++ [x])
    else
      let (ok, s) := r.1.doOwn x.2
      if ok then (s, r.2) else (s, x.1 :: r.2.1, r.2.2 ++ [x])) ({ s with ownOut := [] }, [], [])
  { r.1 with ownOut := r.2.2 ++ r.1.ownOut }

end Sys2Proof.Machine
end

