-- ==== Sys2Proof/Machine/Settle.lean ====
section
/-! DEFINITION. The end of a command: waiting home requests try again, posted events reach their rings, and armed event
queues notify (R69, R310, R313, R315, R316). -/

namespace Sys2Proof.Machine

/-- Sends a queue's notification (R313, R315, R316). -/
def State.notify (s : State) (q : Nat) : State :=
  match s.eq? q with
  | none => s
  | some e =>
    let s := s.modEq q (fun e => { e with armed := false, fresh := 0 })
    if e.notify = 1 then
      let m := match s.fmEq with
        | some (f, v) => if f = q then (0, v) else (e.part + 1, e.vector)
        | none => (e.part + 1, e.vector)
      { s with pins := { s.pins with msix := m :: s.pins.msix } }
    else
      let h : Hdr := { addr := e.addr, incClaim := s.inc, dstNode := e.node, dstEp := e.ep, tc := e.tc, opcode := 0x13,
                       msgLen := 16, last := true }
      let body := leBytes 16 (e.pi.toNat + at_ q 12 32 + at_ s.now 64 64)
      match s.originate e.part { hdr := h.sized 16, data := body } with
      | some s => s
      | none => s.modEq q (fun e => { e with fails := sat 8 (e.fails + 1) })
/-- Notifies an armed queue whose count or age asks for it (R315). -/
def State.notifyIf (s : State) (q : Nat) (aged : Bool) : State :=
  match s.eq? q with
  | none => s
  | some e =>
    if e.armed && e.notify != 0 && decide (0 < e.fresh) && (decide (e.modCount ≤ e.fresh) || e.modTime == 0 || aged)
    then s.notify q else s
/-- Writes the oldest posted record of a queue to its ring, once no copy of its granule is in the way; the records behind
it follow, with fuel (R310). -/
def State.flushEq (q : Nat) : Nat → State → State
  | 0, s => s
  | n + 1, s =>
    match s.eq? q with
    | none => s
    | some e =>
      match e.outbox with
      | [] => s
      | rec_ :: rest =>
        let off := e.ring % 2 ^ 44 + e.pi.toNat % 2 ^ e.log2 * 32
        let (ok, s) := s.ownWrite (e.ring / 2 ^ 44) off ((leBytes 32 rec_.toNat).map (fun b => (b, false))) { part := e.part }
        if !ok then s
        else
          let s := s.modEq q (fun e => { e with pi := e.pi + 1, outbox := rest, fresh := e.fresh + 1 })
          let s := if e.notify = 1 then s.sealOut e.part 3 (leBytes 32 rec_.toNat) else s
          State.flushEq q n (s.notifyIf q false)
/-- Writes every posted record that can be written, to the rings that are not still being zeroed (R308, R326). -/
def State.flush (s : State) : State :=
  (s.eqs.filter (fun e => !e.2.outbox.isEmpty && !s.ownOut.any (fun x => x.1 == (4096 + e.1, 0)))).foldl (fun s e => State.flushEq e.1 e.2.outbox.length s) s
/-! Descriptors whose work is done (R103, R108, R112). -/

/-- Whether a forward of a descriptor's write still awaits its acknowledgement (R340). -/
def State.descForwards (s : State) (q : Nat) (i : BitVec 32) : Bool :=
  s.mirror.forwards.any (fun f => f.desc == some (q, i))
/-- Whether reads or writes of a descriptor still wait in a memory queue. -/
def State.descQueued (s : State) (q : Nat) (i : BitVec 32) : Bool := s.queuedFor (fun e => e.desc == some (q, i))
/-- Frees the engines of a descriptor. -/
def State.freeEngine (s : State) (d : Desc) : State :=
  let s : State := { s with engines := s.engines.map (fun (e : Nat × Engine) =>
    if e.2.job = some (d.q, d.i) then (e.1, { e.2 with job := none }) else e) }
  s.modDesc d.q d.i (fun d => { d with engine := none, segRuns := [] })
/-- A descriptor whose work is done, acknowledged, forwarded and in memory has finished: its engine is free, and its completion is
due (R103, R109, R112, R340, R429). An out-of-bound position shows where no other status does (R102). -/
def State.finishIf (s : State) (q : Nat) (i : BitVec 32) : State :=
  match s.desc? q i with
  | none => s
  | some d =>
    if d.phase == .started && d.moved && d.out.isEmpty && d.segs = 0 && !s.descForwards q i && !s.descQueued q i then
      (s.freeEngine d).modDesc q i (fun d => match d.oob with
        | some j => if d.status == .ok then { d with phase := .finished, status := .badArg, result := j }
            else { d with phase := .finished }
        | none => { d with phase := .finished })
    else s
/-- The end of a command. -/
def State.settle (s : State) : State :=
  let s := State.pumpN 64 s
  ((s.descs.foldl (fun s d => s.finishIf d.q d.i) s).flushOwn).flush
/-- The next state after a command's effect. -/
def settled (s : State) : Host.Outcome State Fault Refusal := .next s.settle

end Sys2Proof.Machine
end

