-- ==== Sys2Proof/Machine/Coherence.lean ====
section
/-! DEFINITION. The coherence commands: fabric requests at the home, responses, stash, atomics, leases, reclaim (R42, R57 to
R87, R331, R432). -/

namespace Sys2Proof.Machine

/-! The frame of a fabric request to endpoint 0x00. -/

/-- Whether a node and endpoint hold a valid entry of a context's rank table (R379). -/
def Context.holdsRank (c : Context) (node ep : Nat) : Bool :=
  c.ranks.any (fun e => bfld e.2 31 31 == 1 && bfld e.2 23 8 == node && bfld e.2 7 0 == ep)
/-- Why the home refuses a request before it looks at its address, first cause first (log 11): not READY (R357), incarnation
(R86, R331), context tag (R322 step 6), sender (R379), mirror role (R339, R346). -/
def State.homeGate (s : State) (h : Hdr) : Option Status :=
  if s.boot.stage != 8 then some .busy
  else if h.incClaim != s.inc then some .staleIncarnation
  else
    match s.ctxOfTag h.ctxTag with
    | none => some .ctxTornDown
    | some c =>
      if c.st != .active then some .ctxTornDown
      else if !c.holdsRank h.srcNode h.srcEp then some .notPermitted
      else if c.mirror && s.mirrorIdle then some .staleClaim
      else none
/-- Refuses a request: the counts it adds to, and its response with the claim that a mirrored context carries (R322, R339,
R342). -/
def State.deny (s : State) (p : Nat) (h : Hdr) (st : Status) : State :=
  let s := s.consume p h
  let s := s.updNet (fun n => { n with
    notRank := if s.homeGate h == some .notPermitted then n.notRank + 1 else n.notRank })
  let s := if st == .ctxTornDown then s.countOld h else s
  let s := if st == .staleClaim then { s with mirror := { s.mirror with stale := s.mirror.stale + 1 } } else s
  let claim := if st == .staleClaim then some s.mirror.highest else s.claimOf 0 h.ctxTag
  s.refuse p 65 h st claim
/-- The home's handling of a request that arrived on port `p`: refused, or `k` of its context. Only endpoint 0x00 is the home
(R219). -/
def State.atHome (s : State) (p : Nat) (h : Hdr) (k : Context → State → State) : State :=
  s.arrive p h (fun s =>
    if h.dstEp != 0 then (s.consume p h).refuse p 65 h .badArg none
    else
      match s.homeGate h with
      | some st => s.deny p h st
      | none =>
        match s.ctxOfTag h.ctxTag with
        | none => s.deny p h .ctxTornDown
        | some c => k c (s.modCtx (tagNum h.ctxTag) (fun c =>
            if h.ordered then { c with classes := addSorted c.classes h.tc } else c)))
/-- Whether a packet comes from the agent it names, registered and with its lease current (R78). -/
def State.fromAgent (s : State) (h : Hdr) (a : Nat) : Bool :=
  s.agentLive a && (s.agent? a).any (fun x => x.node == h.srcNode && x.ep == h.srcEp)

/-- A fabric request whose range translates, or its fault: a REPORTED record, and `bad_` with the status (R42). Tables that cannot
be read end it with their status (R262). -/
def State.translated (s : State) (p : Nat) (h : Hdr) (c : Context) (len acc : Nat)
    (bad_ : Status → State → State) (k : List (Nat × Nat × Trans) → State → State) : State :=
  let (st, s) := s.walkPages c h.ctxTag (rangePages h.addr len)
  let ps := s.pagesOf c h.addr len acc
  if st != .ok then bad_ st s
  else
    match firstFault ps with
    | some (pg, cause, lvl) => bad_ (causeStatus cause) (s.reportFault h.ctxTag pg cause lvl acc true false p)
    | none => k ps s

/-! Reads. -/

/-- The request of an agent on the granule that its address translates to; `zero` for a ZERO leaf, which has none. -/
def State.granReq (s : State) (p : Nat) (h : Hdr) (c : Context) (agent : Nat) (op : HomeOp) (data : List Byte)
    (ps : List (Nat × Nat × Trans)) : Option (Bool × HomeReq) :=
  match ps with
  | (cva, _, .ok rid off zero _ _ hint) :: _ =>
    let ro := off + cva % 65536 / 128 * 128
    let ext := ((s.region? rid).map (·.extent)).getD 0
    some (zero, { op, ppa := if zero then 0 else (s.regionPpa rid ext ro).getD 0, len := 128, region := rid,
                  roff := if zero then h.addr else ro, ext, tag := h.ctxTag, part := c.part, port := p, hdr := h, agent, data, poison := h.poison,
                  cold := hint == 2, ord := s.coh.nextJoin })
  | _ => none
/-- The next place in the order of requests is taken. -/
def State.tookOne (s : State) : State := s.updCoh (fun c => { c with nextJoin := c.nextJoin + 1 })
/-- A caching read or upgrade of one granule. `RD_OWN` and `UPGRADE` translate as writes, so that a leaf with `W` = 0 and a ZERO leaf
fault (DESIGN CHOICE, log 83: R42 names reads, writes and atomics only). -/
def State.cachingReq (s : State) (p : Nat) (h : Hdr) (agent : Nat) (op : HomeOp) (cmd : Instr) : State :=
  s.atHome p h (fun c s =>
    if !s.fromAgent h agent then s.deny p h .notPermitted
    else
      s.translated p h c 1 (if op = .rdShared then 0 else 1) (fun st s => s.deny p h st) (fun ps s =>
        match s.granReq p h c agent op [] ps with
        | some (true, r) => (s.consume p h).sendData r .ok 4 (List.replicate 128 (0, false))
        | some (false, r) => s.take p h cmd [r] State.tookOne
        | none => s))
/-- An uncached read (R70): its pieces, one join, `DATA` UC. A ZERO leaf reads zeros (R34). A length above 4,096 B completes
`ST_BAD_ARG` (DESIGN CHOICE, log 83: Table 03-6 gives 1 to 4,096 B and no status), a length of 0 `ST_OK_EMPTY` (R230). -/
def State.uncachedRead (s : State) (p : Nat) (h : Hdr) (cmd : Instr) : State :=
  s.atHome p h (fun c s =>
    if h.msgLen = 0 then s.deny p h .okEmpty
    else if 4096 < h.msgLen then s.deny p h .badArg
    else
      s.translated p h c h.msgLen 0 (fun st s => s.deny p h st) (fun ps s =>
        let pcs := s.piecesOf h.addr ps
        let z := pcs.filter (fun x => x.2.1 == 0)
        let m := pcs.filter (fun x => x.2.1 != 0)
        let j : Join := { pieceJoin p h c.part 1 m with
                          parts := z.map (fun x => (x.1, List.replicate x.2.2.2.2.2 (0, false))) }
        (s.take p h cmd (pieceReqs p h c.part .rdUnc 0xFFFF 0 [] (coldPages ps) m s.coh.nextJoin)
          (fun s => (s.openJoin j).2)).closeJoin s.coh.nextJoin))

/-! Writes. -/

/-- A packet of an uncached or stash write (R70, R74, R230): its bytes count towards its message, which one `CMP` answers. -/
def State.messageWrite (s : State) (p : Nat) (h : Hdr) (op : HomeOp) (data : List Byte) (cmd : Instr) : State :=
  s.atHome p h (fun c s =>
    if h.msgLen = 0 then s.deny p h .okEmpty
    else if (s.msg? h.key).isNone && s.net.closed.any (fun x => x.1 == h.key) then
      (s.msgTake p h data.length cmd).2.consume p h
    else
      s.translated p h c (max data.length 1) 1
        (fun st s =>
          match s.msgTake p h data.length cmd with
          | (.taken, s) =>
            (match (s.consume p h).msgDone h st with
              | (some (st, true), s) => s.cmp p c.part h st 0 (s.claimOf 0 h.ctxTag)
              | (_, s) => s)
          | (_, s) => s)
        (fun ps s =>
          let pcs := s.piecesOf h.addr ps
          match s.shortHub (pieceReqs p h c.part op 0xFFFF 0 data false pcs s.coh.nextJoin) with
          | some hub => s.stall hub cmd
          | none =>
            match s.msgTake p h data.length cmd with
            | (.taken, s) => s.writePieces p h cmd c.part 0 op 0xFFFF 0 data (coldPages ps) pcs
            | (_, s) => s))

/-- RD_SHARED (R70). -/
def execRdShared (p : Nat) (h : Hdr) (agent : Nat) (s : State) : Host.Outcome State Fault Refusal :=
  settled (s.cachingReq p h agent .rdShared (.rdShared p h agent))
/-- RD_OWN (R70). -/
def execRdOwn (p : Nat) (h : Hdr) (agent : Nat) (s : State) : Host.Outcome State Fault Refusal :=
  settled (s.cachingReq p h agent .rdOwn (.rdOwn p h agent))
/-- UPGRADE (R70). -/
def execUpgrade (p : Nat) (h : Hdr) (agent : Nat) (s : State) : Host.Outcome State Fault Refusal :=
  settled (s.cachingReq p h agent .upgrade (.upgrade p h agent))
/-- RD_UNCACHED (R70). -/
def execRdUncached (p : Nat) (h : Hdr) (s : State) : Host.Outcome State Fault Refusal := settled (s.uncachedRead p h (.rdUncached p h))
/-- CLEAN_EVICT (R63, R70). It translates as a read (DESIGN CHOICE, log 83). -/
def execCleanEvict (p : Nat) (h : Hdr) (agent left : Nat) (s : State) : Host.Outcome State Fault Refusal :=
  settled (s.atHome p h (fun c s =>
    if !s.fromAgent h agent then s.deny p h .notPermitted
    else
      s.translated p h c 1 0 (fun st s => s.deny p h st) (fun ps s =>
        match s.granReq p h c agent .cleanEvict [] ps with
        | some (true, r) =>
          (s.consume p h).reply p c.part h 0x5E (.wbAck Status.ok.code) [] false h.addr (s.claimOf r.region h.ctxTag)
        | some (false, r) => s.take p h (.cleanEvict p h agent left) [r] State.tookOne
        | none => s)))
/-- WR_BACK (R68, R70), a write (R429). -/
def execWrBack (p : Nat) (h : Hdr) (agent : Nat) (data : List Byte) (s : State) : Host.Outcome State Fault Refusal :=
  settled (s.atHome p h (fun c s =>
    if !s.fromAgent h agent then s.deny p h .notPermitted
    else
      s.translated p h c 1 1 (fun st s => s.deny p h st) (fun ps s =>
        match s.granReq p h c agent .wrBack data ps with
        | some (_, r) =>
          let j : Join := { port := p, hdr := h, part := c.part, kind := 5, left := 1, region := r.region, ext := r.ext,
                            regions := [r.region], handles := [(0, r.handle)] }
          s.take p h (.wrBack p h agent data) [{ r with join := s.coh.nextJoin }] (fun s => (s.openJoin j).2)
        | none => s)))
/-- WR_THRU (R70): the masked bytes of one granule. -/
def execWrThru (p : Nat) (h : Hdr) (agent mask : Nat) (data : List Byte) (s : State) : Host.Outcome State Fault Refusal :=
  settled (s.atHome p h (fun c s =>
    if !s.fromAgent h agent then s.deny p h .notPermitted
    else
      let h' := { h with addr := h.addr / 128 * 128 }
      s.translated p h' c 128 1 (fun st s => s.deny p h st) (fun ps s =>
        s.writePieces p h (.wrThru p h agent mask data) c.part 3 .wrThru agent mask data (coldPages ps)
          (s.piecesOf h'.addr ps))))
/-- WR_UNCACHED (R70). -/
def execWrUncached (p : Nat) (h : Hdr) (data : List Byte) (s : State) : Host.Outcome State Fault Refusal :=
  settled (s.messageWrite p h .wrUnc data (.wrUncached p h data))
/-- WR_STASH (R74). -/
def execWrStash (p : Nat) (h : Hdr) (target offer : Nat) (data : List Byte) (s : State) :
    Host.Outcome State Fault Refusal :=
  settled (s.messageWrite p h (.wrStash target offer) data (.wrStash p h target offer data))
/-- ATOMIC (R75, R76). -/
def execAtomic (p : Nat) (h : Hdr) (op : Nat) (width : Width) (operands : List Nat) (s : State) :
    Host.Outcome State Fault Refusal :=
  settled (s.atHome p h (fun c s =>
    if h.addr % (widthBytes width) != 0 || (atomicOp op width 0 operands).isNone then s.deny p h .badArg
    else
      s.translated p h c (widthBytes width) 2 (fun st s => s.deny p h st) (fun ps s =>
        s.writePieces p h (.atomic p h op width operands) c.part 3 (.atomic op width operands) 0xFFFF 0 [] (coldPages ps) (s.piecesOf h.addr ps))))

/-! Responses (R69). -/

/-- A response to a snoop of an open transaction: the snoop's tag is free, `f` acts, and the transaction goes on. A response whose
tag is no longer outstanding is discarded (R229). -/
def State.responded (s : State) (p : Nat) (h : Hdr) (txn : Nat) (ks : List AwaitKind) (f : Txn → State → State) : State :=
  s.arrive p h (fun s =>
    let s := s.consume p h
    match s.net.own.find? (fun o => o.node == h.srcNode && o.tag == h.tag && o.snoop.any (fun x => x.1 == txn)),
          s.coh.txns.find? (fun t => t.id == txn) with
    | some o, some t =>
      let k := snoopKind o.opcode
      let a := (o.snoop.map (·.2)).getD 0
      if ks.contains k && (s.agent? a).any (fun x => x.ep == h.srcEp) && t.await.contains (a, k) then
        (f t ((s.closeOwn (fun x => x == o)).modTxn txn (fun t => { t with await := t.await.erase (a, k) }))).advance txn
      else s
    | _, _ => s)

/-- INV_ACK (R69). -/
def execInvAck (p : Nat) (h : Hdr) (txn : Nat) (s : State) : Host.Outcome State Fault Refusal :=
  settled (s.responded p h txn [.inv] (fun _ s => s))
/-- SNP_RSP (R69): dirty data is written back; an owner that held I leaves the request to memory (R72). -/
def execSnpRsp (p : Nat) (h : Hdr) (txn before : Nat) (data : List Byte) (s : State) : Host.Outcome State Fault Refusal :=
  settled (s.responded p h txn [.snp, .fwd] (fun t s =>
    if (before = 4 || before = 5) && data.length = 128 then
      (s.writeBytes (t.gran * 128) (data.map (fun b => (b, h.poison))) t.req.acc).2
    else s))
/-- FWD_DONE (R69). -/
def execFwdDone (p : Nat) (h : Hdr) (txn left : Nat) (s : State) : Host.Outcome State Fault Refusal :=
  settled (s.responded p h txn [.fwd] (fun _ s => s.modTxn txn (fun t => { t with left := 1 + left })))
/-- STASH_RSP (R74): 0 ACCEPT_S, 1 ACCEPT_E, 2 DECLINE. -/
def execStashRsp (p : Nat) (h : Hdr) (txn answer : Nat) (s : State) : Host.Outcome State Fault Refusal :=
  settled (s.responded p h txn [.stash] (fun t s =>
    match t.req.op with
    | .wrStash _ offer =>
      let st := if answer = 0 then some DirState.ds else if answer = 1 && offer = 1 then some DirState.de else none
      s.modTxn txn (fun t => { t with taken := st })
    | _ => s))
/-- STASH_OFFER_TIMEOUT (R74). -/
def execStashOfferTimeout (txn : Nat) (s : State) : Host.Outcome State Fault Refusal :=
  settled (match s.coh.txns.find? (fun t => t.id == txn) with
    | some t =>
      if t.offered && t.taken.isNone then
        (s.closeOwn (fun o => o.snoop.any (fun x => x.1 == txn))).dropTxn txn
      else s
    | none => s)
/-- The first held request of a granule whose hold has ended, and those held before it. -/
def State.releasable (s : State) (g : Nat) : Option HomeReq :=
  let rec go : List HomeReq → List HomeReq → Option HomeReq
    | _, [] => none
    | before, r :: rest =>
      if r.ppa / 128 = g && !s.mustHold before r then some r else go (before ++ [r]) rest
  go [] s.coh.held
/-- HOLD_RELEASE (R432): the request resolves its extent afresh (R27, R55) and takes its place in its granule's order. -/
def execHoldRelease (granule : Nat) (s : State) : Host.Outcome State Fault Refusal :=
  settled (match s.releasable granule with
    | none => s
    | some r =>
      let ext := ((s.region? r.region).map (·.extent)).getD r.ext
      match s.regionPpa r.region ext r.roff with
      | some ppa => (s.updCoh (fun c => { c with held := c.held.erase r })).handle { r with ppa, ext }
      | none => s)

/-! Leases (R78 to R86). -/

/-- `LEASE_ACK`: result 0 OK, 1 JOIN_WAIT, 2 JOIN_REQUIRED. -/
def State.leaseAck (s : State) (p : Nat) (h : Hdr) (agent seq time res : Nat) : State :=
  s.reply p 65 h 0x61 (.leaseAck agent seq time s.inc res) [] false h.addr none
/-- Changes an agent. -/
def State.modAgent (s : State) (a : Nat) (f : Agent → Agent) : State :=
  s.updCoh (fun c => { c with agents := c.agents.mod a f })
/-- LEASE_BEAT (R79, R84, R86). A beat with JOIN = 1 that does not carry the present incarnation leaves a void lease void, and is
answered JOIN_REQUIRED (DESIGN CHOICE, log 85). -/
def execLeaseBeat (p : Nat) (h : Hdr) (agent seq time join : Nat) (s : State) : Host.Outcome State Fault Refusal :=
  settled (s.arrive p h (fun s =>
    let s := s.consume p h
    if h.dstEp != 0 then s.refuse p 65 h .badArg none
    else
      match s.agent? agent with
      | none => s.refuse p 65 h .notPermitted none
      | some a =>
        if a.node != h.srcNode || a.ep != h.srcEp then s.refuse p 65 h .notPermitted none
        else if join = 0 && h.incClaim != s.inc then s.refuse p 65 h .staleIncarnation none
        else
          let fresh := fun (s : State) => (s.modAgent agent (fun x => { x with
            lease := .current
            lastBeat := s.clock.base })).leaseAck p h agent seq time 0
          match a.lease with
          | .current => fresh s
          | .void => if join = 1 && h.incClaim == s.inc then fresh s else s.leaseAck p h agent seq time 2
          | .reclaimed => if join = 1 then fresh s else s.leaseAck p h agent seq time 2
          | .reclaiming _ => s.leaseAck p h agent seq time (if join = 1 then 1 else 2)))
/-- An agent's snoops are answered by the home itself: its await entries close, as `INV_ACK` or `SNP_RSP` I; an owner that
may have held dirty data of a WB region loses it (R81). -/
def State.answerFor (s : State) (agent : Nat) : State :=
  s.coh.txns.foldl (fun s t =>
    if t.await.any (fun a => a.1 == agent) then
      let lose := t.await.any (fun a => a.1 == agent && (a.2 == .snp || a.2 == .fwd)) && s.losesWith t agent
      let s := s.closeOwn (fun o => o.snoop == some (t.id, agent))
      (s.modTxn t.id (fun t => { t with
        await := t.await.filter (fun a => a.1 != agent)
        lost := t.lost || lose
        stages := if lose then s.lostStage t else t.stages })).advance t.id
    else s) s
/-- A lease ends: the event, the open snoops, the reclaim sweep (R81). -/
def State.expireLease (s : State) (agent : Nat) : State :=
  match s.agent? agent with
  | none => s
  | some a =>
    let s := s.modAgent agent (fun x => { x with
      lease := .reclaiming ((List.range s.hubs).map (fun h => (h, s.buckets h)))
      lost := 0
      lostBy := [] })
    let s := s.postFm { typ := 0x11, obj := agent, body := at_ a.lastBeat.toNat 64 64 }
    s.answerFor agent
/-- LEASE_EXPIRY (R81). -/
def execLeaseExpiry (agent : Nat) (s : State) : Host.Outcome State Fault Refusal :=
  settled (match s.agent? agent with
    | some a => if a.lease = .current then s.expireLease agent else s
    | none => s)
/-- Whether an agent is being reclaimed. -/
def State.reclaiming (s : State) (a : Nat) : Bool :=
  (s.agent? a).any (fun x => match x.lease with
    | .reclaiming _ => true
    | _ => false)
/-- Whether an entry names an agent that is being reclaimed: as owner, or as a sharer in exact form (R83). -/
def State.swept (s : State) (e : DirEnt) : Bool :=
  e.owner.any s.reclaiming || (!e.coarse && (e.ptrs.filterMap id).any s.reclaiming)
/-- The sweep at one entry: an expired owner's granule is lost, other expired agents are removed (R83). -/
def State.sweepEntry (s : State) (e : DirEnt) : State :=
  if s.busyGran e.gran || !s.swept e then s
  else if e.owner.any s.reclaiming && e.st != DirState.ds && s.policy e.region == 0 then
    s.begin { op := .recall, ppa := e.gran * 128, len := 128, region := e.region, roff := e.roff }
  else
    let e := if e.owner.any s.reclaiming then { e with st := .ds, owner := none } else e
    s.keepDir (if e.coarse then e else (e.ptrs.filterMap id).foldl (fun e a => if s.reclaiming a then e.dropSharer a else e) e)
/-- RECLAIM_SWEEP_TICK (R83): the next bucket; one with an entry to sweep whose granule has an open transaction is walked again. -/
def execReclaimSweepTick (hub : Nat) (s : State) : Host.Outcome State Fault Refusal :=
  settled (
    let pos := (s.coh.sweep.or hub {}).pos
    let stay := (s.bucket hub pos).any (fun e => s.busyGran e.gran && s.swept e)
    let s := (s.bucket hub pos).foldl (fun s e => s.sweepEntry e) s
    if stay then s
    else
      s.updCoh (fun c => { c with
        sweep := c.sweep.put hub { pos := if pos + 1 < s.buckets hub then pos + 1 else 0 }
        agents := c.agents.map (fun x => (x.1, match x.2.lease with
          | .reclaiming hs => { x.2 with lease := .reclaiming (hs.map (fun h => if h.1 = hub then (h.1, h.2 - 1) else h)) }
          | _ => x.2)) }))
/-- An agent's reclaim ends: `AGENT_RECLAIMED`, `LINES_LOST` to each affected partition; a `COH_AGENT_REMOVE` that waits
completes and the registration ends (R81, R83). -/
def State.reclaimed (s : State) (agent : Nat) : State :=
  match s.agent? agent with
  | none => s
  | some a =>
    let s := s.modAgent agent (fun x => { x with lease := .reclaimed })
    let s := s.postFm { typ := 0x12, obj := agent, body := sat 64 a.lost }
    let s := a.lostBy.foldl (fun s x => s.postPart x.1 { typ := 0x0A, obj := agent, body := sat 64 x.2 }) s
    let s := a.lostBy.foldl (fun s x => s.postPart x.1 (causeOutside agent 5 [] 0)) s
    match a.removeMb with
    | some m => (s.updCoh (fun c => { c with agents := c.agents.del agent })).respond m (okBody [(4, a.lost)])
    | none => s
/-- RECLAIM_SWEEP_CIRCLE (R83): every agent for which the sweep has walked every bucket of this hub has had its full circle. -/
def execReclaimSweepCircle (hub : Nat) (s : State) : Host.Outcome State Fault Refusal :=
  settled (s.coh.agents.foldl (fun s x =>
    match x.2.lease with
    | .reclaiming hs =>
      let hs := hs.filter (fun h => h != (hub, 0))
      let s := s.modAgent x.1 (fun a => { a with lease := .reclaiming hs })
      if hs.isEmpty then s.reclaimed x.1 else s
    | _ => s) s)

/-! Mailbox commands of Table 16-12. -/

/-- COH_AGENT_ADD (R78). -/
def execCohAgentAdd (m agent node ep : Nat) (s : State) : Host.Outcome State Fault Refusal :=
  settled (s.command m { fm := true, need := 1 }
    [bad (4096 ≤ agent) 0, bad (0xFFFF ≤ node) 2, bad (0xFF ≤ ep) 4, chk (s.agent? agent).isSome .busy]
    (fun s => (s.updCoh (fun c => { c with
      agents := c.agents.put agent { node, ep, lease := .current, lastBeat := s.clock.base } })).respond m okResp))
/-- COH_AGENT_REMOVE (R81, R83): the lease expires; the command completes when the reclaim does. -/
def execCohAgentRemove (m agent : Nat) (s : State) : Host.Outcome State Fault Refusal :=
  settled (s.command m { fm := true, need := 1 } [bad (s.agent? agent).isNone 0]
    (fun s =>
      let s := s.modAgent agent (fun a => { a with removeMb := some m })
      match s.agent? agent with
      | some a =>
        match a.lease with
        | .current => s.expireLease agent
        | .reclaiming _ => s
        | .reclaimed | .void =>
          (s.updCoh (fun c => { c with agents := c.agents.del agent })).respond m (okBody [(4, a.lost)])
      | none => s))
/-- COH_LEASE_SET (R79): lease 1 ms to 1 s, interval 10 µs to 10 ms, at least 20 intervals. -/
def execCohLeaseSet (m lease interval : Nat) (s : State) : Host.Outcome State Fault Refusal :=
  settled (s.command m { fm := true }
    [bad (lease < 1000 || 1000000 < lease) 0, bad (interval < 10 || 10000 < interval) 4, bad (lease < 20 * interval) 0]
    (fun s => (s.updCoh (fun c => { c with leaseUs := lease, beatUs := interval })).respond m okResp))
/-- COH_DIR_CONFIG (R60): from the next cold reset. -/
def execCohDirConfig (m frac : Nat) (s : State) : Host.Outcome State Fault Refusal :=
  settled (s.command m { fm := true } [bad (3 ≤ frac) 0]
    (fun s => (s.updCoh (fun c => { c with fracNext := frac })).respond m okResp))
/-- COH_DIR_READ (R62). -/
def execCohDirRead (m hub first count : Nat) (s : State) : Host.Outcome State Fault Refusal :=
  settled (s.command m { fm := true, query := true, need := 1 }
    [chk (s.hubs ≤ hub) .absentUnit, bad (s.buckets hub ≤ first) 4, bad (count = 0 || 31 < count) 8]
    (fun s =>
      let n := min count (s.buckets hub - first)
      let next := first + n
      let body := recs 16 ((List.range n).flatMap (fun i => s.bucketWords hub (first + i)))
      let more := decide (next < s.buckets hub)
      s.respond m { status := .ok, body := if more then body ++ [(4, next)] else body, more }))
/-- COH_STATS (R65): back-invalidations, open transactions, granules written as lost. -/
def execCohStats (m hub : Nat) (s : State) : Host.Outcome State Fault Refusal :=
  settled (s.command m { fm := true, query := true } [chk (s.hubs ≤ hub) .absentUnit]
    (fun s => s.respond m (okBody [(4, s.coh.backInv.or hub 0),
      (4, (s.coh.txns.filter (fun t => t.hub == hub)).length), (4, s.coh.lost.or hub 0)])))

end Sys2Proof.Machine
end

