-- ==== Sys2Proof/Machine/Operands.lean ====
section
/-! DEFINITION. The operand forms of descriptors: header, endpoints, type-specific fields, zero counts, charges and
touched ranges (R97 to R105, R110, R116, R117, R121, Tables 04-3 to 04-7, 05-2). -/

namespace Sys2Proof.Machine

/-- An endpoint field (R97): address, `KIND` (0 CVA, 1 HANDLE, 2 REMOTE), `RANK`. -/
structure Ep where
  addr : Nat
  kind : Nat
  rank : Nat
  deriving DecidableEq, Repr
/-- The endpoint of an address and a 16-bit selector. -/
def epOf (addr sel : Nat) : Ep := { addr, kind := sel / 16384, rank := sel % 16384 }
/-- Whether an endpoint is well formed: `KIND` not 3, `RANK` non-zero only for REMOTE (R98). -/
def Ep.ok (e : Ep) : Bool := e.kind != 3 && (e.kind == 2 || e.rank == 0)
/-- Whether an endpoint is CVA or HANDLE with `RANK` 0. -/
def Ep.local_ (e : Ep) : Bool := e.kind < 2 && e.rank == 0
/-- An endpoint's place among local addresses: CVAs below 2^64, pool handles from 2^64 on. -/
def Ep.key (e : Ep) : Nat := if e.kind = 1 then 2 ^ 64 + e.addr else e.addr

/-- `SRC` (R97). -/
def Desc.src (d : Desc) : Ep := epOf (d.f 511 448) (d.f 447 432)
/-- `DST` (R97). -/
def Desc.dst (d : Desc) : Ep := epOf (d.f 431 368) (d.f 367 352)
/-- The index list of GATHER and SCATTER (Table 04-5). -/
def Desc.index (d : Desc) : Ep := epOf (d.f 351 288) (d.f 287 272)
/-- Header fields (Table 04-3). -/
def Desc.dtag (d : Desc) : Nat := d.f 63 48
def Desc.tc (d : Desc) : Nat := d.f 47 45
def Desc.event (d : Desc) : Bool := d.f 44 44 == 1
def Desc.orderAfter (d : Desc) : Bool := d.f 43 43 == 1
/-- `LENGTH` of COPY, FILL, COLL_CONTRIB, and `LENGTH_64K` of ADVISE. -/
def Desc.length (d : Desc) : Nat := d.f 351 320
/-- `ROW_BYTES`, `ROWS`, pitches and planes of the tile types; `PLANES` is 1 for TILE2D (R110). -/
def Desc.rowBytes (d : Desc) : Nat := if d.typ = 2 || d.typ = 3 then d.f 351 328 else d.f 271 248
def Desc.rows (d : Desc) : Nat := d.f 327 304
def Desc.srcPitch (d : Desc) : Nat := d.f 303 272
def Desc.dstPitch (d : Desc) : Nat := d.f 271 240
def Desc.planes (d : Desc) : Nat := if d.typ = 3 then d.f 239 224 else 1
def Desc.srcPlanePitch (d : Desc) : Nat := if d.typ = 3 then d.f 223 184 else 0
def Desc.dstPlanePitch (d : Desc) : Nat := if d.typ = 3 then d.f 183 144 else 0
/-- `COUNT`, `TABLE_ROWS`, `TABLE_PITCH` and the index width in bytes of GATHER and SCATTER. -/
def Desc.count (d : Desc) : Nat := d.f 247 224
def Desc.tableRows (d : Desc) : Nat := d.f 223 192
def Desc.tablePitch (d : Desc) : Nat := d.f 191 160
def Desc.indexBytes (d : Desc) : Nat := if d.f 159 159 = 1 then 8 else 4
/-- OPERATOR fields (Table 05-2). -/
def Desc.ocbEp (d : Desc) : Ep := epOf (d.f 511 448) (d.f 447 432)
def Desc.engineField (d : Desc) : Nat := d.f 431 426
def Desc.iter (d : Desc) : Nat := d.f 425 394
def Desc.opRows (d : Desc) : Nat := d.f 393 378
def Desc.rowElems (d : Desc) : Nat := d.f 377 354
def Desc.storeBytes (d : Desc) : Nat := d.f 353 322
def Desc.stock (d : Desc) : Nat := d.f 321 314

/-- The bits that Tables 04-3, 04-5 and 05-2 give a type, endpoint fields included: (hi, lo). -/
def typeBits : Nat → List (Nat × Nat)
  | 1 => [(511, 320)]
  | 2 => [(511, 240)]
  | 3 => [(511, 144)]
  | 4 | 5 => [(511, 159)]
  | 6 => [(431, 254)]
  | 7 => [(511, 314)]
  | 8 => [(351, 351)]
  | 9 => [(351, 276)]
  | 10 => [(431, 318)]
  | 11 => [(431, 315)]
  | 12 => [(511, 432), (351, 218)]
  | _ => []
/-- Whether every reserved or unused bit is zero (R98, R99). -/
def Desc.reservedZero (d : Desc) : Bool :=
  let ok := (63, 43) :: (3, 0) :: typeBits d.typ
  (List.range 512).all (fun i => !d.words.getLsbD i || ok.any (fun r => r.2 ≤ i && i ≤ r.1))
/-- Whether the endpoint kinds are those of Table 04-4. -/
def Desc.kindsOk (d : Desc) : Bool :=
  let pair := d.src.ok && d.dst.ok && !(d.src.kind == 2 && d.dst.kind == 2)
  match d.typ with
  | 1 | 2 | 3 => pair
  | 4 | 5 => pair && d.index.local_
  | 6 => d.dst.ok
  | 7 => d.ocbEp.local_ && d.ocbEp.addr % 64 == 0
  | 10 => d.dst.kind == 0 && d.dst.rank == 0
  | 11 => d.dst.kind == 1 && d.dst.rank == 0 && d.dst.addr % 2 ^ 44 == 0
  | 12 => d.src.ok
  | _ => true
/-- Order 1 of Table 04-6 (R97 to R99, R118, R144): `hub` runs the queue. -/
def Desc.wellFormed (d : Desc) : Bool :=
  1 ≤ d.typ && d.typ ≤ 13 && d.reservedZero && d.kindsOk
  && (d.typ != 7 || (d.stock ≤ 10 && (d.engineField == 63 || (d.engineField < 24 && d.engineField / 12 == d.hub))))
/-- Whether a count of Table 04-7 is zero (R105, R117). -/
def Desc.zeroCount (d : Desc) : Bool :=
  match d.typ with
  | 1 | 6 | 10 | 12 => d.length == 0
  | 2 => d.rowBytes == 0 || d.rows == 0
  | 3 => d.rowBytes == 0 || d.rows == 0 || d.planes == 0
  | 4 | 5 => d.rowBytes == 0 || d.count == 0
  | 7 => d.iter == 0 || d.opRows == 0 || d.rowElems == 0
  | _ => false
/-- The bytes of a descriptor's charge (R110). -/
def Desc.chargeBytes (d : Desc) : Nat :=
  match d.typ with
  | 1 | 6 | 12 => d.length
  | 2 | 3 => d.rowBytes * d.rows * d.planes
  | 4 | 5 => d.rowBytes * d.count
  | 7 => d.storeBytes
  | _ => 0
/-- The kind of engine that a descriptor needs (R112, R149): 0 none, 1 transfer, 2 operator. -/
def Desc.engineKind (d : Desc) : Nat :=
  if d.typ = 7 || d.typ = 12 then 2 else if 1 ≤ d.typ && d.typ ≤ 6 then 1 else 0

/-- The moves of a transfer type that uses no index list (R100): offset from `SRC`, offset from `DST`, bytes. -/
def Desc.moves (d : Desc) : List (Nat × Nat × Nat) :=
  match d.typ with
  | 1 | 6 => [(0, 0, d.length)]
  | 2 | 3 => (List.range d.planes).flatMap (fun p => (List.range d.rows).map (fun r =>
      (p * d.srcPlanePitch + r * d.srcPitch, p * d.dstPlanePitch + r * d.dstPitch, d.rowBytes)))
  | _ => []

/-- A stream of a descriptor: the place of its base, byte ranges as offsets from it, and its access, 0 read, 1 write; `both`
when a written stream is read too. -/
structure Stream where
  base : Nat
  ranges : List (Nat × Nat)
  acc : Nat
  both : Bool := false
  /-- Of an operator: 1 or 2 for store 0 or 1, 3 for a bound of which only some rows are read, 4 for what a table may not meet (R118,
  R158), 0 for other streams. -/
  who : Nat := 0
  deriving DecidableEq, Repr
/-- The stream of some ranges of an endpoint; a REMOTE endpoint is never translated and has none (R98). -/
def Ep.stream (e : Ep) (ranges : List (Nat × Nat)) (acc : Nat) (who : Nat := 0) (both : Bool := false) : List Stream :=
  if e.kind < 2 then [{ base := e.key, ranges, acc, both, who }] else []
/-- A table bound (R37): every byte from its first row to its last. -/
def tableBound (rows pitch rowBytes : Nat) : List (Nat × Nat) :=
  if rows = 0 then [] else [(0, (rows - 1) * pitch + rowBytes)]
/-- The local streams of a transfer type, in field order (R37, R38). -/
def Desc.streams (d : Desc) : List Stream :=
  let s := fun (e : Ep) (r : List (Nat × Nat)) (acc : Nat) => e.stream r acc
  let table := tableBound d.tableRows d.tablePitch d.rowBytes
  let rows := [(0, d.count * d.rowBytes)]
  match d.typ with
  | 1 | 2 | 3 => s d.src (d.moves.map (fun m => (m.1, m.2.2))) 0 ++ s d.dst (d.moves.map (fun m => (m.2.1, m.2.2))) 1
  | 4 => s d.src table 0 ++ s d.dst rows 1 ++ s d.index [(0, d.count * d.indexBytes)] 0
  | 5 => s d.src rows 0 ++ s d.dst table 1 ++ s d.index [(0, d.count * d.indexBytes)] 0
  | 6 => s d.dst [(0, d.length)] 1
  | 10 => s d.dst [(0, d.length * 65536)] 0
  | 12 => s d.src [(0, d.length)] 0
  | _ => []
/-- The pages of a stream, each once, ascending. -/
def Stream.pages (x : Stream) : List Nat :=
  sortBy (· ≤ ·) (((x.ranges.filter (fun r => r.2 != 0)).flatMap (fun r =>
    (List.range ((x.base + r.1 + r.2 - 1) / 65536 - (x.base + r.1) / 65536 + 1)).map (fun i =>
      ((x.base + r.1) / 65536 + i) * 65536))).dedup)

end Sys2Proof.Machine
end

