-- ==== Sys2Proof/Machine/Admit.lean ====
section
/-! DEFINITION. Pre-translation, runs and local accesses through them, fault entries, engine shares, shapers (R36 to R49,
R101, R294, R297, R298). -/

namespace Sys2Proof.Machine

/-! Pre-translation (R37 to R40, R98). -/

/-- Translates the page of a stream at place `key`; `base` is the stream's base, which says whether it is a handle. -/
def State.transKey (s : State) (c : Context) (base key acc : Nat) : Trans :=
  if base < 2 ^ 64 then s.transPage c key acc
  else
    let rid := (base - 2 ^ 64) / 2 ^ 44
    let off := key - 2 ^ 64 - rid * 2 ^ 44
    if off < 2 ^ 44 then s.transHandle c (rid * 2 ^ 44 + off) acc
    else
      match s.transHandle c (rid * 2 ^ 44) acc with
      | .fault cause l => .fault cause l
      | .ok _ _ _ _ _ _ => .fault 1 0
/-- The first bad page of a descriptor: its CVA or handle, whether it is a handle, cause, level, access. -/
structure PageFault where
  page : Nat
  handle : Bool
  cause : Nat
  level : Nat
  access : Nat
  deriving DecidableEq, Repr
/-- The translation of every touched page of a stream, or its first fault. -/
def State.transStream (s : State) (c : Context) (x : Stream) : List Nat → PageFault ⊕ List (Nat × Trans)
  | [] => .inr []
  | k :: r =>
    let bad_ := fun (cause l acc : Nat) =>
      Sum.inl { page := k % 2 ^ 64, handle := decide (2 ^ 64 ≤ x.base), cause, level := l, access := acc }
    match s.transKey c x.base k (if x.both then 0 else x.acc) with
    | .fault cause l => bad_ cause l (if x.both then 0 else x.acc)
    | t =>
      match (if x.both then s.transKey c x.base k x.acc else t) with
      | .fault cause l => bad_ cause l x.acc
      | .ok a b z rd wr h =>
        match State.transStream s c x r with
        | .inl f => .inl f
        | .inr l => .inr ((k, .ok a b z rd wr h) :: l)
/-- The reads of the page tables that the pre-translation of streams makes, page by page (R35, R262): the status says whether the
tables could be read. A handle endpoint involves no walk (R44). -/
def State.walkStreams (s : State) (c : Context) (tag : Nat) (xs : List Stream) : Status × State :=
  s.walkPages c tag ((xs.filter (fun x => x.base < 2 ^ 64)).flatMap (·.pages))
/-- The translation of every stream, in field order. -/
def State.transStreams (s : State) (c : Context) : List Stream → PageFault ⊕ List (Nat × Trans)
  | [] => .inr []
  | x :: r =>
    match s.transStream c x x.pages with
    | .inl f => .inl f
    | .inr l =>
      match State.transStreams s c r with
      | .inl f => .inl f
      | .inr l' => .inr (l ++ l')
/-- Pages in ascending order, each once. -/
def sortPages (l : List (Nat × Trans)) : List (Nat × Trans) :=
  (sortBy (fun a b => a.1 ≤ b.1) l).foldr (fun x r => match r with
    | y :: _ => if x.1 = y.1 then r else x :: r
    | [] => [x]) []
/-- The runs of translated pages (R40); every region run resolves its extent now (R27). -/
def State.mkRuns (s : State) (l : List (Nat × Trans)) : List Run :=
  ((sortPages l).foldl (fun (rs : List Run) x =>
    match x.2 with
    | .fault _ _ => rs
    | .ok rid off zero rd wr hint =>
      let new : Run := { cva := x.1, len := 65536, region := if zero then 0 else rid,
                         extent := if zero then 0 else ((s.region? rid).map (·.extent)).getD 0, off, rd, wr,
                         cold := if hint == 2 then [x.1] else [] }
      match rs with
      | r :: t =>
        if r.cva + r.len = x.1 && r.rd == rd && r.wr == wr &&
            (if zero then r.region == 0 else r.region == rid && r.off + r.len == off) then
          { r with len := r.len + 65536, cold := r.cold ++ new.cold } :: t
        else new :: rs
      | [] => [new]) []).reverse
/-- Runs a hub has in use: queue rings and descriptors (R40, R88). -/
def State.runsUsed (s : State) (hub : Nat) : Nat :=
  (s.queues.map (fun q => if s.ctxHub q.2.ctx = hub then q.2.runs.length else 0)).sum
  + (s.descs.map (fun d => if d.hub = hub then d.runs.length else 0)).sum

/-! Local accesses through runs (R41). -/

/-- A local range cut at pages: place, run, bytes. -/
def pagePieces (rs : List Run) (key len : Nat) : List (Nat × Option Run × Nat) :=
  if len = 0 then []
  else (List.range ((key + len - 1) / 65536 - key / 65536 + 1)).map (fun i =>
    let pg := (key / 65536 + i) * 65536
    let lo := max key pg
    (lo, rs.find? (fun r => r.cva ≤ lo && lo < r.cva + r.len), min (key + len) (pg + 65536) - lo))
/-- The region bytes of a local range: (region, offset, bytes); ZERO leaves have none (R101). -/
def regBytes (rs : List Run) (key len : Nat) : List (Nat × Nat × Nat) :=
  (pagePieces rs key len).filterMap (fun x =>
    match x.2.1 with
    | some r => if r.region = 0 then none else some (r.region, r.off + (x.1 - r.cva), x.2.2)
    | none => none)
/-- Granules of a local range: (granule, region, region offset). -/
def State.keyGrans (s : State) (rs : List Run) (key len : Nat) : List (Nat × Nat × Nat) :=
  (pagePieces rs key len).flatMap (fun x =>
    match x.2.1 with
    | some r => if r.region = 0 then [] else s.granulesOf r.region r.extent (r.off + (x.1 - r.cva)) x.2.2
    | none => [])
/-- Whether a write to a local range is held now (R27, R55). -/
def State.keyHeld (s : State) (rs : List Run) (key len : Nat) : Bool :=
  (regBytes rs key len).any (fun x => (List.range (x.2.2 / 65536 + 2)).any (fun i =>
    s.writeHeld x.1 (min (x.2.1 + 65536 * i) (x.2.1 + x.2.2 - 1))))
/-- An access to a page of a run, with the page's hint (R52). -/
def Run.acc (r : Run) (key : Nat) (a : Acc) : Acc := { a with cold := r.cold.contains (key / 65536 * 65536) }
/-- Reads a local range: bytes with the poison of each, and the status (R34, R266). -/
def State.readKey (s : State) (rs : List Run) (key len : Nat) (a : Acc) : List (Byte × Bool) × Status × State :=
  (pagePieces rs key len).foldl (fun (x : List (Byte × Bool) × Status × State) p =>
    match p.2.1 with
    | none => (x.1 ++ List.replicate p.2.2 (0, true), .poison, x.2.2)
    | some r =>
      if r.region = 0 then (x.1 ++ List.replicate p.2.2 (0, false), x.2)
      else
        (x.2.2.granPieces r.region r.extent (r.off + (p.1 - r.cva)) p.2.2).foldl
          (fun (x : List (Byte × Bool) × Status × State) g =>
            let (bs, st, s) := x.2.2.readBytes g.2.1 g.2.2 (r.acc p.1 a)
            (x.1 ++ bs, worse x.2.1 st, s)) x) ([], .ok, s)
/-- The PPA of the first byte of a local range that lies in a region. -/
def State.keyPpa (s : State) (rs : List Run) (key : Nat) : Option Nat :=
  match pagePieces rs key 1 with
  | (k, some r, _) :: _ => if r.region = 0 then none else (s.granPieces r.region r.extent (r.off + (k - r.cva)) 1).head?.map (·.2.1)
  | _ => none
/-- Queues the reads of a local range (R241). -/
def State.requestKey (s : State) (rs : List Run) (key len : Nat) (a : Acc) : State :=
  (pagePieces rs key len).foldl (fun s p =>
    match p.2.1 with
    | none => s
    | some r =>
      if r.region = 0 then s
      else
        (s.granPieces r.region r.extent (r.off + (p.1 - r.cva)) p.2.2).foldl (fun s g =>
          (sectorsOf g.2.1 g.2.2).foldl (fun s x => (s.atomDrop (x.1 / 128)).requestBelow x.1 (r.acc p.1 a)) s) s) s
/-- Writes a local range; changed bytes of a mirrored region are forwarded (R340). -/
def State.writeKey (s : State) (rs : List Run) (key : Nat) (bs : List (Byte × Bool)) (a : Acc) : Status × State :=
  (pagePieces rs key bs.length).foldl (fun (x : Status × State) p =>
    match p.2.1 with
    | none => x
    | some r =>
      if r.region = 0 then x
      else
        (x.2.granPieces r.region r.extent (r.off + (p.1 - r.cva)) p.2.2).foldl (fun (x : Status × State) g =>
          let part := (bs.drop (p.1 - key + (g.1 - (r.off + (p.1 - r.cva))))).take g.2.2
          let (st, s) := x.2.writeBytes g.2.1 part (r.acc p.1 a)
          let s := if s.forwards r.region g.1 then s.forward r.region g.1 part 0 0 a.desc else s
          (worse x.1 st, s)) x) (.ok, s)
/-- Whether local ranges may be read and written now: recalls are opened for the copies in the way, and held writes wait
(R71, R108, R432). -/
def State.keysReady (s : State) (rs : List Run) (rd wr : List (Nat × Nat)) : Bool × State :=
  let (a, s) := s.recallAll (rd.flatMap (fun x => s.keyGrans rs x.1 x.2)) false
  let (b, s) := s.recallAll (wr.flatMap (fun x => s.keyGrans rs x.1 x.2)) true
  (a && b && !wr.any (fun x => s.keyHeld rs x.1 x.2), s)

/-! Overlap (R101). -/

/-- Whether two lists of region byte ranges share a byte. -/
def clash (a b : List (Nat × Nat × Nat)) : Bool :=
  a.any (fun x => b.any (fun y => x.1 == y.1 && x.2.1 < y.2.1 + y.2.2 && y.2.1 < x.2.1 + x.2.2))
/-- Whether two different members of a list share a byte. -/
def selfClash : List (List (Nat × Nat × Nat)) → Bool
  | [] => false
  | x :: r => r.any (fun y => clash x y) || selfClash r
/-- The region bytes of a stream, range by range. -/
def Stream.regs (x : Stream) (rs : List Run) : List (List (Nat × Nat × Nat)) :=
  x.ranges.map (fun r => regBytes rs (x.base + r.1) r.2)
/-- R101 for a transfer type: of a GATHER or SCATTER, the index list and the whole table bound count as bytes that it reads or writes
(DESIGN CHOICE, log 84). Two bytes of one row that coincide through two mappings are found piece by piece. -/
def Desc.overlaps (d : Desc) (rs : List Run) : Bool :=
  let rd := (d.streams.filter (fun x => x.acc == 0)).flatMap (fun x => (x.regs rs).flatten)
  let wr := (d.streams.filter (fun x => x.acc == 1)).flatMap (fun x => x.regs rs)
  clash rd wr.flatten || ((d.typ == 2 || d.typ == 3) && selfClash (wr.flatten.map (fun x => [x])))

/-! Fault entries (R44 to R49). -/

/-- Changes the fault tables. -/
def State.updFaults (s : State) (f : Faults → Faults) : State := { s with faults := f s.faults }
/-- An entry's `FAULT_ID` (R44). -/
def FaultEntry.id (e : FaultEntry) : Nat := at_ e.hub 1 31 + at_ e.slot 10 21 + at_ e.seq 21 0
/-- Writes an entry's record to its context's fault queue (R45). -/
def State.writeFault (s : State) (e : FaultEntry) : State :=
  let s := s.updFaults (fun f => { f with entries := f.entries.map (fun x =>
    if x.hub = e.hub && x.slot = e.slot then { x with written := true } else x) })
  match s.ctx? (tagNum e.tag) with
  | none => s
  | some c => s.postEq c.eq (faultEv e.id e.tag e.page e.cause e.level e.access true false e.handle e.source e.waiters.length)
/-- Opens an entry in the lowest free slot of its hub; the event when the table fills (R45, R48). -/
def State.openEntry (s : State) (e : FaultEntry) : State :=
  let mine := (s.faults.entries.filter (fun x => x.hub == e.hub)).map (·.slot)
  let slot := ((List.range 1024).find? (fun i => !mine.contains i)).getD 0
  let (n, s) := s.faultSeq e.hub
  let s := s.updFaults (fun f => { f with entries := f.entries ++ [{ e with slot, seq := n }] })
  if mine.length = 1023 then s.postFm { typ := 0x10, obj := e.hub } else s
/-- A STALLED fault: a waiter of its key's open entry, a new entry, or a wait for a free entry (R45, R48). -/
def State.stallFault (s : State) (tag : Nat) (f : PageFault) (q : Nat) (i : BitVec 32) : State :=
  let hub := s.ctxHub (tagNum tag)
  let e : FaultEntry := { hub, slot := 0, seq := 0, tag, page := f.page, handle := f.handle, cause := f.cause,
                          level := f.level, access := f.access, source := q, waiters := [(q, i)] }
  if s.faults.entries.any (fun x => x.tag == tag && x.page == f.page && x.handle == f.handle) then
    s.updFaults (fun t => { t with entries := t.entries.map (fun x =>
      if x.tag = tag && x.page = f.page && x.handle = f.handle then { x with waiters := x.waiters ++ [(q, i)] } else x) })
  else if (s.faults.entries.filter (fun x => x.hub == hub)).length < 1024 then s.openEntry e
  else s.updFaults (fun t => { t with waiting := t.waiting ++ [e] })

/-! Shapers (Table 12-3, R297, R298). -/

def Shaper.rate (x : Shaper) : Nat := bfld x.word 63 40
def Shaper.burst (x : Shaper) : Nat := bfld x.word 39 24
def Shaper.full (x : Shaper) : Bool := bfld x.word 23 23 == 1
/-- The token cap in 2^-16 B. -/
def Shaper.cap (x : Shaper) : Int := ((x.burst * 4096 * 65536 : Nat) : Int)
/-- The shaper with the tokens accrued up to a time. -/
def Shaper.accrue (x : Shaper) (now : Nat) : Shaper :=
  { x with tokens := min x.cap (x.tokens + ((x.rate * 65536 * (now - x.stamp) / 1000 : Nat) : Int)), stamp := now }
/-- Whether the shaper lets a head be considered. -/
def Shaper.lets (x : Shaper) (now : Nat) : Bool :=
  x.rate == 0xFFFFFF || (x.rate != 0 && decide (0 ≤ (x.accrue now).tokens))
/-- The time at which its tokens reach 0, none when they never do. -/
def Shaper.eligible (x : Shaper) (now : Nat) : Option Nat :=
  if x.rate = 0 then none
  else if x.lets now then some now
  else some (now + cdiv ((-(x.accrue now).tokens).toNat * 1000) (x.rate * 65536))
/-- Debits a started descriptor. -/
def Shaper.debit (x : Shaper) (now charge : Nat) : Shaper :=
  let y := x.accrue now
  { y with tokens := y.tokens - ((max charge 64 * 65536 : Nat) : Int) }
/-- The shapers over a queue. -/
def State.shapersOf (s : State) (q : Queue) : List Shaper :=
  ((s.part? q.part).map (·.shaper)).toList ++ (q.shaper.bind (fun x => (s.shapers.at? x).map (·.2))).toList
/-- The queue's place on the calendar wheel: the latest eligible time of its shapers, rounded up to 8 ns, at most one turn
ahead; none when no shaper holds it or one never will let it go (R298, R299). -/
def State.wheelTime (s : State) (q : Queue) : Option Nat :=
  let xs := s.shapersOf q
  let now := s.clock.aon
  if xs.all (fun x => x.lets now) then none
  else
    xs.foldl (fun (t : Option Nat) x =>
      match t, x.eligible now with
      | some t, some e => some (max t e)
      | _, _ => none) (some 0)
    |>.map (fun t => if now + 32768 < t then roundUp now 8 + 32768 else roundUp t 8)
/-- Enters, moves or removes a queue's wheel entry. -/
def State.wheelSet (s : State) (qid : Nat) : State :=
  match s.queue? qid with
  | none => { s with wheel := s.wheel.del qid }
  | some q =>
    match s.wheelTime q with
    | some t => { s with wheel := s.wheel.put qid t }
    | none => { s with wheel := s.wheel.del qid }
/-- Debits the shapers over a queue. -/
def State.debit (s : State) (q : Queue) (charge : Nat) : State :=
  let now := s.clock.aon
  let s := s.modPart q.part (fun p => { p with shaper := p.shaper.debit now charge })
  match q.shaper with
  | some x => { s with shapers := s.shapers.mod x (fun y => (y.1, y.2.debit now charge)) }
  | none => s

/-! Engine shares (R120, R294). -/

/-- The engines of a kind on a hub. -/
def hubEngines (kind hub : Nat) : List Nat :=
  if kind = 2 then (List.range 12).map (fun i => 12 * hub + i)
  else if kind = 1 then (List.range 24).map (fun i => 0x100 + 24 * hub + i)
  else []
/-- The partition that reserves an engine. -/
def State.reserver (s : State) (e : Nat) : Option Nat :=
  (s.parts.find? (fun p => if e < 0x100 then p.2.oeRsv.testBit e else p.2.teRsv.testBit (e - 0x100))).map (·.1)
/-- A partition's cap on engines of a kind per hub. -/
def Partition.engineMax (p : Partition) (kind : Nat) : Nat := if kind = 2 then p.oeMax else p.teMax
/-- Engines of a kind and hub that run a partition's work. -/
def State.enginesBusy (s : State) (part kind hub : Nat) : Nat :=
  ((hubEngines kind hub).filter (fun e => (s.engine e).job.any (fun j => (s.queue? j.1).any (fun q => q.part == part)))).length
/-- Whether a partition has a descriptor ready for an engine of a kind and hub. -/
def State.partWaits (s : State) (part kind hub : Nat) : Bool :=
  s.descs.any (fun d => d.phase == .ready && d.hub == hub && d.engineKind == kind
    && (s.queue? d.q).any (fun q => q.part == part))
/-- Whether an engine is idle and in service. -/
def State.engineIdle (s : State) (e : Nat) : Bool :=
  let g := s.engine e
  s.enginePresent e && !g.outOfService && !g.resetting && g.job.isNone && !s.power.tapTest
/-- Whether an idle engine may take work of a partition (R294). -/
def State.mayTake (s : State) (part kind hub e : Nat) : Bool :=
  match s.reserver e with
  | some r =>
    r == part || (!s.strict part && !s.strict r && !s.partWaits r kind hub
      && (s.part? part).any (fun p => s.enginesBusy part kind hub < p.engineMax kind))
  | none => !s.strict part && (s.part? part).any (fun p => s.enginesBusy part kind hub < p.engineMax kind)
/-- The idle engines that may take a descriptor now. -/
def State.takers (s : State) (d : Desc) (part : Nat) : List Nat :=
  (hubEngines d.engineKind d.hub).filter (fun e => s.engineIdle e && s.mayTake part d.engineKind d.hub e
    && (d.typ != 7 || d.engineField == 63 || d.engineField == e))
/-- Gives an engine to a descriptor; on an engine that another partition reserves its completion carries SPARE. -/
def State.giveEngine (s : State) (q : Nat) (i : BitVec 32) (part e : Nat) : State :=
  let spare := (s.reserver e).any (fun r => r != part)
  (s.updEngine e (fun g => { g with job := some (q, i), gate := 0 })).modDesc q i (fun d =>
    { d with engine := some e, wait := if spare && d.wait = 0 then 1 else d.wait })

end Sys2Proof.Machine
end

