-- ==== Sys2Proof/Machine/Numeric.lean ====
section
/-! DEFINITION. Numbers of the operator engines: exact values, rounding, element formats, FP32 arithmetic, the approximated
functions, and the lane generators (R127, R131 to R136, R141). -/

namespace Sys2Proof.Machine

/-! Exact values and rounding. -/

/-- An exact value: NaN, an infinity, or `m * 2^e` with a sign, zero included. -/
inductive FVal where
  | nan
  | inf (neg : Bool)
  | fin (neg : Bool) (m : Nat) (e : Int)
  deriving DecidableEq, Repr

/-- A rounding mode: RNE, RTZ, or SR with its 24-bit draw (R135). -/
inductive Rnd where
  | rne
  | rtz
  | sr (u : Nat)
  deriving DecidableEq, Repr
/-- `m / 2^sh` rounded to an integer (R135). -/
def roundShift (r : Rnd) (m sh : Nat) : Nat :=
  let q := m >>> sh
  let rem := m - (q <<< sh)
  match r with
  | .rne => if 2 ^ sh < 2 * rem || (2 * rem = 2 ^ sh && sh != 0 && q % 2 = 1) then q + 1 else q
  | .rtz => q
  | .sr u => if 2 ^ 24 ≤ rem * 2 ^ 24 / 2 ^ sh + u then q + 1 else q
/-- `m * 2^e` as an integer multiple `k` of the unit `2^q` of a format with `frac` fraction bits and least unit `2^emin`:
`(k, q)`. -/
def quantum (r : Rnd) (m : Nat) (e : Int) (frac : Nat) (emin : Int) : Nat × Int :=
  let q := max emin ((Nat.log2 m : Int) + e - (frac : Int))
  if q ≤ e then (m <<< (e - q).toNat, q) else (roundShift r m (q - e).toNat, q)

/-! Floating formats of Table 05-8: exponent bits, fraction bits, bias, largest finite code. -/

/-- A floating element format. -/
structure FFmt where
  ebits : Nat
  frac : Nat
  bias : Nat
  maxCode : Nat
  deriving DecidableEq, Repr
def FFmt.emin (f : FFmt) : Int := 1 - (f.bias : Int) - (f.frac : Int)
def FFmt.sign (f : FFmt) : Nat := 2 ^ (f.ebits + f.frac)
/-- The floating formats by code: 0 FP32, 1 BF16, 2 FP16, 3 E4M3, 4 E5M2, 5 E3M2, 6 E2M3, 7 E2M1. -/
def ffmt : Nat → FFmt
  | 0 => ⟨8, 23, 127, 0x7F7FFFFF⟩
  | 1 => ⟨8, 7, 127, 0x7F7F⟩
  | 2 => ⟨5, 10, 15, 0x7BFF⟩
  | 3 => ⟨4, 3, 7, 0x7E⟩
  | 4 => ⟨5, 2, 15, 0x7B⟩
  | 5 => ⟨3, 2, 3, 0x1F⟩
  | 6 => ⟨2, 3, 1, 0x1F⟩
  | _ => ⟨2, 1, 1, 0x07⟩
/-- Element width in bits by format code (R132). -/
def fmtBits : Nat → Nat
  | 0 | 10 => 32
  | 1 | 2 => 16
  | 3 | 4 | 8 => 8
  | 5 | 6 => 6
  | _ => 4
/-- The value of a floating code (Table 05-8): the formats below E5M2 have no infinity; E4M3 has the NaN S.1111.111. -/
def floatVal (fmt code : Nat) : FVal :=
  let f := ffmt fmt
  let neg := decide (f.sign ≤ code)
  let mag := code % f.sign
  if f.maxCode < mag && fmt ≤ 4 then
    if fmt != 3 && mag = (2 ^ f.ebits - 1) * 2 ^ f.frac then .inf neg else .nan
  else
    let ex := mag >>> f.frac
    let fr := mag % 2 ^ f.frac
    if ex = 0 then .fin neg fr f.emin else .fin neg (2 ^ f.frac + fr) (f.emin + (ex : Int) - 1)
/-- The two's-complement value of a code of `w` bits. -/
def signedVal (w code : Nat) : FVal :=
  if code < 2 ^ (w - 1) then .fin false code 0 else .fin true (2 ^ w - code) 0
/-- The value of an element code: floats, INT8, INT4, and `RAW32` read as FP32 (R131). A scaled INT8 code is in units of
2^-6. -/
def elemVal (fmt : Nat) (scaled : Bool) (code : Nat) : FVal :=
  if fmt = 8 then
    match signedVal 8 code with
    | .fin n m e => .fin n m (if scaled then e - 6 else e)
    | v => v
  else if fmt = 9 then signedVal 4 code
  else if fmt = 10 then floatVal 0 code
  else floatVal fmt code
/-- A value times `2^k`. -/
def FVal.scale (v : FVal) (k : Int) : FVal :=
  match v with
  | .fin n m e => .fin n m (e + k)
  | v => v

/-- The canonical NaN of a format (R133). -/
def canonNan : Nat → Nat
  | 0 => 0x7FC00000 | 1 => 0x7FC0 | 2 => 0x7E00 | 3 => 0x7F | 4 => 0x7E | _ => 0
/-- Encodes a value in a floating format (Table 05-10): `sat` for `OVF` SAT, or for a scaled block. -/
def encodeFloat (fmt : Nat) (r : Rnd) (sat : Bool) (v : FVal) : Nat :=
  let f := ffmt fmt
  let over_ := fun (neg : Bool) =>
    (if neg then f.sign else 0) + (if sat || 5 ≤ fmt then f.maxCode
      else if fmt = 3 then 0x7F else (2 ^ f.ebits - 1) * 2 ^ f.frac)
  match v with
  | .nan => canonNan fmt
  | .inf neg => if fmt = 3 || 5 ≤ fmt then over_ neg else (if neg then f.sign else 0) + (2 ^ f.ebits - 1) * 2 ^ f.frac
  | .fin neg m e =>
    if m = 0 then if neg then f.sign else 0
    else
      let (k, q) := quantum r m e f.frac f.emin
      let code := (q - f.emin).toNat * 2 ^ f.frac + k
      if f.maxCode < code then over_ neg else (if neg then f.sign else 0) + code
/-- Encodes a value as a two's-complement integer of `w` bits, saturating; NaN gives 0 (Table 05-10). -/
def encodeInt (w : Nat) (r : Rnd) (v : FVal) : Nat :=
  let clampN := fun (neg : Bool) (k : Nat) =>
    if neg then (2 ^ w - min k (2 ^ (w - 1))) % 2 ^ w else min k (2 ^ (w - 1) - 1)
  match v with
  | .nan => 0
  | .inf neg => clampN neg (2 ^ w)
  | .fin neg m e => clampN neg (if 0 ≤ e then m <<< e.toNat else roundShift r m (-e).toNat)
/-- Encodes a value in an unscaled format, or one element of a scaled block (R133, R134). -/
def encodeElem (fmt : Nat) (scaled : Bool) (r : Rnd) (sat : Bool) (v : FVal) : Nat :=
  if fmt = 8 then encodeInt 8 r (if scaled then v.scale 6 else v)
  else if fmt = 9 then encodeInt 4 r v
  else if fmt = 10 then encodeFloat 0 r false v
  else encodeFloat fmt r (sat || scaled) v

/-! FP32 lanes. -/

/-- The value of FP32 bits. -/
def f32 (b : Nat) : FVal := floatVal 0 b
/-- FP32 bits of a value, by RNE with overflow to infinity (IEEE 754). -/
def toF32 (v : FVal) : Nat := encodeFloat 0 .rne false v
/-- The canonical FP32 NaN. -/
def nan32 : Nat := 0x7FC00000
/-- The exact sum of two finite values. -/
def sumVal (n1 : Bool) (m1 : Nat) (e1 : Int) (n2 : Bool) (m2 : Nat) (e2 : Int) : FVal :=
  let e := min e1 e2
  let a : Int := ((m1 <<< (e1 - e).toNat : Nat) : Int)
  let b : Int := ((m2 <<< (e2 - e).toNat : Nat) : Int)
  let t := (if n1 then -a else a) + (if n2 then -b else b)
  if t = 0 then .fin (n1 && n2) 0 e else .fin (decide (t < 0)) t.natAbs e
/-- The IEEE sum of two values. -/
def FVal.add (x y : FVal) : FVal :=
  match x, y with
  | .nan, _ | _, .nan => .nan
  | .inf a, .inf b => if a = b then .inf a else .nan
  | .inf a, _ => .inf a
  | _, .inf b => .inf b
  | .fin n1 m1 e1, .fin n2 m2 e2 => sumVal n1 m1 e1 n2 m2 e2
/-- The IEEE product of two values. -/
def FVal.mul (x y : FVal) : FVal :=
  match x, y with
  | .nan, _ | _, .nan => .nan
  | .inf a, .inf b => .inf (a != b)
  | .inf a, .fin n m _ | .fin n m _, .inf a => if m = 0 then .nan else .inf (a != n)
  | .fin n1 m1 e1, .fin n2 m2 e2 => .fin (n1 != n2) (m1 * m2) (e1 + e2)
/-- A + B. -/
def fAdd (a b : Nat) : Nat := toF32 ((f32 a).add (f32 b))
/-- The sign flipped. -/
def fNeg (a : Nat) : Nat := Nat.xor a 0x80000000
/-- A - B. -/
def fSub (a b : Nat) : Nat := toF32 ((f32 a).add (f32 (fNeg b)))
/-- A * B. -/
def fMul (a b : Nat) : Nat := toF32 ((f32 a).mul (f32 b))
/-- A * B + C, rounded once. -/
def fFma (a b c : Nat) : Nat := toF32 (((f32 a).mul (f32 b)).add (f32 c))
/-- Whether FP32 bits are a NaN. -/
def fIsNan (a : Nat) : Bool := f32 a == .nan
/-- A place on the real line for ordering: monotone in the value, -0 just below +0; for bits other than NaN. -/
def fKey (a : Nat) : Int := if a < 0x80000000 then (a : Int) else -((a - 0x80000000 : Nat) : Int) - 1
/-- The larger of two, +0 over -0, NaN when either is (R127). -/
def fMax (a b : Nat) : Nat := if fIsNan a || fIsNan b then nan32 else if fKey a < fKey b then b else a
/-- The smaller of two, -0 over +0, NaN when either is (R127). -/
def fMin (a b : Nat) : Nat := if fIsNan a || fIsNan b then nan32 else if fKey b < fKey a then b else a
/-- A < B; false with a NaN. -/
def fLt (a b : Nat) : Bool := !fIsNan a && !fIsNan b && fKey a < fKey b && !(a % 0x80000000 == 0 && b % 0x80000000 == 0)
/-- A = B; false with a NaN. -/
def fEq (a b : Nat) : Bool := !fIsNan a && !fIsNan b && (a == b || (a % 0x80000000 == 0 && b % 0x80000000 == 0))

/-! INT32 (R136, R141, R147). -/

/-- The signed value of 32 bits. -/
def s32 (a : Nat) : Int := if a < 2 ^ 31 then (a : Int) else (a : Int) - 2 ^ 32
/-- 32 bits of an integer, saturating at -2^31 and 2^31 - 1. -/
def toS32 (x : Int) : Nat := ((max (-(2 ^ 31)) (min (2 ^ 31 - 1) x)) % 2 ^ 32).toNat
/-- FP32 bits of an integer by RNE. -/
def intF32 (x : Int) : Nat := toF32 (.fin (decide (x < 0)) x.natAbs 0)

/-! Approximated functions (Table 05-12): a free result within the stated error, else the nearest result (log 3). -/

/-- An approximation in units of 2^-96. -/
def one96 : Nat := 2 ^ 96
/-- ln 2 in units of 2^-96. -/
def ln2fix : Nat := 54916777467707473351141471128
/-- e^x for `x` in [0, 1), in units of 2^-96: the Taylor series to the 32nd term. -/
def expFix (x : Nat) : Nat :=
  ((List.range 32).foldl (fun (r : Nat × Nat) k => (r.1 + r.2, r.2 * x / one96 / (k + 1))) (0, one96)).1
/-- 2^(n / 2^96) as an exact-looking value: mantissa in units of 2^-96 and exponent. -/
def exp2Fix (n : Int) : FVal :=
  let k := n / (one96 : Int)
  let f := (n % (one96 : Int)).toNat
  .fin false (expFix (f * ln2fix / one96)) (k - 96)
/-- log2 of a mantissa in [1, 2), `m / 2^96`, in units of 2^-64: one bit a squaring. -/
def logFix (m : Nat) : Nat :=
  (iter 64 (fun (r : Nat × Nat) =>
    let x := r.1 * r.1 / one96
    if 2 * one96 ≤ x then (x / 2, 2 * r.2 + 1) else (x, 2 * r.2)) (m, 0)).2
/-- A finite value in units of 2^-96, rounded towards zero. -/
def fix96 (v : FVal) : Int :=
  match v with
  | .fin n m e =>
    let k := e + 96
    let x : Nat := if 0 ≤ k then m <<< k.toNat else m >>> (-k).toNat
    if n then -(x : Int) else (x : Int)
  | _ => 0
/-- The exponent of the unit in the last place of a finite FP32 value. -/
def ulpExp (b : Nat) : Int := max (-149) (((b / 0x800000 % 256 : Nat) : Int) - 150)
/-- `|x - y| ≤ k * 2^e`. -/
def nearVal (x y : FVal) (k : Nat) (e : Int) : Bool :=
  match x, y with
  | .fin n1 m1 e1, .fin n2 m2 e2 =>
    match sumVal n1 m1 e1 (!n2) m2 e2 with
    | .fin _ m f =>
      let q := min f e
      decide (m <<< (f - q).toNat ≤ k <<< (e - q).toNat)
    | _ => false
  | _, _ => false
/-- The free result `pick` when it lies within `k` units in the last place of the nearest result, else the nearest. -/
def withinUlp (approx : FVal) (k pick : Nat) : Nat :=
  let near := toF32 approx
  let p := pick % 2 ^ 32
  if nearVal (f32 p) approx k (ulpExp near) then p else near
/-- `EXP2`. -/
def fExp2 (a : Nat) : Nat :=
  match f32 a with
  | .nan => nan32
  | .inf neg => if neg then 0 else 0x7F800000
  | .fin n m e =>
    let x := fix96 (.fin n m e)
    if (128 * (one96 : Int)) < x then 0x7F800000
    else if x < -150 * (one96 : Int) then 0
    else withinUlp (exp2Fix x) 2 (Config.exp2Pick (BitVec.ofNat 32 a))
/-- `LOG2`. -/
def fLog2 (a : Nat) : Nat :=
  match f32 a with
  | .nan => nan32
  | .inf neg => if neg then nan32 else 0x7F800000
  | .fin n m e =>
    if m = 0 then 0xFF800000
    else if n then nan32
    else
      let l := Nat.log2 m
      let ip : Int := (l : Int) + e
      let fr := logFix (m <<< 96 >>> l)
      let t : Int := ip * 2 ^ 64 + (fr : Int)
      withinUlp (.fin (decide (t < 0)) t.natAbs (-64)) 2 (Config.log2Pick (BitVec.ofNat 32 a))
/-- `RCP`. -/
def fRcp (a : Nat) : Nat :=
  match f32 a with
  | .nan => nan32
  | .inf neg => if neg then 0x80000000 else 0
  | .fin n m e =>
    if m = 0 then if n then 0xFF800000 else 0x7F800000
    else withinUlp (.fin n (2 ^ 120 / m) (-120 - e)) 1 (Config.rcpPick (BitVec.ofNat 32 a))
/-- `RSQRT`. At -0 the spec states no result: a free value (log 3). -/
def fRsqrt (a : Nat) : Nat :=
  match f32 a with
  | .nan => nan32
  | .inf neg => if neg then nan32 else 0
  | .fin n m e =>
    if m = 0 then if n then Config.rsqrtPick (BitVec.ofNat 32 a) % 2 ^ 32 else 0x7F800000
    else if n then nan32
    else
      let m' := if e % 2 = 0 then m else 2 * m
      let e' := if e % 2 = 0 then e else e - 1
      withinUlp (.fin false (Nat.sqrt (2 ^ 240 / m')) (-120 - e' / 2)) 1 (Config.rsqrtPick (BitVec.ofNat 32 a))
/-- `TANH`: an absolute error up to 2^-22. -/
def fTanh (a : Nat) : Nat :=
  let go := fun (approx : FVal) =>
    let p := Config.tanhPick (BitVec.ofNat 32 a) % 2 ^ 32
    if nearVal (f32 p) approx 1 (-22) then p else toF32 approx
  match f32 a with
  | .nan => nan32
  | .inf neg => go (.fin neg 1 0)
  | .fin n m e =>
    let x := (fix96 (.fin false m e)).toNat
    if 16 * one96 ≤ x then go (.fin n 1 0)
    else
      -- tanh x = (t - 1) / (t + 1), t = e^(2x) = 2^k * e^f
      let k := 2 * x / ln2fix
      let t := expFix (2 * x % ln2fix) <<< k
      go (.fin n ((t - one96) * one96 / (t + one96)) (-96))

/-! Lane generators (R135). -/

/-- One step of a lane's generator. -/
def genStep (x : Nat) : Nat :=
  let x := Nat.xor x (x <<< 13 % 2 ^ 32)
  let x := Nat.xor x (x >>> 17)
  Nat.xor x (x <<< 5 % 2 ^ 32)
/-- The 64 lanes' states at the start of a descriptor. -/
def genStart (seed : Nat) : List Nat :=
  (List.range 64).map (fun i =>
    let x := (seed + i * 0x9E3779B9 + 1) % 2 ^ 32
    if x = 0 then 1 else x)
/-- One draw from lane `i`: the new state's bits, and the states. -/
def genDraw (g : List Nat) (i : Nat) : Nat × List Nat :=
  let x := genStep (g.getD i 1)
  (x, g.set i x)
/-- The rounding of code 0 RNE, 1 RTZ, 2 SR; SR draws from lane `i`. -/
def drawRnd (mode : Nat) (g : List Nat) (i : Nat) : Rnd × List Nat :=
  if mode = 2 then
    let (x, g) := genDraw g i
    (.sr (x / 256), g)
  else if mode = 1 then (.rtz, g)
  else (.rne, g)

/-! Blocks (R131 to R134). -/

/-- A block scale's exponent; none for NaN (R131). -/
def scaleExp (e : Nat) : Option Int := if e = 255 then none else some ((e : Int) - 127)
/-- The FP32 lane of an element and its block's scale byte (R131, R133). -/
def decodeElem (fmt : Nat) (scale : Option Nat) (code : Nat) : Nat :=
  if fmt = 10 then code
  else
    match scale with
    | none => toF32 (elemVal fmt false code)
    | some e =>
      match scaleExp e with
      | none => nan32
      | some k => toF32 ((elemVal fmt true code).scale k)
/-- `emax` of a scaled format (R134). -/
def emaxOf : Nat → Int
  | 3 => 8 | 4 => 15 | 5 => 4 | 6 | 7 => 2 | _ => 0
/-- The scale byte of a block of FP32 lanes (R134); 255 when the whole block is NaN. -/
def blockScale (fmt : Nat) (sat : Bool) (vs : List Nat) : Nat :=
  if vs.any (fun v => fIsNan v || (!sat && v % 0x80000000 == 0x7F800000)) then 255
  else
    let mags := vs.map (fun v => min (v % 0x80000000) 0x7F7FFFFF)
    let a := mags.foldl max 0
    if a = 0 then 0x7F
    else
      match f32 a with
      | .fin _ m e => ((max (-127) (min 127 ((Nat.log2 m : Int) + e - emaxOf fmt))) + 127).toNat
      | _ => 0x7F
/-- The code of one lane of a scaled block. -/
def encodeScaled (fmt sc : Nat) (r : Rnd) (v : Nat) : Nat :=
  if sc = 255 then 0
  else
    let v := if v % 0x80000000 = 0x7F800000 then v / 0x80000000 * 0x80000000 + 0x7F7FFFFF else v
    encodeElem fmt true r true ((f32 v).scale (127 - (sc : Int)))
/-- Packs codes of `w` bits, lowest first, to bytes (R132). -/
def packBits (w : Nat) (cs : List Nat) : List Byte :=
  leBytes (cdiv (w * cs.length) 8) (cs.foldr (fun c a => a * 2 ^ w + c % 2 ^ w) 0)
/-- Element `i` of packed bytes of one block. -/
def codeAt (w : Nat) (bs : List Byte) (i : Nat) : Nat := leNat bs / 2 ^ (w * i) % 2 ^ w

end Sys2Proof.Machine
end

