-- ==== Sys2Proof/Machine/Ocb.lean ====
section
/-! DEFINITION. The operator configuration block and the stock argument block: layout, validation, touched ranges, derived
store bytes (R116 to R126, R130, R140 to R144, Tables 05-2 to 05-7, 05-9, 05-11, 06-1 to 06-9, 06-12). -/

namespace Sys2Proof.Machine

/-- A stream entry (Table 05-5). -/
structure SEnt where
  word : Nat
  deriving DecidableEq, Repr
def SEnt.addr (x : SEnt) : Nat := fld x.word 255 192
def SEnt.ep (x : SEnt) : Ep := epOf x.addr (fld x.word 191 176)
def SEnt.fmt (x : SEnt) : Nat := fld x.word 175 172
def SEnt.scaled (x : SEnt) : Bool := bit x.word 171
def SEnt.sparse (x : SEnt) : Nat := fld x.word 170 169
def SEnt.rowPitch (x : SEnt) : Nat := fld x.word 167 128
def SEnt.iterPitch (x : SEnt) : Nat := fld x.word 127 88
def SEnt.scaleAddr (x : SEnt) : Nat := fld x.word 87 24
def SEnt.scaleEp (x : SEnt) : Ep := epOf x.scaleAddr (fld x.word 23 8)
def SEnt.prefetch (x : SEnt) : Nat := fld x.word 7 0

/-- A block read at admission: its 512 bytes (R119, R121, R143). -/
structure Ocb where
  bytes : List Byte
  deriving DecidableEq, Repr
/-- Bytes `[o, o + n)` as a little-endian number. -/
def Ocb.num (o : Ocb) (off n : Nat) : Nat := leNat ((o.bytes.drop off).take n)
/-- Bits of the control fields (Table 05-4). -/
def Ocb.c (o : Ocb) (hi lo : Nat) : Nat := fld (o.num 0 64) hi lo
def Ocb.seed (o : Ocb) : Nat := o.c 511 480
def Ocb.unpackEn (o : Ocb) : Bool := o.c 479 479 == 1
def Ocb.dotEn (o : Ocb) : Bool := o.c 478 478 == 1
def Ocb.redEn (o : Ocb) : Bool := o.c 477 477 == 1
def Ocb.selEn (o : Ocb) : Bool := o.c 476 476 == 1
def Ocb.packEn (o : Ocb) : Bool := o.c 475 475 == 1
def Ocb.loadEn (o : Ocb) (k : Nat) : Bool := bit (o.c 474 471) k
def Ocb.storeEn (o : Ocb) (k : Nat) : Bool := bit (o.c 470 469) k
def Ocb.round (o : Ocb) : Nat := o.c 468 467
/-- `OVF` SAT. -/
def Ocb.sat (o : Ocb) : Bool := o.c 466 466 == 0
def Ocb.progLen (o : Ocb) : Nat := o.c 465 460
def Ocb.dotRows (o : Ocb) : Nat := o.c 459 451
def Ocb.redOp (o : Ocb) : Nat := o.c 450 449
def Ocb.redAxis (o : Ocb) : Nat := o.c 448 447
def Ocb.redGroup (o : Ocb) : Nat := o.c 446 431
def Ocb.selK (o : Ocb) : Nat := o.c 430 422
def Ocb.selPerIter (o : Ocb) : Bool := o.c 421 421 == 1
/-- Load stream `k`. -/
def Ocb.load (o : Ocb) (k : Nat) : SEnt := ⟨o.num (0x40 + 32 * k) 32⟩
/-- Store stream `k`. -/
def Ocb.store (o : Ocb) (k : Nat) : SEnt := ⟨o.num (0xC0 + 32 * k) 32⟩
/-- Constant `c[i]`. -/
def Ocb.const (o : Ocb) (i : Nat) : Nat := o.num (0x100 + 4 * i) 4
/-- Instruction `i`. -/
def Ocb.instr (o : Ocb) (i : Nat) : Nat := o.num (0x140 + 4 * i) 4
/-- The program. -/
def Ocb.prog (o : Ocb) : List Nat := (List.range o.progLen).map o.instr
/-- Bits of the stock operator arguments (Table 06-1). -/
def Ocb.arg (o : Ocb) (hi lo : Nat) : Nat := fld (o.num 0x100 256) hi lo

/-! Sizes (R126, R132, R137, R138). -/

/-- Bytes of a dense block. -/
def blockBytes (fmt : Nat) : Nat := 4 * fmtBits fmt
/-- Dense bytes of `n` elements. -/
def denseBytes (fmt n : Nat) : Nat := cdiv (fmtBits fmt * n) 8
/-- Bytes of a load row of `n` elements (R122, R138). -/
def SEnt.rowBytes (x : SEnt) (n : Nat) : Nat :=
  if x.sparse = 2 then cdiv n 32 * (4 + blockBytes x.fmt / 2) else denseBytes x.fmt n
/-- Element bytes of `n` stored elements, scale bytes apart (R126). -/
def SEnt.storeBytes (x : SEnt) (n : Nat) : Nat :=
  if x.sparse = 1 then cdiv n 32 * (4 + blockBytes x.fmt)
  else if x.scaled || (5 ≤ x.fmt && x.fmt ≤ 7) || x.fmt = 9 then cdiv n 32 * blockBytes x.fmt
  else denseBytes x.fmt n
/-- Scale bytes of `n` elements. -/
def SEnt.scaleBytes (x : SEnt) (n : Nat) : Nat := if x.scaled then cdiv n 32 else 0
/-- Derived store bytes of `n` elements (R126). -/
def SEnt.derived (x : SEnt) (n : Nat) : Nat := x.storeBytes n + x.scaleBytes n

/-! Validation (Table 05-6). -/

/-- Rows Fields, Formats and Sparse for a used stream of `n` elements a row: `st` for a store, `third` for load stream 3. -/
def SEnt.ok (x : SEnt) (n : Nat) (st third : Bool) : Bool :=
  !bit x.word 168 && x.fmt ≤ 10 && x.sparse != 3 && x.ep.ok && (st || x.ep.kind != 2)
  && (!x.scaled || (x.scaleEp.ok && (st || x.scaleEp.kind != 2)))
  && (if st then x.rowPitch == 0 && x.iterPitch == 0 && x.prefetch == 0 else x.prefetch ≤ 96)
  && !(x.scaled && (x.fmt ≤ 2 || 9 ≤ x.fmt)) && (x.scaled || !(5 ≤ x.fmt && x.fmt ≤ 7))
  && (!(x.scaled || (5 ≤ x.fmt && x.fmt ≤ 7) || x.sparse == 1) || n % 32 == 0) && !(x.fmt == 9 && n % 2 == 1)
  && !(x.sparse == 1 && x.rowPitch != 0) && !(x.sparse == 2 && !third)
/-- The operand fields that an opcode uses: SA, SB, SC, RM mask, whether `CIDX` is its own; none for a reserved opcode. -/
def opUses : Nat → Option (Bool × Bool × Bool × Nat × Bool)
  | 0x00 => some (false, false, false, 0, false)
  | 0x01 | 0x08 | 0x09 | 0x0A | 0x0B | 0x0C | 0x0D | 0x0E => some (true, false, false, 0, false)
  | 0x02 | 0x03 | 0x04 | 0x06 | 0x07 | 0x10 | 0x11 | 0x12 | 0x13 | 0x18 | 0x19 | 0x1A | 0x1B =>
    some (true, true, false, 0, false)
  | 0x1C => some (true, true, false, 2, false)
  | 0x05 | 0x1D => some (true, true, true, 0, false)
  | 0x14 => some (true, false, false, 3, true)
  | 0x20 | 0x22 => some (false, false, false, 0, false)
  | 0x21 => some (false, false, false, 0, true)
  | _ => none
/-- Row Program (Tables 05-11, 05-12): reserved bits, unused fields, the compare destination, the `CVT` target. -/
def instrOk (w : Nat) : Bool :=
  match opUses (fld w 31 26) with
  | none => false
  | some (a, b, c, rm, ci) =>
    let op := fld w 31 26
    let bc := bit w 9
    !bit w 10 && !bit w 8 && fld w 1 0 == 0
    && (op != 0 || (fld w 25 23 == 0 && !bit w 11)) && (a || fld w 22 20 == 0)
    && (if b && !bc then true else fld w 19 17 == 0) && (c || fld w 16 14 == 0) && (b || !bc)
    && (op == 0x13 || bit w 11 || fld w 13 12 == 0)
    && (if ci || (b && bc) then true else fld w 7 4 == 0)
    && (op != 0x14 || (fld w 7 4 ≤ 11 && (fld w 7 4 != 11 || fld w 3 2 == 0)))
    && Nat.land (fld w 3 2) (3 - rm) == 0
    && (!(0x10 ≤ op && op ≤ 0x12) || !bit w 25)

/-- The shape of an OPERATOR: its counts. -/
structure Shape where
  iter : Nat
  rows : Nat
  elems : Nat
  deriving DecidableEq, Repr
def Desc.shape (d : Desc) : Shape := { iter := d.iter, rows := d.opRows, elems := d.rowElems }
/-- W of R126. -/
def Ocb.width (o : Ocb) (h : Shape) : Nat := if o.dotEn then o.dotRows else h.elems
/-- Elements of each store (Table 05-7). -/
def Ocb.outElems (o : Ocb) (h : Shape) : Nat :=
  let w := o.width h
  if o.selEn then if o.selPerIter then h.iter * o.selK else o.selK
  else if o.redEn then
    if o.redAxis = 0 then h.iter * h.rows * w
    else if o.redAxis = 1 then h.iter * h.rows
    else cdiv h.iter (if o.redGroup = 0 then h.iter else o.redGroup) * h.rows * w
  else h.iter * h.rows * w
/-- Whether Table 05-7 gives store 1 something. -/
def Ocb.hasStore1 (o : Ocb) : Bool :=
  if o.selEn then true else if o.redEn then o.redOp == 3 else !o.dotEn
/-- Whether the dot stage takes the native path (R136). -/
def Ocb.native (o : Ocb) : Bool :=
  !o.unpackEn && o.progLen == 0 && !([0, 10].contains (o.load 0).fmt) && !([0, 10].contains (o.load 3).fmt)
/-- The elements of a stream's rows: the dot matrix has the rows' own. -/
def Ocb.storeList (o : Ocb) : List SEnt := (List.range 2).filterMap (fun k => if o.storeEn k then some (o.store k) else none)
/-- Table 05-6 for a user configuration. -/
def Ocb.valid (o : Ocb) (h : Shape) (declared : Nat) : Bool :=
  let n := o.outElems h
  let w := o.width h
  o.c 420 0 == 0 && o.num 0x1C0 64 == 0 && o.round != 3 && o.progLen ≤ 32 && o.dotRows ≤ 256 && o.redAxis != 3 && o.selK ≤ 256
  && (List.range 4).all (fun k => if o.loadEn k then (o.load k).ok h.elems false (k == 3) else (o.load k).word == 0)
  && (List.range 2).all (fun k => if o.storeEn k then (o.store k).ok h.elems true false else (o.store k).word == 0)
  && (o.packEn || o.storeList.all (fun x => x.fmt == 10))
  && !(o.dotEn && (!o.loadEn 3 || (o.load 3).iterPitch != 0 || (o.redEn && o.redAxis == 0)))
  && (o.hasStore1 || !o.storeEn 1) && (o.storeList.map (fun x => x.derived n)).sum ≤ declared
  && (!o.dotEn || (if o.native then o.dotRows * (denseBytes (o.load 3).fmt h.elems + (o.load 3).scaleBytes h.elems)
      else o.dotRows * h.elems * 2) ≤ 2097152)
  && (!(o.redEn && o.redAxis == 2) || h.rows * w * (if o.redOp = 3 then 8 else 4) ≤ 3670016)
  && o.prog.all instrOk

/-! Touched ranges (R118, R122, R144). -/

/-- The touched range of a load stream: data, then scales. `rows` is `ITER * ROWS` pairs, or the dot matrix' rows. -/
def SEnt.touched (x : SEnt) (rows : List (Nat × Nat)) (n : Nat) : List Stream :=
  let data := if x.sparse = 1 then [(0, x.iterPitch)]
    else rows.map (fun r => (r.1 * x.iterPitch + r.2 * x.rowPitch, x.rowBytes n))
  x.ep.stream data 0 ++ (if x.scaled then x.scaleEp.stream [(0, rows.length * n / 32)] 0 else [])
/-- The touched range of store stream `k` of `n` elements; a REMOTE store has none. -/
def SEnt.stored (x : SEnt) (k n : Nat) : List Stream :=
  x.ep.stream [(0, x.storeBytes n)] 1 (k + 1) ++ (if x.scaled then x.scaleEp.stream [(0, x.scaleBytes n)] 1 (k + 1) else [])
/-- The rows of a shape, in order: (iteration, row). -/
def Shape.list (h : Shape) : List (Nat × Nat) :=
  (List.range h.iter).flatMap (fun t => (List.range h.rows).map (fun r => (t, r)))
/-- The streams of a user configuration. -/
def Ocb.streams (o : Ocb) (h : Shape) : List Stream :=
  (List.range 4).flatMap (fun k =>
    if !o.loadEn k then []
    else if k = 3 && o.dotEn then (o.load 3).touched ((List.range o.dotRows).map (fun r => (0, r))) h.elems
    else (o.load k).touched h.list h.elems)
  ++ (List.range 2).flatMap (fun k => if o.storeEn k then (o.store k).stored k (o.outElems h) else [])

/-! Stock operators (R143 to R166). -/

/-- Elements of store 0 and store 1 of a stock operator, at most. -/
def Ocb.stockElems (o : Ocb) (code : Nat) (h : Shape) : Nat × Nat :=
  let b := h.iter * h.rows
  match code with
  | 1 => (h.iter * h.elems, 0)
  | 2 => (b * h.elems, b * o.arg 87 84)
  | 3 => (o.arg 127 96 * h.elems, b * o.arg 87 84)
  | 4 => (h.iter * o.arg 10 2 * (o.arg 175 144 / 4), h.iter * o.arg 10 2 * 2)
  | 5 => ((64 + roundUp (cdiv b 8) 64 + roundUp (4 * cdiv b 16) 64 + b * 4104) / 4, 0)
  | 6 => (b * 1024, 0)
  | _ => (b * h.elems, 0)
/-- Load streams that a stock operator uses. -/
def Ocb.stockLoads (o : Ocb) (code : Nat) : List Nat :=
  match code with
  | 2 | 3 => if o.arg 81 81 = 1 then [0, 2] else [0]
  | 4 => [0, 3]
  | 5 | 6 => if o.arg 0 0 = 1 then [0] else [0, 1]
  | 7 | 8 | 9 => [0]
  | _ => []
/-- Store streams that a stock operator uses; store 1 of the row operators is enabled by its entry (R158). -/
def Ocb.stockStores (o : Ocb) (code : Nat) : List Nat :=
  match code with
  | 2 | 3 => if (o.store 1).word = 0 then [0] else [0, 1]
  | 4 => if o.arg 1 1 = 1 then [0, 1] else [1]
  | _ => [0]
/-- The reserved argument bits of each operator: the defined fields as (hi, lo). -/
def stockArgs : Nat → List (Nat × Nat)
  | 1 => [(86, 0)]
  | 2 => [(127, 96), (87, 84), (81, 0)]
  | 3 => [(167, 96), (87, 84), (82, 0)]
  | 4 => [(215, 64), (56, 12), (10, 0)]
  | 5 => [(191, 64), (1, 0)]
  | 6 => [(255, 192), (127, 64), (0, 0)]
  | 10 => [(95, 32), (1, 0)]
  | _ => []
/-- Fields that are 0 in a defined position are left out of `stockArgs`: whether every other bit is zero. -/
def Ocb.argsZero (o : Ocb) (code : Nat) : Bool :=
  let w := o.num 0x100 256
  (List.range 2048).all (fun i => !w.testBit i || (stockArgs code).any (fun r => r.2 ≤ i && i ≤ r.1))
/-- The row width that a load or store stream of a stock operator has, for row Formats. -/
def stockWidth (code k : Nat) (st : Bool) (h : Shape) : Nat :=
  if code = 4 && st then 32
  else if (code = 2 || code = 3) && ((st && k = 1) || (!st && k = 2)) then 32
  else if code = 5 || code = 6 then 1024
  else h.elems
/-- The block bound of `KV_SELECT`: rows of `K` scored in mode FULL. -/
def Ocb.kvRows (o : Ocb) (h : Shape) : Nat := if o.arg 0 0 = 1 then h.rows * o.arg 24 12 else h.rows
/-- Size of the forced set of `KV_SELECT` (R160). -/
def Ocb.kvForced (o : Ocb) (h : Shape) : List Nat :=
  (List.range h.rows).filter (fun b => b < o.arg 40 25 || h.rows ≤ b + o.arg 56 41)
/-- Whether the dot products of `KV_SELECT` take the native path (R136, R160). -/
def Ocb.kvNative (o : Ocb) : Bool := !([0, 10].contains (o.load 0).fmt) && !([0, 10].contains (o.load 3).fmt)
/-- Order 9 of a stock operator without its overlaps (R144 to R166). A table of SSB records, whose rows have no pitch, is refused
(DESIGN CHOICE, log 97). -/
def Ocb.stockValid (o : Ocb) (code : Nat) (h : Shape) (declared : Nat) : Bool :=
  let b := h.iter * h.rows
  let ls := o.stockLoads code
  let ss := o.stockStores code
  let n := o.stockElems code h
  let l0 := o.load 0
  let s0 := o.store 0
  let raw := fun (x : SEnt) => x.fmt == 10 && !x.scaled && x.sparse == 0
  Nat.lor (o.c 479 469) (o.c 465 0) == 0 && o.round != 3 && o.argsZero code
  && (List.range 4).all (fun k => if ls.contains k then (o.load k).ok (stockWidth code k false h) false (k == 3)
      else (o.load k).word == 0)
  && (List.range 2).all (fun k => if ss.contains k then (o.store k).ok (stockWidth code k true h) true false
      else (o.store k).word == 0)
  && (match code with
    | 1 =>
      let fmt := o.arg 85 82
      let sc := o.arg 86 86 == 1
      o.arg 81 80 != 3 && fmt ≤ 9 && (epOf 0 (o.arg 79 64)).local_ && h.rows ≤ 1024
      && !(sc && (fmt ≤ 2 || fmt == 9)) && (sc || !(5 ≤ fmt && fmt ≤ 7))
      && (!(sc || (5 ≤ fmt && fmt ≤ 7)) || h.elems % 32 == 0) && !(fmt == 9 && h.elems % 2 == 1)
      && s0.derived n.1 ≤ declared
    | 2 | 3 =>
      let w := o.load 2
      1 ≤ o.arg 87 84 && o.arg 87 84 ≤ 8 && (epOf 0 (o.arg 79 64)).local_
      && (!ls.contains 2 || (w.fmt ≤ 2 && !w.scaled && w.sparse == 0 && w.rowPitch == 0 && w.iterPitch == 0))
      && (!ss.contains 1 || raw (o.store 1)) && (if code = 2 then l0.iterPitch == 0 && l0.sparse != 1 else s0.sparse == 0)
      && s0.derived (if code = 2 then n.1 else b * o.arg 87 84 * h.elems)
          + (if ss.contains 1 then b * o.arg 87 84 * 4 else 0) ≤ declared
    | 4 =>
      let q := o.load 3
      let bb := o.arg 175 144
      h.iter ≤ 256 && 1 ≤ o.arg 10 2 && o.arg 10 2 ≤ 256 && (o.kvForced h).length ≤ o.arg 10 2
      && (if o.arg 0 0 = 1 then 1 ≤ o.arg 24 12 && o.arg 24 12 ≤ 4096 else o.arg 24 12 == 0)
      && (epOf 0 (o.arg 143 128)).local_ && (o.arg 1 1 == 0 || (64 ≤ bb && bb ≤ 16777216 && bb % 64 == 0))
      && raw (o.store 1) && (!ss.contains 0 || raw s0) && q.iterPitch == 0 && q.sparse != 1
      && h.iter * (if o.kvNative then denseBytes q.fmt h.elems + q.scaleBytes h.elems else 2 * h.elems) ≤ 2097152
      && h.iter * o.arg 10 2 * 8 + (if ss.contains 0 then h.iter * o.arg 10 2 * bb else 0) ≤ declared
    | 5 | 6 =>
      h.elems == 1024 && b ≤ 0xFFFFFFFF && raw s0 && (ls.all (fun k => raw (o.load k)))
      && (if code = 5 then 64 + roundUp (cdiv b 8) 64 + roundUp (4 * cdiv b 16) 64 + b * 4104 else b * 4096) ≤ declared
    | 7 => s0.derived n.1 ≤ declared
    | 8 => l0.sparse == 0 && s0.sparse == 1 && s0.derived n.1 ≤ declared
    | 9 => l0.sparse == 1 && s0.sparse == 0 && s0.derived n.1 ≤ declared
    | _ => o.arg 1 0 != 3 && s0.derived n.1 ≤ declared)
/-- The index list of the row operators. -/
def Ocb.indexEp (o : Ocb) : Ep := epOf (o.arg 63 0) (o.arg 79 64)
/-- Its bytes. -/
def Ocb.indexBytes (o : Ocb) (h : Shape) : Nat := h.iter * h.rows * o.arg 87 84 * (if o.arg 80 80 = 1 then 8 else 4)
/-- Data and scale bytes of one `REDUCE_N` input. -/
def Ocb.inputBytes (o : Ocb) (h : Shape) : Nat :=
  denseBytes (o.arg 85 82) (h.iter * h.elems) + (if o.arg 86 86 = 1 then h.iter * h.elems / 32 else 0)
/-- The table of a row operator: its rows, then their scales. -/
def Ocb.table (o : Ocb) (h : Shape) (x : SEnt) (pitch acc who : Nat) (both : Bool) : List Stream :=
  x.ep.stream (tableBound (o.arg 127 96) pitch (x.rowBytes h.elems)) acc who both
  ++ (if x.scaled then x.scaleEp.stream [(0, o.arg 127 96 * h.elems / 32)] acc who both else [])
/-- The streams of a stock operator in the order of R144; `list` the entries of the `REDUCE_N` input list. -/
def Ocb.stockStreams (o : Ocb) (code : Nat) (h : Shape) (list : List Ep) : List Stream :=
  let n := o.stockElems code h
  let st := fun (k : Nat) (m : Nat) => if (o.stockStores code).contains k then (o.store k).stored k m else []
  let l0 := o.load 0
  let weights := if (o.stockLoads code).contains 2 then
      (o.load 2).ep.stream [(0, denseBytes (o.load 2).fmt (h.iter * h.rows * o.arg 87 84))] 0 4 else []
  match code with
  | 1 => o.indexEp.stream [(0, 16 * h.rows)] 0 ++ list.flatMap (fun e => e.stream [(0, o.inputBytes h)] 0) ++ st 0 n.1
  | 2 => o.indexEp.stream [(0, o.indexBytes h)] 0 4 ++ o.table h l0 l0.rowPitch 0 3 false ++ weights ++ st 0 n.1 ++ st 1 n.2
  | 3 => o.indexEp.stream [(0, o.indexBytes h)] 0 4 ++ l0.touched h.list h.elems ++ weights
      ++ o.table h (o.store 0) (o.arg 167 128) 1 1 (o.arg 82 82 == 1) ++ st 1 n.2
  | 4 => (epOf (o.arg 127 64) (o.arg 143 128)).stream [(0, h.rows * o.arg 215 176)] 0 3
      ++ l0.touched ((List.range (o.kvRows h)).map (fun r => (0, r))) h.elems
      ++ (o.load 3).touched ((List.range h.iter).map (fun r => (0, r))) h.elems ++ st 0 n.1 ++ st 1 n.2
  | 5 => (o.stockLoads code).flatMap (fun k => (o.load k).touched h.list h.elems) ++ st 0 n.1
  | 6 => l0.ep.stream [(0, o.arg 255 192)] 0 3
      ++ (if (o.stockLoads code).contains 1 then (o.load 1).touched h.list h.elems else []) ++ st 0 n.1
  | 10 => st 0 n.1
  | _ => l0.touched h.list h.elems ++ st 0 n.1
/-- The region bytes of the streams that a condition selects. -/
def streamBytes (ss : List Stream) (rs : List Run) (f : Stream → Bool) : List (Nat × Nat × Nat) :=
  (ss.filter f).flatMap (fun x => (x.regs rs).flatten)
/-- The overlaps that reject an operator: a store with the OCB, a load or the other store, and a table with the index list or the
weights (R118, R158). -/
def streamClash (ss : List Stream) (rs : List Run) : Bool :=
  let sel := streamBytes ss rs
  clash (sel (fun x => x.acc == 0)) (sel (fun x => x.acc == 1))
  || clash (sel (fun x => x.acc == 1 && x.who == 1)) (sel (fun x => x.acc == 1 && x.who == 2))
  || clash (sel (fun x => x.acc == 0 && x.who == 3)) (sel (·.who == 4))

end Sys2Proof.Machine
end

