-- ==== Sys2Proof/Machine/Datapath.lean ====
section
/-! DEFINITION. The stage chain of an operator engine: load, unpack, expression, dot, reduce, select, pack (R114 to R141). -/

namespace Sys2Proof.Machine

/-- A lane: 32 bits and poison. -/
abbrev Lane := Nat × Bool
/-- A loaded element: its code, its block's scale byte when scaled, and poison. -/
structure Elem where
  code : Nat
  scale : Option Nat := none
  poison : Bool := false
  deriving DecidableEq, Repr

/-! Load and unpack (R122, R125, R131, R137 to R139). -/

/-- Elements of dense bytes: `n` codes of a format, each poisoned when a byte of it is. -/
def denseElems (fmt n : Nat) (bs : List (Byte × Bool)) : List (Nat × Bool) :=
  let w := fmtBits fmt
  (List.range n).map (fun i =>
    let blk := (bs.drop (i / 32 * blockBytes fmt)).take (blockBytes fmt)
    let j := i % 32
    let lo := w * j / 8
    let hi := (w * (j + 1) + 7) / 8
    let part := (blk.drop lo).take (hi - lo)
    (leNat (part.map (·.1)) / 2 ^ (w * j - 8 * lo) % 2 ^ w, part.any (·.2)))
/-- Attaches scale bytes to a row's elements. -/
def withScales (es : List (Nat × Bool)) (sc : Option (List (Byte × Bool))) : List Elem :=
  es.zipIdx.map (fun x =>
    match sc with
    | none => { code := x.1.1, poison := x.1.2 }
    | some l =>
      let b := l.getD (x.2 / 32) (0, false)
      { code := x.1.1, scale := some b.1.toNat, poison := x.1.2 || b.2 })
/-- One block of a 2:4 stream (R138); none when a group's positions are out of order. -/
def sparse24 (fmt : Nat) (bs : List (Byte × Bool)) : Option (List (Nat × Bool)) :=
  let md := leNat ((bs.take 4).map (·.1))
  let mp := (bs.take 4).any (·.2)
  let es := denseElems fmt 16 (bs.drop 4)
  let ps := (List.range 8).map (fun g => (fld md (4 * g + 1) (4 * g), fld md (4 * g + 3) (4 * g + 2)))
  if ps.any (fun p => p.2 ≤ p.1) then none
  else some ((List.range 32).map (fun i =>
    let p := ps.getD (i / 4) (0, 1)
    let at_ := fun (k : Nat) => let e := es.getD (2 * (i / 4) + k) (0, false); (e.1, e.2 || mp)
    if i % 4 = p.1 then at_ 0 else if i % 4 = p.2 then at_ 1 else (0, mp)))
/-- A row of a 2:4 stream. -/
def sparse24Row (fmt n : Nat) (bs : List (Byte × Bool)) : Option (List (Nat × Bool)) :=
  let sz := 4 + blockBytes fmt / 2
  ((List.range (cdiv n 32)).foldl (fun (r : Option (List (Nat × Bool))) k =>
    match r, sparse24 fmt ((bs.drop (k * sz)).take sz) with
    | some l, some b => some (l ++ b)
    | _, _ => none) (some [])).map (·.take n)
/-- The records of an SSB stream of `blocks` blocks (R137): the blocks before the first record that reaches beyond the bytes
given. -/
def ssbBlocks (fmt : Nat) : Nat → List (Byte × Bool) → List (List (Nat × Bool))
  | 0, _ => []
  | n + 1, bs =>
    if bs.length < 4 then []
    else
      let bm := leNat ((bs.take 4).map (·.1))
      let bp := (bs.take 4).any (·.2)
      let cnt := (bitsOf bm 32).length
      let size := roundUp (cdiv (fmtBits fmt * cnt) 8) 4
      if bs.length < 4 + size then []
      else
        let es := denseElems fmt 32 (bs.drop 4)
        let blk := (List.range 32).map (fun i =>
          if bm.testBit i then
            let e := es.getD ((bitsOf bm i).length) (0, false)
            (e.1, e.2 || bp)
          else (0, bp))
        blk :: ssbBlocks fmt n (bs.drop (4 + size))
/-- The FP32 lane of a loaded element, unpacked or raw (R114, R131, R139). -/
def Elem.lane (fmt : Nat) (unpack : Bool) (e : Elem) : Lane :=
  (if unpack then decodeElem fmt e.scale e.code else e.code, e.poison)

/-! The expression unit (R125, R139 to R141). -/

/-- Registers, masks (with the poison of each lane) and generators of the unit. -/
structure Unit_ where
  v : List (List Lane)
  m : List (List (Bool × Bool))
  g : List Nat
  deriving DecidableEq, Repr
/-- The unit at the start of a descriptor (R115, R125, R135). -/
def Unit_.start (seed : Nat) : Unit_ :=
  { v := List.replicate 8 (List.replicate 64 (0, false)), m := List.replicate 4 (List.replicate 64 (false, false)),
    g := genStart seed }
def Unit_.reg (u : Unit_) (n : Nat) : List Lane := u.v.getD n []
def lane (l : List Lane) (i : Nat) : Lane := l.getD i (0, false)
/-- `CVT` to a scaled format of one 32-lane half, decoded back; of its block the first `n` lanes are no padding (R134, R141). -/
def cvtScaled (fmt : Nat) (sat : Bool) (n : Nat) (vs : List Nat) (rs : List Rnd) : List Nat :=
  let sc := blockScale fmt sat (vs.take n ++ List.replicate (32 - n) 0)
  (vs.zip rs).map (fun x => decodeElem fmt (some sc) (encodeScaled fmt sc x.2 x.1))
/-- Whether a format is always scaled (Table 05-10). -/
def alwaysScaled (fmt : Nat) : Bool := 5 ≤ fmt && fmt ≤ 7
/-- A rounding for each of the 64 lanes; SR draws once for every lane. -/
def laneRnds (mode : Nat) (g : List Nat) : List Rnd × List Nat :=
  (List.range 64).foldl (fun (r : List Rnd × List Nat) i =>
    let (x, g) := drawRnd mode r.2 i
    (r.1 ++ [x], g)) ([], g)
/-- The lane results of `CVT`; the first `n` lanes are no padding (R133, R134, R141). -/
def cvt (code mode n : Nat) (sat : Bool) (a : List Nat) (g : List Nat) : List Nat × List Nat :=
  if code = 11 then (a.map (fun x => intF32 (s32 x)), g)
  else
    let (rs, g) := laneRnds mode g
    if code = 10 then ((a.zip rs).map (fun x => encodeInt 32 x.2 (f32 x.1)), g)
    else if alwaysScaled code then
      (cvtScaled code sat (min n 32) (a.take 32) (rs.take 32) ++ cvtScaled code sat (n - 32) (a.drop 32) (rs.drop 32), g)
    else ((a.zip rs).map (fun x => decodeElem code none (encodeElem code false x.2 sat (f32 x.1))), g)
/-- A lane operation with up to three operands (Table 05-12). -/
def laneOp (op rm a b c : Nat) : Nat :=
  match op with
  | 0x01 => a
  | 0x02 => fAdd a b | 0x03 => fSub a b | 0x04 => fMul a b | 0x05 => fFma a b c
  | 0x06 => fMax a b | 0x07 => fMin a b
  | 0x08 => a % 0x80000000 | 0x09 => fNeg a
  | 0x0A => fExp2 a | 0x0B => fLog2 a | 0x0C => fRcp a | 0x0D => fRsqrt a | 0x0E => fTanh a
  | 0x18 => Nat.land a b | 0x19 => Nat.lor a b | 0x1A => Nat.xor a b
  | 0x1B => (a <<< (b % 32)) % 2 ^ 32
  | 0x1C => if bit rm 1 then ((s32 a / (2 ^ (b % 32) : Nat)) % 2 ^ 32).toNat else a >>> (b % 32)
  | 0x1D => fMin (fMax a b) c
  | _ => 0
/-- Executes one instruction; `base` is the element index of lane 0 in the row, `n` the lanes that are no padding. -/
def Unit_.exec (o : Ocb) (base n : Nat) (u : Unit_) (w : Nat) : Unit_ :=
  let op := fld w 31 26
  let dst := fld w 25 23
  let masked := bit w 11
  let msk := u.m.getD (fld w 13 12) []
  let A := u.reg (fld w 22 20)
  let B := if bit w 9 then List.replicate 64 (o.const (fld w 7 4), false) else u.reg (fld w 19 17)
  let C := u.reg (fld w 16 14)
  let (ua, ub, uc) := match opUses op with
    | some (a, b, c, _, _) => (a, b, c)
    | none => (false, false, false)
  let mk := fun (i : Nat) => msk.getD i (false, false)
  let mp := fun (i : Nat) => (masked || op == 0x13) && (mk i).2
  let pz := fun (i : Nat) => (ua && (lane A i).2) || (ub && (lane B i).2) || (uc && (lane C i).2) || mp i
  if op = 0 then u
  else if 0x10 ≤ op && op ≤ 0x12 then
    let k := dst % 4
    let old := u.m.getD k []
    { u with m := u.m.set k ((List.range 64).map (fun i =>
        let a := (lane A i).1
        let b := (lane B i).1
        let r := if op = 0x10 then fLt a b else if op = 0x11 then fLt a b || fEq a b else fEq a b
        if masked && !(mk i).1 then ((old.getD i (false, false)).1, (old.getD i (false, false)).2 || mp i) else (r, pz i))) }
  else
    let (vals, g) : List Nat × List Nat :=
      if op = 0x14 then
        let rm := fld w 3 2
        cvt (fld w 7 4) (if rm = 0 then o.round else rm - 1) n o.sat (A.map (·.1)) u.g
      else if op = 0x20 then ((List.range 64).map (fun i => intF32 ((base + i : Nat) : Int)), u.g)
      else if op = 0x21 then (List.replicate 64 (o.const (fld w 7 4)), u.g)
      else if op = 0x22 then
        (List.range 64).foldl (fun (r : List Nat × List Nat) i =>
          let (x, g) := genDraw r.2 i
          (r.1 ++ [x], g)) ([], u.g)
      else if op = 0x13 then ((List.range 64).map (fun i => if (mk i).1 then (lane A i).1 else (lane B i).1), u.g)
      else ((List.range 64).map (fun i => laneOp op (fld w 3 2) (lane A i).1 (lane B i).1 (lane C i).1), u.g)
    let old := u.reg dst
    { u with
      g := g
      v := u.v.set dst ((List.range 64).map (fun i =>
        if masked && !(mk i).1 then ((lane old i).1, (lane old i).2 || mp i) else (vals.getD i 0, pz i))) }

/-! Dot (R136). -/

/-- The exact sum of values, rounded once to FP32. -/
def exactSum (vs : List FVal) : Nat :=
  match vs with
  | [] => 0
  | v :: r => toF32 (r.foldl FVal.add v)
/-- BF16 rounding of an FP32 lane. -/
def toBf16 (x : Nat) : FVal := floatVal 1 (encodeElem 1 false .rne false (f32 x))
/-- The value of an element without its block scale, on the native path. -/
def Elem.nativeVal (fmt : Nat) (e : Elem) : FVal := elemVal fmt e.scale.isSome e.code
/-- The scale exponent of a block, none for NaN. -/
def blkScale (b : List Elem) : Option Int :=
  match b.head? with
  | some e => (match e.scale with
    | some s => scaleExp s
    | none => some 0)
  | none => some 0
/-- One block sum: products exact, rounded once, then scaled. -/
def blockSum (ps : List FVal) (sc : Option Int) : Nat :=
  let z : List FVal := List.replicate (32 - ps.length) (.fin false 0 0)
  match sc with
  | none => nan32
  | some k => toF32 ((f32 (exactSum (ps ++ z))).scale k)
/-- The integer value of an element. -/
def Elem.int (fmt : Nat) (e : Elem) : Int :=
  match elemVal fmt false e.code with
  | .fin n m _ => if n then -(m : Int) else (m : Int)
  | _ => 0
/-- The native dot of a row with a matrix row. -/
def dotNative (fa fb : Nat) (a b : List Elem) : Nat :=
  let isInt := fun (f : Nat) (l : List Elem) => (f == 8 || f == 9) && l.all (fun e => e.scale.isNone)
  let blks := (chunksOf 32 a.length a).zip (chunksOf 32 b.length b)
  if isInt fa a && isInt fb b then
    intF32 (blks.foldl (fun (t : Int) x =>
      s32 (toS32 (t + ((x.1.zip x.2).map (fun y => y.1.int fa * y.2.int fb)).sum))) 0)
  else
    blks.foldl (fun t x =>
      let sc := match blkScale x.1, blkScale x.2 with
        | some p, some q => some (p + q)
        | _, _ => none
      fAdd t (blockSum ((x.1.zip x.2).map (fun y => (y.1.nativeVal fa).mul (y.2.nativeVal fb))) sc)) 0
/-- The converted dot of FP32 lanes. -/
def dotConverted (a b : List Nat) : Nat :=
  ((chunksOf 32 a.length a).zip (chunksOf 32 b.length b)).foldl (fun t x =>
    fAdd t (blockSum ((x.1.zip x.2).map (fun y => (toBf16 y.1).mul (toBf16 y.2))) (some 0))) 0

/-! Reduce (R127). -/

/-- Combines two values by `RED_OP`: 0 SUM, 1 MAX or ARGMAX, 2 MIN. -/
def red2 (op a b : Nat) : Nat := if op = 0 then fAdd a b else if op = 2 then fMin a b else fMax a b
/-- One level of the fixed binary tree: neighbours combine, one without a partner passes up. -/
def treeLevel (op : Nat) : List Nat → List Nat
  | a :: b :: r => red2 op a b :: treeLevel op r
  | l => l
/-- The tree over one vector, with fuel. -/
def treeSum (op : Nat) (l : List Nat) : Nat := (iter 7 (treeLevel op) l).headD 0
/-- Combines values in vectors of 64, vector sums in ascending order (R127). -/
def redRow (op : Nat) (l : List Nat) : Nat :=
  match (chunksOf 64 l.length l).map (treeSum op) with
  | [] => 0
  | v :: r => r.foldl (red2 op) v
/-- The place of the first NaN, or else of the first maximum. -/
def argmax (l : List Nat) : Nat × Nat :=
  match l.findIdx? fIsNan with
  | some i => (l.getD i nan32, i)
  | none =>
    match l with
    | [] => (0xFF800000, 0)
    | x :: r =>
      let best := r.zipIdx.foldl (fun (b : Nat × Nat) y => if fLt b.1 y.1 then (y.1, y.2 + 1) else b) (x, 0)
      best
/-- Four at a time, absent ones omitted: ((s0 + s1) + (s2 + s3)) (R127, R147). -/
def red4 (op : Nat) : List Nat → Nat
  | [a, b, c, d] => red2 op (red2 op a b) (red2 op c d)
  | [a, b, c] => red2 op (red2 op a b) c
  | [a, b] => red2 op a b
  | [a] => a
  | _ => 0

/-! Select (R128). -/

/-- Whether candidate `a` ranks before `b`: by value, NaN last, the lower index on a tie. -/
def ranksBefore (a b : Nat × Nat) : Bool :=
  if fIsNan a.1 then fIsNan b.1 && a.2 < b.2
  else if fIsNan b.1 then true
  else if fLt b.1 a.1 then true
  else if fLt a.1 b.1 then false
  else a.2 < b.2
/-- The k best of a list of candidates, filled up with -infinity and index 0xFFFF_FFFF. -/
def selectK (k : Nat) (vs : List Nat) : List (Nat × Nat) :=
  let l := (sortBy (fun a b => ranksBefore a b) vs.zipIdx).take k
  l ++ List.replicate (k - l.length) (0xFF800000, 0xFFFFFFFF)

/-! Output elements and packing (R126, R131 to R135). -/

/-- A store element before packing: its lane and the rounding drawn for it. -/
structure OutEl where
  bits : Nat
  poison : Bool
  rnd : Rnd
  deriving DecidableEq, Repr
/-- Whether a store draws: an SR encode by the pack stage. -/
def storeDraws (mode : Nat) (pack : Bool) (x : SEnt) : Bool := mode == 2 && pack && x.fmt != 10
/-- Output elements that are not lanes: element `e` draws from lane `e mod 64` (R135). -/
def drawOuts (mode : Nat) (draws : Bool) (first : Nat) (ls : List Lane) (g : List Nat) : List OutEl × List Nat :=
  ls.zipIdx.foldl (fun (r : List OutEl × List Nat) x =>
    let (rnd, g) := drawRnd (if draws then mode else if mode = 2 then 0 else mode) r.2 ((first + x.2) % 64)
    (r.1 ++ [{ bits := x.1.1, poison := x.1.2, rnd }], g)) ([], g)
/-- The codes of stored elements and the scale byte of each block. -/
def packOuts (x : SEnt) (pack sat : Bool) (es : List OutEl) : List (Nat × Bool) × List (Nat × Bool) :=
  if !pack || x.fmt = 10 then (es.map (fun e => (e.bits, e.poison)), [])
  else if x.scaled then
    let bl := chunksOf 32 es.length es
    let enc := bl.map (fun b =>
      let vs := b.map (·.bits)
      let sc := blockScale x.fmt sat (vs ++ List.replicate (32 - vs.length) 0)
      (b.map (fun e => (encodeScaled x.fmt sc e.rnd e.bits, e.poison)), (sc, b.any (·.poison))))
    (enc.flatMap (·.1), enc.map (·.2))
  else (es.map (fun e => (encodeElem x.fmt false e.rnd sat (f32 e.bits), e.poison)), [])
/-- Codes as bytes with the poison of each byte's elements, block by block: dense, whole blocks for block formats, or SSB records
(R126, R132, R137). `RAW32` has no sign of its own; in an SSB store its code 0x8000_0000 counts as -0, which is absent (DESIGN CHOICE,
log 97). -/
def storeBlocks (x : SEnt) (cs : List (Nat × Bool)) : List (List (Byte × Bool)) :=
  let w := fmtBits x.fmt
  let zero := fun (c : Nat) => c == 0 || (x.fmt < 8 && c == (ffmt x.fmt).sign) || (x.fmt == 10 && c == 0x80000000)
  let pk := fun (l : List (Nat × Bool)) (size : Nat) =>
    let bs := packBits w (l.map (·.1))
    let bs := bs ++ List.replicate (size - bs.length) 0
    bs.zipIdx.map (fun b => (b.1, ((l.drop (8 * b.2 / w)).take (max 1 (cdiv (8 * b.2 + 8) w - 8 * b.2 / w))).any (·.2)))
  (chunksOf 32 cs.length cs).map (fun b =>
    if x.sparse = 1 then
      let pres := b.map (fun c => !zero c.1)
      let bm := (pres.zipIdx.map (fun p => if p.1 then 2 ^ p.2 else 0)).sum
      let l := (b.zip pres).filterMap (fun y => if y.2 then some y.1 else none)
      let pz := b.any (·.2)
      (leBytes 4 bm).map (fun y => (y, pz)) ++ pk l (roundUp (cdiv (w * l.length) 8) 4)
    else if x.scaled || alwaysScaled x.fmt || x.fmt = 9 then pk b (blockBytes x.fmt)
    else pk b (cdiv (w * b.length) 8))
/-- The bytes of a store. -/
def storeBytesOf (x : SEnt) (cs : List (Nat × Bool)) : List (Byte × Bool) := (storeBlocks x cs).flatten

/-! The run of a user configuration. -/

/-- What the chain holds while it runs: the unit, the current row's stage-3 lanes or dot outputs, ITER accumulators (value
and index by place), select candidates, and the two stores' elements. -/
structure Chain where
  u : Unit_
  row : List Lane := []
  acc : List (Lane × Nat) := []
  cand : List Lane := []
  o0 : List OutEl := []
  o1 : List OutEl := []
  deriving DecidableEq, Repr
/-- The data of a run: load streams' rows in order, and the dot matrix. -/
structure Feed where
  rows : List (List (List Elem))
  matrix : List (List Elem)
  deriving DecidableEq, Repr
/-- Emits elements to both stores, drawing for each. -/
def Chain.emit (o : Ocb) (c : Chain) (l0 l1 : List Lane) : Chain :=
  let (a, g) := drawOuts o.round (storeDraws o.round o.packEn (o.store 0) && o.storeEn 0) c.o0.length l0 c.u.g
  let (b, g) := drawOuts o.round (storeDraws o.round o.packEn (o.store 1) && o.storeEn 1) c.o1.length l1 g
  { c with o0 := c.o0 ++ a, o1 := c.o1 ++ b, u := { c.u with g } }
/-- Emits the lanes of a vector step; padding lanes draw and store nothing (R125, R135). -/
def Chain.emitLanes (o : Ocb) (c : Chain) (n : Nat) : Chain :=
  let one := fun (k : Nat) (g : List Nat) =>
    if o.storeEn k && storeDraws o.round o.packEn (o.store k) then laneRnds 2 g
    else (List.replicate 64 (if o.round = 1 then Rnd.rtz else Rnd.rne), g)
  let pri := c.u.reg (if o.progLen = 0 then 0 else 4)
  let sec := c.u.reg (if o.progLen = 0 then 1 else 5)
  let (r0, g) := one 0 c.u.g
  let (r1, g) := one 1 g
  let mk := fun (l : List Lane) (rs : List Rnd) =>
    ((l.zip rs).take n).map (fun x => ({ bits := x.1.1, poison := x.1.2, rnd := x.2 } : OutEl))
  { c with o0 := c.o0 ++ mk pri r0, o1 := c.o1 ++ mk sec r1, u := { c.u with g } }
/-- Values that leave the reduce stage, or skip it, go to select or to the stores. -/
def Chain.out (o : Ocb) (c : Chain) (l0 l1 : List Lane) : Chain :=
  if o.selEn then { c with cand := c.cand ++ l0 } else c.emit o l0 l1
/-- The selection of a finished scope (R128, R139). -/
def Chain.select (o : Ocb) (c : Chain) : Chain :=
  let pz := c.cand.any (·.2)
  let l := selectK o.selK (c.cand.map (·.1))
  ({ c with cand := [] } : Chain).emit o (l.map (fun x => (x.1, pz))) (l.map (fun x => (x.2, pz)))
/-- Iterations of an ITER group (R126). -/
def Ocb.group (o : Ocb) (h : Shape) : Nat := if o.redGroup = 0 then h.iter else o.redGroup
/-- ITER: element at place `k` of the accumulators in iteration `t` (R127). -/
def Chain.iterAcc (o : Ocb) (h : Shape) (t k : Nat) (x : Lane) (c : Chain) : Chain :=
  let it := t % o.group h
  let old := c.acc.getD k ((0, false), 0)
  let new : Lane × Nat :=
    if it = 0 then (x, 0)
    else if o.redOp = 3 then
      if fIsNan old.1.1 then ((old.1.1, old.1.2 || x.2), old.2)
      else if fIsNan x.1 then ((x.1, old.1.2 || x.2), it)
      else if fLt old.1.1 x.1 then ((x.1, old.1.2 || x.2), it)
      else ((old.1.1, old.1.2 || x.2), old.2)
    else ((red2 o.redOp old.1.1 x.1, old.1.2 || x.2), 0)
  let c := { c with acc := listSet c.acc k ((0, false), 0) new }
  if it + 1 = o.group h || t + 1 = h.iter then c.out o [new.1] [(new.2, new.1.2)] else c
/-- What follows a finished row of `W` values: ROW reduction, or dot outputs alone (R126, R127). -/
def Chain.rowDone (o : Ocb) (h : Shape) (t r : Nat) (c : Chain) : Chain :=
  let vals := c.row
  let c := { c with row := [] }
  let pz := vals.any (·.2)
  if o.redEn && o.redAxis = 1 then
    if o.redOp = 3 then
      let (v, i) := argmax (vals.map (·.1))
      c.out o [(v, pz)] [(i, pz)]
    else c.out o [(redRow o.redOp (vals.map (·.1)), pz)] []
  else if o.dotEn then
    if o.redEn && o.redAxis = 2 then
      vals.zipIdx.foldl (fun c x => c.iterAcc o h t (r * o.dotRows + x.2) x.1) c
    else c.out o vals []
  else c
/-- One vector step: vector `v` of row `r` of iteration `t`. -/
def Chain.step (o : Ocb) (h : Shape) (f : Feed) (t r v : Nat) (c : Chain) : Chain :=
  let n := min 64 (h.elems - 64 * v)
  let vec := fun (k : Nat) =>
    if o.loadEn k && !(k == 3 && o.dotEn) then
      let es := (((f.rows.getD k []).getD (t * h.rows + r) []).drop (64 * v)).take n
      let l := es.map (Elem.lane (o.load k).fmt o.unpackEn)
      l ++ List.replicate (64 - l.length) (0, false)
    else List.replicate 64 (0, false)
  let u0 := { c.u with v := (List.range 8).map (fun k => if k < 4 then vec k else c.u.reg k) }
  let c := { c with u := o.prog.foldl (Unit_.exec o (64 * v) n) u0 }
  let pri := (c.u.reg (if o.progLen = 0 then 0 else 4)).take n
  if !o.dotEn && !o.redEn && !o.selEn then c.emitLanes o n
  else if o.dotEn then { c with row := c.row ++ pri }
  else if !o.redEn then c.out o pri []
  else if o.redAxis = 1 then { c with row := c.row ++ pri }
  else if o.redAxis = 2 then
    pri.zipIdx.foldl (fun c x => c.iterAcc o h t (r * h.elems + 64 * v + x.2) x.1) c
  else
    let ks := if o.progLen = 0 then (List.range 4).filter o.loadEn else [4]
    let lanes := (List.range n).map (fun i => ks.map (fun k => lane (c.u.reg k) i))
    let l := lanes.map (fun xs =>
      let pz := xs.any (·.2)
      if o.redOp = 3 then
        let (y, i) := argmax (xs.map (·.1))
        ((y, pz), ((if o.progLen = 0 then ks.getD i 0 else 0), pz))
      else ((red4 o.redOp (xs.map (·.1)), pz), ((0, pz) : Lane)))
    c.out o (l.map (·.1)) (if o.redOp = 3 then l.map (·.2) else [])
/-- The dot outputs of a row (R136, R139). -/
def dotOuts (o : Ocb) (f : Feed) (t r : Nat) (h : Shape) (row : List Lane) : List Lane :=
  let raw := (f.rows.getD 0 []).getD (t * h.rows + r) []
  (List.range o.dotRows).map (fun k =>
    let mr := f.matrix.getD k []
    let pz := row.any (·.2) || mr.any (·.poison)
    (if o.native then dotNative (o.load 0).fmt (o.load 3).fmt raw mr
     else dotConverted (row.map (·.1)) (mr.map (fun e => (e.lane (o.load 3).fmt o.unpackEn).1)), pz))
/-- One row. -/
def Chain.doRow (o : Ocb) (h : Shape) (f : Feed) (t r : Nat) (c : Chain) : Chain :=
  let c := (List.range (cdiv h.elems 64)).foldl (fun c v => c.step o h f t r v) c
  (if o.dotEn then { c with row := dotOuts o f t r h c.row } else c).rowDone o h t r
/-- The chain over the first `n` rows of a shape; a per-iteration selection follows each iteration, a selection for the
whole descriptor its end. -/
def Chain.run (o : Ocb) (h : Shape) (f : Feed) (n : Nat) : Chain :=
  let c := (List.range n).foldl (fun (c : Chain) k =>
    let t := k / h.rows
    let r := k % h.rows
    let c := c.doRow o h f t r
    if o.selEn && o.selPerIter && r + 1 = h.rows then c.select o else c) { u := Unit_.start o.seed }
  if o.selEn && !o.selPerIter && n = h.iter * h.rows then c.select o else c

end Sys2Proof.Machine
end

