-- ==== Sys2Proof/Machine/Place.lean ====
section
/-! DEFINITION. Placements, quotas, and when an extent may be freed (R17, R19, R54, R56, R282, R293). -/

namespace Sys2Proof.Machine

/-- Order 1 of Table 01-4 for a placement: its tier or a member is absent. -/
def State.placeAbsent (s : State) (pl : Placement) : Bool :=
  (pl.tier == 1 && s.variant.dcs == 0) || (pl.tier < 2 && (s.members pl).any (fun u => !s.unitPresent u))
/-- Order 2 of Table 01-4 for a placement: tier reserved, masks empty or set for the other tier. -/
def Placement.bad (pl : Placement) : Bool :=
  2 ≤ pl.tier || (pl.tier == 0 && (pl.stkMask == 0 || pl.qtrMask == 0 || pl.dcMask != 0))
  || (pl.tier == 1 && (pl.dcMask == 0 || pl.stkMask != 0 || pl.qtrMask != 0))
/-- Whether partition `p` owns a slot of a group's active table. -/
def State.ownsSlot (s : State) (p g : Nat) : Bool := (s.group g).active.any (fun e => e.2 == 64 + p)
/-- R293: a strict partition owns no slot in the group of some member. -/
def State.strictBad (s : State) (p : Nat) (pl : Placement) : Bool :=
  s.strict p && (s.members pl).any (fun u => !s.ownsSlot p (unitGroup u))
/-- Whether an extent of `size` units fits the partition's quota for its tier (R282): its whole shares count. -/
def State.extentFits (s : State) (p : Nat) (pl : Placement) (size : Nat) : Bool :=
  let m := (s.members pl).length
  let n := m * cdiv size m
  if pl.tier = 0 then s.hotFits p (65536 * n)
  else (s.part? p).any (fun q => s.capUse p + n ≤ q.capQuota)
/-- Whether a publication names a region as target or staging. -/
def State.inPub (s : State) (rid : Nat) : Bool := s.pubs.any (fun p => p.target == rid || p.staging == rid)

/-- Whether a run or a fabric request that has resolved an extent is still under way; a held write resolves afresh when it
is released (R429, R432). -/
def State.extentUsed (s : State) (e : Nat) : Bool :=
  e != 0 && (s.queues.any (fun q => q.2.runs.any (fun r => r.extent == e))
  || s.descs.any (fun d => d.runs.any (fun r => r.extent == e))
  || s.coh.txns.any (fun t => t.req.ext == e) || s.coh.waiting.any (fun r => r.ext == e)
  || s.coh.joins.any (fun j => (j.2.kind == 1 || j.2.kind == 2) && j.2.ext == e)
  || s.fw.serves.any (fun v => v.2.live && v.2.extent == e))
/-- Frees the old extents of ended migrations to which nothing refers any more; an older extent that moved to one of them is
served by what that one moved to (R56). -/
def State.sweepExts (s : State) : State :=
  s.extents.foldl (fun s e =>
    if e.2.movedTo != 0 && !s.extentUsed e.1 then
      (({ s with extents := s.extents.map (fun x =>
          if x.2.movedTo = e.1 then (x.1, { x.2 with movedTo := e.2.movedTo }) else x) } : State)).freeExtent e.1 0
    else s) s

/-- Whether some member of a region is absent or frozen, has an absent stack id or holds a fenced bank of it (R22, R274). -/
def State.regionBad (s : State) (r : Region) : Bool :=
  (s.members r.pl).any (fun u =>
    let m := s.unit u
    m.absent || m.frozen.isSome || !m.absentIds.isEmpty
    || ((s.extents.at? r.extent).map (·.chunks)).any (fun cs =>
        cs.any (fun c => s.unitOf (c * 65536) == some u && s.chunkFenced u c)))
/-- The placement that a MIGRATE descriptor asks for (Table 04-5). -/
def Desc.placement (d : Desc) : Placement :=
  { tier := d.f 351 350
    stkMask := d.f 349 338
    qtrMask := d.f 337 334
    dcMask := d.f 333 318
    grain := d.f 317 316
    xorHash := d.f 315 315 == 1 }
/-- The region that a MIGRATE descriptor names. -/
def Desc.migRegion (d : Desc) : Nat := d.dst.addr / 2 ^ 44

end Sys2Proof.Machine
end

