-- ==== Sys2Proof/Machine/Moves.lean ====
section
/-! DEFINITION. How a running descriptor moves data: local and remote endpoints, finishing (R100 to R103, R108, R112, R229,
R266). -/

namespace Sys2Proof.Machine

/-! Finishing. -/

/-- The descriptor's access to memory, for reads that wait in a queue before they are used (R241). -/
def Desc.acc (d : Desc) (part : Nat) : Acc :=
  { cls := 1, tag := d.tag, part, desc := some (d.q, d.i), served := true }
/-- Whether reads of a descriptor still wait in a memory queue. -/
def State.readsQueued (s : State) (d : Desc) : Bool :=
  s.pool.units.any (fun u => u.2.rq.any (fun e => e.desc == some (d.q, d.i)))
/-- Queues the reads of local ranges for a descriptor (R241). -/
def State.requestKeys (s : State) (d : Desc) (part : Nat) (ks : List (Nat × Nat)) : State :=
  ks.foldl (fun s k => s.requestKey d.runs k.1 k.2 (d.acc part)) s
/-- Queues the reads of an operator or a contribution once; whether all of them have been served. -/
def State.fetched (s : State) (d : Desc) (part : Nat) (ks : List (Nat × Nat)) : Bool × State :=
  let s := if (s.desc? d.q d.i).any (·.asked) then s
    else (s.requestKeys d part ks).modDesc d.q d.i (fun d => { d with asked := true })
  (!s.readsQueued d, s)
/-- A descriptor ends now with a status: its engines are free and its outstanding messages are no longer awaited (R227, R229).
`RESULT` counts what has moved or been acknowledged (R103, R129). -/
def State.endDesc (s : State) (q : Nat) (i : BitVec 32) (st : Status) (partDone : Bool) : State :=
  match s.desc? q i with
  | none => s
  | some d =>
    ((s.freeEngine d).closeOwn (fun o => o.desc == some (q, i))).modDesc q i (fun d => { d with
      phase := .finished
      status := st
      partDone := partDone
      result := if d.typ = 7 then (if d.out.isEmpty then d.result else d.acked1 * 2 ^ 32 + d.acked)
        else if d.typ = 12 then 0 else d.acked
      out := []
      segs := 0 })
/-- The work of a started descriptor that is no transfer has been issued with a status and a result. -/
def State.issued (s : State) (d : Desc) (st : Status) (result : Nat) : State :=
  (s.modDesc d.q d.i (fun d => { d with moved := true, status := worse d.status st, result })).finishIf d.q d.i
/-- Runs `f` on a started descriptor of a type that has not yet issued its work. -/
def State.onStarted (s : State) (q i : Nat) (typ : Nat) (f : Desc → Queue → State → State) : State :=
  match s.desc? q (BitVec.ofNat 32 i), s.queue? q with
  | some d, some u => if d.phase == .started && !d.moved && d.typ == typ && !s.power.tapTest then f d u s else s
  | _, _ => s

/-! Remote endpoints (R103, R229 to R231). -/

/-- A byte count cut into messages: one up to 0xFFF_FFFF bytes, above that messages of at most 0xFFF_F000 bytes, which end at 4 KiB
boundaries (R231): (offset, bytes). -/
def msgCuts (n : Nat) : List (Nat × Nat) :=
  if n ≤ 0xFFFFFFF then (if n = 0 then [] else [(0, n)])
  else (List.range (cdiv n 0xFFFF000)).map (fun k => (k * 0xFFFF000, min 0xFFFF000 (n - k * 0xFFFF000)))
/-- Registers a message of the controller's own: its tag is taken. -/
def State.ownMsg (s : State) (d : Desc) (node op : Nat) : Nat × State :=
  let (t, s) := s.newTag node
  let key : FlowKey := { srcNode := s.node, srcEp := 0, dstNode := node, tc := d.tc }
  let m : OwnMsg := { node, tag := t, opcode := op, key := if s.ordClass d.tc then some key else none, desc := some (d.q, d.i) }
  let s := if s.ordClass d.tc then s.modCtx (tagNum d.tag) (fun c => { c with classes := addSorted c.classes d.tc }) else s
  (t, s.updNet (fun n => { n with own := n.own ++ [m] }))
/-- Adds an outstanding message to a descriptor. -/
def State.addOut (s : State) (d : Desc) (m : OutMsg) : State :=
  s.modDesc d.q d.i (fun d => { d with out := d.out ++ [m] })
/-- Sends the packets of one message; false when one finds no route (R225). -/
def State.sendAll (s : State) (part : Nat) (h : Hdr) (n : Nat) : List (Nat × List Byte × Bool) → Bool × State
  | [] => (true, s)
  | (o, bs, pz) :: r =>
    let h' : Hdr := { h with addr := h.addr + o, poison := pz, last := r.isEmpty, msgLen := n }
    match s.originate part { hdr := h'.sized bs.length, data := bs } with
    | none => (false, s)
    | some s => State.sendAll s part h n r
/-- Pushes bytes to a descriptor's remote endpoint as writes (R103): `cnt` is what each message's bytes count as, by byte
offset and length, `store` the store stream. False when there is no route. -/
def State.pushRemote (s : State) (d : Desc) (part rank addr : Nat) (bs : List (Byte × Bool)) (cnt : Nat → Nat → Nat)
    (store : Nat) : Bool × State :=
  match d.remote.at? rank with
  | none => (false, s)
  | some (node, ep) =>
    (msgCuts bs.length).foldl (fun (x : Bool × State) c =>
      if !x.1 then x
      else
        let (t, s) := x.2.ownMsg d node 0x01
        let h : Hdr := { addr := addr + c.1, incClaim := s.learntInc node, dstNode := node, dstEp := ep, ctxTag := d.tag,
                         tag := t, opcode := 0x01, tc := d.tc }
        let (ok, s) := s.sendAll part h c.2 (cutRun (addr + c.1) ((bs.drop c.1).take c.2))
        (ok, s.addOut d { tag := t, left := 0, addr := addr + c.1, loc := 0, n := cnt c.1 c.2, store })) (true, s)
/-- Asks a descriptor's remote endpoint for bytes (R103); the data will go to place `loc`. -/
def State.pullRemote (s : State) (d : Desc) (part rank addr n loc : Nat) : Bool × State :=
  match d.remote.at? rank with
  | none => (false, s)
  | some (node, ep) =>
    (msgCuts n).foldl (fun (x : Bool × State) c =>
      if !x.1 then x
      else
        let (t, s) := x.2.ownMsg d node 0x02
        let h : Hdr := { addr := addr + c.1, incClaim := s.learntInc node, dstNode := node, dstEp := ep, ctxTag := d.tag,
                         tag := t, opcode := 0x02, tc := d.tc, msgLen := c.2, last := true }
        match s.originate part { hdr := h } with
        | none => (false, s)
        | some s => (true, s.addOut d { tag := t, left := c.2, addr := addr + c.1, loc := loc + c.1, n := c.2 })) (true, s)

/-! Moving (R100, R266). -/

/-- The bytes of a move's source: a local range, zeros (poisoned or not), or a pattern. -/
inductive Source where
  | key (k : Nat)
  | zero (poison : Bool)
  | pattern (bs : List Byte)
  | far (rank addr : Nat)
  deriving DecidableEq, Repr
/-- Where a move's bytes go. -/
inductive Target where
  | key (k : Nat)
  | far (rank addr : Nat)
  deriving DecidableEq, Repr
/-- A pattern repeated over `n` bytes. -/
def patternBytes (p : List Byte) (n : Nat) : List (Byte × Bool) := (List.range n).map (fun i => (p.getD (i % p.length) 0, false))
/-- Makes one move of `n` bytes: route found, status, state. -/
def State.move1 (s : State) (d : Desc) (part n : Nat) (src : Source) (dst : Target) : Bool × Status × State :=
  let put := fun (bs : List (Byte × Bool)) (st : Status) (s : State) =>
    match dst with
    | .key k =>
      let (st', s) := s.writeKey d.runs k bs (d.acc part)
      (true, worse st st', s)
    | .far rk a =>
      let (ok, s) := s.pushRemote d part rk a bs (fun _ m => m) 0
      (ok, st, s)
  match src with
  | .key k =>
    let (bs, st, s) := s.readKey d.runs k n (d.acc part)
    put bs st s
  | .zero pz => put (List.replicate n (0, pz)) (if pz then .poison else .ok) s
  | .pattern p => put (patternBytes p n) .ok s
  | .far rk a =>
    match dst with
    | .key k =>
      let (ok, s) := s.pullRemote d part rk a n k
      (ok, .ok, s)
    | .far _ _ => (true, .ok, s)
/-- A descriptor's move list: source, target, bytes. -/
abbrev Move := Source × Target × Nat
/-- Makes the moves in order, and stops at a missing route. -/
def State.moveAll (s : State) (d : Desc) (part : Nat) (ms : List Move) : Bool × Status × State :=
  ms.foldl (fun (x : Bool × Status × State) m =>
    if !x.1 then x
    else
      let (ok, st, s) := x.2.2.move1 d part m.2.2 m.1 m.2.1
      (ok, worse x.2.1 st, s)) (true, .ok, s)
/-- The local ranges that a move list reads, and those that it writes at once or later. -/
def moveKeys (ms : List Move) : List (Nat × Nat) × List (Nat × Nat) :=
  (ms.filterMap (fun m => match m.1 with
    | .key k => some (k, m.2.2)
    | _ => none),
   ms.filterMap (fun m => match m.2.1 with
    | .key k => some (k, m.2.2)
    | _ => none))
/-- A source from byte `o` on. -/
def Source.shift (x : Source) (o : Nat) : Source :=
  match x with
  | .key k => .key (k + o)
  | .zero p => .zero p
  | .pattern bs => .pattern (bs.rotate (o % bs.length))
  | .far r a => .far r (a + o)
/-- A target from byte `o` on. -/
def Target.shift (x : Target) (o : Nat) : Target :=
  match x with
  | .key k => .key (k + o)
  | .far r a => .far r (a + o)
/-- The moves of the `n` bytes of a move list from byte `lo` on. -/
def sliceMoves : List Move → Nat → Nat → List Move
  | [], _, _ => []
  | (src, dst, m) :: r, lo, n =>
    if n = 0 then []
    else if m ≤ lo then sliceMoves r (lo - m) n
    else (src.shift lo, dst.shift lo, min (m - lo) n) :: sliceMoves r 0 (n - min (m - lo) n)
/-- The bytes of a move list that have moved once it is made: those that neither go to nor come from a remote endpoint. -/
def localBytes (ms : List Move) : Nat :=
  (ms.map (fun m => match m.1, m.2.1 with
    | .far _ _, _ | _, .far _ _ => 0
    | _, _ => m.2.2)).sum
/-- Bytes of a segment (R112). -/
def segBytes : Nat := 262144
/-- The segments of a transfer: one for a charge of at most 256 KiB (R112). -/
def Desc.segTotal (d : Desc) : Nat := max 1 (cdiv d.chargeBytes segBytes)
/-- A segment has moved, with a status; `n` the bytes of the whole transfer. A transfer of one segment is done. -/
def State.landed (s : State) (d : Desc) (x : SegRun) (st : Status) (moved n : Nat) : State :=
  (s.modDesc d.q d.i (fun e =>
    let runs := e.segRuns.map (fun y => if y.seg = x.seg then { y with landed := true } else y)
    { e with segRuns := runs, status := worse e.status st, result := n, acked := e.acked + moved
             moved := e.nextSeg = d.segTotal && runs.all (·.landed) })).finishIf d.q d.i
/-- The moves of a segment: the descriptor's bytes from the segment's first on (R112). -/
def SegRun.cut (x : SegRun) (ms : List Move) : List Move := sliceMoves ms (x.seg * segBytes) segBytes
/-- Puts a segment's reads into the memory queues, once (R241). -/
def State.ask (s : State) (d : Desc) (part : Nat) (x : SegRun) (ks : List (Nat × Nat)) : State :=
  if x.asked then s
  else (s.requestKeys d part ks).modDesc d.q d.i (fun e => { e with
    segRuns := e.segRuns.map (fun y => if y.seg = x.seg then { y with asked := true } else y) })
/-- Performs the moves of the first segment that an engine has and has not moved, once its granules are clear and its reads have
been served, or the descriptor ends without a route (R103, R112, R241). -/
def State.transfer (s : State) (d : Desc) (part : Nat) (ms : List Move) (n : Nat) : State :=
  match d.segRuns.find? (fun x => !x.landed) with
  | none => s
  | some x =>
    let ms := x.cut ms
    let (rd, wr) := moveKeys ms
    let (ok, s) := s.keysReady d.runs rd wr
    if !ok then s
    else
      let s := s.ask d part x rd
      if s.readsQueued d then s
      else
        let (routed, st, s) := s.moveAll d part ms
        if routed then s.landed d x st (localBytes ms) n else s.endDesc d.q d.i .routeNone false
/-- An endpoint as the source of a move at an offset. -/
def Ep.source (e : Ep) (off : Nat) : Source := if e.kind = 2 then .far e.rank (e.addr + off) else .key (e.key + off)
/-- An endpoint as the target of a move at an offset. -/
def Ep.target (e : Ep) (off : Nat) : Target := if e.kind = 2 then .far e.rank (e.addr + off) else .key (e.key + off)

/-! Operator streams. -/

/-- Reads the rows of a dense or 2:4 load stream: the rows before a stop, whether it stopped, status, state (R122, R138). -/
def State.loadDense (s : State) (rs : List Run) (x : SEnt) (n : Nat) (a : Acc) :
    List ((Nat × Nat) × Nat) → List (List Elem) × Bool × Status × State
  | [] => ([], false, .ok, s)
  | (r, i) :: rest =>
    let (bs, st, s) := s.readKey rs (x.ep.key + r.1 * x.iterPitch + r.2 * x.rowPitch) (x.rowBytes n) a
    let (sc, st2, s) :=
      if x.scaled then
        let (b, st2, s) := s.readKey rs (x.scaleEp.key + i * n / 32) (n / 32) a
        (some b, st2, s)
      else (none, .ok, s)
    let es := if x.sparse = 2 then sparse24Row x.fmt n bs else some (denseElems x.fmt n bs)
    match es with
    | none => ([], true, worse st st2, s)
    | some es =>
      let (l, stop, st', s) := State.loadDense s rs x n a rest
      (withScales es sc :: l, stop, worse (worse st st2) st', s)
/-- Reads one record of an SSB stream at an offset: its block and its length; none beyond `SSB_BYTES` (R137). -/
def State.ssbRecord (s : State) (rs : List Run) (x : SEnt) (off : Nat) (a : Acc) :
    Option (List (Nat × Bool) × Nat) × Status × State :=
  if x.iterPitch < off + 4 then (none, .ok, s)
  else
    let (hd, st, s) := s.readKey rs (x.ep.key + off) 4 a
    let cnt := (bitsOf (leNat (hd.map (·.1))) 32).length
    let size := roundUp (cdiv (fmtBits x.fmt * cnt) 8) 4
    if x.iterPitch < off + 4 + size then (none, st, s)
    else
      let (bs, st2, s) := s.readKey rs (x.ep.key + off + 4) size a
      ((ssbBlocks x.fmt 1 (hd ++ bs)).head?.map (fun b => (b, 4 + size)), worse st st2, s)
/-- Reads `blocks` records. -/
def State.loadSsb (s : State) (rs : List Run) (x : SEnt) (a : Acc) : Nat → Nat → List (List (Nat × Bool)) × Status × State
  | 0, _ => ([], .ok, s)
  | n + 1, off =>
    match s.ssbRecord rs x off a with
    | (none, st, s) => ([], st, s)
    | (some (b, len), st, s) =>
      let (l, st', s) := State.loadSsb s rs x a n (off + len)
      (b :: l, worse st st', s)
/-- Reads the rows of a load stream: the rows before a stop, whether it stopped, status, state. -/
def State.loadRows (s : State) (rs : List Run) (x : SEnt) (rows : List (Nat × Nat)) (n : Nat) (a : Acc) :
    List (List Elem) × Bool × Status × State :=
  if x.sparse = 1 then
    let per := n / 32
    let (bl, st, s) := s.loadSsb rs x a (rows.length * per) 0
    let full := bl.length / (max per 1)
    (List.range full).foldl (fun (r : List (List Elem) × Bool × Status × State) i =>
      let es := ((bl.drop (i * per)).take per).flatten
      let (sc, st2, s) :=
        if x.scaled then
          let (b, st2, s) := r.2.2.2.readKey rs (x.scaleEp.key + i * per) per a
          (some b, st2, s)
        else (none, .ok, r.2.2.2)
      (r.1 ++ [withScales es sc], r.2.1, worse r.2.2.1 st2, s)) ([], decide (full < rows.length), st, s)
  else s.loadDense rs x n a rows.zipIdx
/-- The elements of `n` dense ones that lie whole in the first `b` bytes. -/
def SEnt.upto (x : SEnt) (n b : Nat) : Nat := min n (b * 8 / fmtBits x.fmt)
/-- The elements of blocks of 32 that lie whole in the first `b` bytes of their records. -/
def blocksUpto (l : List (List (Byte × Bool))) (b : Nat) : Nat :=
  (l.foldl (fun (r : Nat × Nat) x => (r.1 + x.length, if r.1 + x.length ≤ b then r.2 + 32 else r.2)) (0, 0)).2
/-- Writes a store stream's bytes from offset `off` of its range: locally, or as messages to the rank; `upto` says how many elements the
first bytes of these hold, which count as their messages are acknowledged (R122, R129). -/
def State.storeRun (s : State) (d : Desc) (part k : Nat) (x : SEnt) (off : Nat) (bs : List (Byte × Bool)) (upto : Nat → Nat) :
    Bool × Status × State :=
  if x.ep.kind = 2 then
    let (ok, s) := s.pushRemote d part x.ep.rank (x.addr + off) bs (fun o m => upto (o + m) - upto o) k
    (ok, .ok, s)
  else
    let (st, s) := s.writeKey d.runs (x.ep.key + off) bs (d.acc part)
    (true, st, s)
/-- Writes scale bytes from offset `off` of a store's scale array. -/
def State.storeScales (s : State) (d : Desc) (part k : Nat) (x : SEnt) (off : Nat) (sc : List (Nat × Bool)) : Bool × Status × State :=
  let sb := sc.map (fun c => (BitVec.ofNat 8 c.1, c.2))
  if !x.scaled then (true, .ok, s)
  else if x.scaleEp.kind = 2 then
    let (ok, s) := s.pushRemote d part x.scaleEp.rank (x.scaleAddr + off) sb (fun _ _ => 0) k
    (ok, .ok, s)
  else
    let (st, s) := s.writeKey d.runs (x.scaleEp.key + off) sb (d.acc part)
    (true, st, s)
/-- Packs and writes output elements contiguously, with their scale bytes: route found, status, state. -/
def State.storeOuts (s : State) (d : Desc) (part k : Nat) (x : SEnt) (pack sat : Bool) (es : List OutEl) :
    Bool × Status × State :=
  let (cs, sc) := packOuts x pack sat es
  let bl := storeBlocks x cs
  let (ok, st, s) := s.storeRun d part k x 0 bl.flatten (if x.sparse = 1 then blocksUpto bl else x.upto es.length)
  if !ok then (ok, st, s)
  else
    let (ok, st', s) := s.storeScales d part k x 0 sc
    (ok, worse st st', s)
/-- The end of an operator that finds no route to a rank: `ST_ROUTE_NONE`, not `PARTIAL`; `RESULT` counts what its local stores have
written (R103, R129, R225). -/
def State.opUnrouted (s : State) (d : Desc) (n0 n1 : Nat) : State :=
  (s.modDesc d.q d.i (fun e => { e with
    acked := e.acked + n0, acked1 := e.acked1 + n1, result := (e.acked1 + n1) * 2 ^ 32 + (e.acked + n0) })).endDesc d.q d.i .routeNone false
/-- The end of an operator's work: local stores count at once, remote ones as they are acknowledged (R129). -/
def State.opDone (s : State) (d : Desc) (st : Status) (stop : Bool) (n0 n1 : Nat) (far0 far1 : Bool) : State :=
  let s := s.modDesc d.q d.i (fun d => { d with
    moved := true
    status := if stop then .badArg else worse d.status st
    partDone := stop
    acked := if far0 then d.acked else n0
    acked1 := if far1 then d.acked1 else n1
    result := n1 * 2 ^ 32 + n0 })
  s.finishIf d.q d.i
/-- Whether any of a list of streams' ranges still meets copies or holds; their recalls are opened. -/
def State.streamsReady (s : State) (rs : List Run) (ss : List Stream) : Bool × State :=
  let keys := fun (acc : Nat) => (ss.filter (fun x => x.acc == acc)).flatMap (fun x => x.ranges.map (fun r => (x.base + r.1, r.2)))
  let both := (ss.filter (·.both)).flatMap (fun x => x.ranges.map (fun r => (x.base + r.1, r.2)))
  s.keysReady rs (keys 0 ++ both) (keys 1)
/-- Whether an operator's streams may be read and written now: no copies or holds are in the way, and its reads have been served; of a
bound of which only some rows are read, each is read when it is needed (R71, R108, R241). -/
def State.opReady (s : State) (d : Desc) (part : Nat) (ss : List Stream) : Bool × State :=
  let (ok, s) := s.streamsReady d.runs ss
  if !ok then (false, s)
  else s.fetched d part ((ss.filter (fun x => x.acc == 0 && x.who != 3)).flatMap (fun x => x.ranges.map (fun r => (x.base + r.1, r.2))))
/-- Reads the load streams of a user configuration and runs its chain (R114, R116): what it puts out, whether a sparse stream was bad,
the status of the reads. -/
def State.runChain (s : State) (d : Desc) (part : Nat) (o : Ocb) : Chain × Bool × Status × State :=
  let h := d.shape
  let a := d.acc part
  let ld := (List.range 4).foldl (fun (r : List (List (List Elem)) × Nat × Bool × Status × State) k =>
    if o.loadEn k && !(k == 3 && o.dotEn) then
      let (rows, stop, st, s) := r.2.2.2.2.loadRows d.runs (o.load k) h.list h.elems a
      (r.1 ++ [rows], min r.2.1 rows.length, r.2.2.1 || stop, worse r.2.2.2.1 st, s)
    else (r.1 ++ [[]], r.2)) ([], h.iter * h.rows, false, .ok, s)
  let (mat, mstop, mst, s) :=
    if o.dotEn then ld.2.2.2.2.loadRows d.runs (o.load 3) ((List.range o.dotRows).map (fun r => (0, r))) h.elems a
    else ([], false, .ok, ld.2.2.2.2)
  (Chain.run o h { rows := ld.1, matrix := mat } (if mstop then 0 else ld.2.1), ld.2.2.1 || mstop, worse ld.2.2.2.1 mst, s)
/-- Writes what a chain put out for store `k`, when it is enabled: routes found, status. -/
def State.putOut (s : State) (d : Desc) (part : Nat) (o : Ocb) (k : Nat) (es : List OutEl) (st : Status) : Bool × Status × State :=
  if o.storeEn k then
    let (ok, st', s) := s.storeOuts d part k (o.store k) o.packEn o.sat es
    (ok, worse st st', s)
  else (true, st, s)
/-- A user configuration (R114 to R141). -/
def State.runUser (s : State) (d : Desc) (part : Nat) : State :=
  let o : Ocb := ⟨d.ocb⟩
  let (ok, s) := s.opReady d part (o.streams d.shape)
  if !ok then s
  else
    let (c, stop, st, s) := s.runChain d part o
    let far := fun (k : Nat) => (o.store k).ep.kind == 2
    let n0 := if o.storeEn 0 then c.o0.length else 0
    let (ok, st, s) := s.putOut d part o 0 c.o0 st
    if !ok then s.opUnrouted d 0 0
    else
      let (ok, st, s) := s.putOut d part o 1 c.o1 st
      if !ok then s.opUnrouted d (if far 0 then 0 else n0) 0
      else s.opDone d st stop n0 (if o.storeEn 1 then c.o1.length else 0) (far 0) (far 1)

end Sys2Proof.Machine
end

