-- ==== Sys2Proof/Machine/Stock.lean ====
section
/-! DEFINITION. The operator engines' rows: the user configuration and the ten stock operators (R114, R143 to R166). -/

namespace Sys2Proof.Machine

/-- A started OPERATOR of a stock code runs `f` with its block. -/
def State.onOperator (s : State) (q i code : Nat) (f : Desc → Nat → State → State) : State :=
  s.onStarted q i 7 (fun d u s => if d.stock = code then f d u.part s else s)
/-- Lanes of a row of elements, decoded. -/
def rowLanes (x : SEnt) (es : List Elem) : List Lane := es.map (Elem.lane x.fmt true)
/-- The output elements of one row of lanes, in vector steps that draw for padding lanes too (R135). -/
def rowOuts (mode : Nat) (x : SEnt) (ls : List Lane) (g : List Nat) : List OutEl × List Nat :=
  (chunksOf 64 ls.length ls).foldl (fun (r : List OutEl × List Nat) v =>
    let (rs, g) := if storeDraws mode true x then laneRnds 2 r.2
      else (List.replicate 64 (if mode = 1 then Rnd.rtz else Rnd.rne), r.2)
    (r.1 ++ (v.zip rs).map (fun y => { bits := y.1.1, poison := y.1.2, rnd := y.2 }), g)) ([], g)
/-- The output elements of rows in order. -/
def rowsOuts (mode : Nat) (x : SEnt) (rows : List (List Lane)) (g : List Nat) : List OutEl × List Nat :=
  rows.foldl (fun (r : List OutEl × List Nat) l =>
    let (es, g) := rowOuts mode x l r.2
    (r.1 ++ es, g)) ([], g)
/-- Numbers as raw output elements. -/
def rawOuts (l : List Nat) : List OutEl := l.map (fun v => { bits := v, poison := false, rnd := .rne })
/-- Writes store 0 (and store 1 raw), and ends the operator's work. -/
def State.stockDone (s : State) (d : Desc) (part : Nat) (o : Ocb) (st : Status) (stop : Bool) (e0 : List OutEl)
    (e1 : Option (List Nat)) : State :=
  let (ok, st, s) : Bool × Status × State :=
    let (ok, st', s) := s.storeOuts d part 0 (o.store 0) true o.sat e0
    (ok, worse st st', s)
  let far0 := (o.store 0).ep.kind == 2
  if !ok then s.opUnrouted d 0 0
  else
    match e1 with
    | none => s.opDone d st stop e0.length 0 far0 true
    | some l =>
      let (ok, st2, s) := s.storeOuts d part 1 (o.store 1) true o.sat (rawOuts l)
      if !ok then s.opUnrouted d (if far0 then 0 else e0.length) 0
      else s.opDone d (worse st st2) stop e0.length l.length far0 ((o.store 1).ep.kind == 2)
/-- Runs `f` once the operator's local ranges are clear and its reads have been served. -/
def State.stockReady (s : State) (d : Desc) (part : Nat) (list : List Ep) (f : State → State) : State :=
  let (ok, s) := s.opReady d part ((⟨d.ocb⟩ : Ocb).stockStreams d.stock d.shape list)
  if ok then f s else s

/-- The entries of an input list (Table 06-3), and whether its reserved bits are zero and its selectors local. -/
def inputEp (w : Nat) : Ep := epOf (fld w 63 0) (fld w 79 64)
/-- The input list kept behind the argument block at admission (R119, R146). -/
def Desc.inputs (d : Desc) : List Ep := (chunksOf 16 d.ocb.length (d.ocb.drop 512)).map (fun b => inputEp (leNat b))

/-- OPERATOR (R114). -/
def execOperator (q i : Nat) (s : State) : Host.Outcome State Fault Refusal :=
  settled (s.onOperator q i 0 (fun d part s => s.runUser d part))

/-- Reads the inputs of `REDUCE_N` as lanes, `n` elements each (R146). -/
def State.reduceInputs (s : State) (d : Desc) (part : Nat) (o : Ocb) (n : Nat) : List (List Lane) × Status × State :=
  let fmt := o.arg 85 82
  d.inputs.foldl (fun (r : List (List Lane) × Status × State) e =>
    let (bs, st, s) := r.2.2.readKey d.runs e.key (denseBytes fmt n) (d.acc part)
    let (sb, st2, s) := if o.arg 86 86 == 1 then
        let (b, st2, s) := s.readKey d.runs (e.key + denseBytes fmt n) (n / 32) (d.acc part)
        (some b, st2, s)
      else (none, .ok, s)
    (r.1 ++ [(withScales (denseElems fmt n bs) sb).map (Elem.lane fmt true)], worse (worse r.2.1 st) st2, s))
    ([], .ok, s)
/-- The inputs combined element by element, four at a time (R147). -/
def Ocb.reduceOuts (o : Ocb) (n : Nat) (ins : List (List Lane)) : List OutEl :=
  let op := o.arg 81 80
  let outs := (List.range n).map (fun k =>
    let xs := ins.map (fun l => lane l k)
    let v := match (chunksOf 4 xs.length xs).map (fun c => red4 op (c.map (·.1))) with
      | [] => 0
      | x :: r => r.foldl (red2 op) x
    ((v, xs.any (·.2)) : Lane))
  (drawOuts o.round (storeDraws o.round true (o.store 0)) 0 outs (genStart o.seed)).1
/-- REDUCE_N (R146, R147). -/
def execReduceN (q i : Nat) (s : State) : Host.Outcome State Fault Refusal :=
  settled (s.onOperator q i 1 (fun d part s => s.stockReady d part d.inputs (fun s =>
    let o : Ocb := ⟨d.ocb⟩
    let n := d.shape.iter * d.shape.elems
    let (ins, st, s) := s.reduceInputs d part o n
    s.stockDone d part o st false (o.reduceOuts n ins) none)))
/-- The indices of a position list: (index or none for a skip, poisoned, whether out of bound) (R102, R158). -/
def indexEntry (w rows : Nat) (bs : List (Byte × Bool)) : Option Nat × Bool × Bool :=
  let x := leNat (bs.map (·.1))
  let pz := bs.any (·.2)
  if pz then (none, true, false)
  else if x = 2 ^ (8 * w) - 1 then (none, false, false)
  else if rows ≤ x then (none, false, true)
  else (some x, false, false)
/-- Reads an index list. -/
def State.readIndices (s : State) (rs : List Run) (key w count rows : Nat) (a : Acc) :
    List (Option Nat × Bool × Bool) × Status × State :=
  let (bs, st, s) := s.readKey rs key (count * w) a
  ((List.range count).map (fun j => indexEntry w rows ((bs.drop (j * w)).take w)), st, s)
/-- The access of a read of a bound, which is made when it is needed: it takes a place in the queue and is issued in the same step
(log 31). -/
def Desc.accNow (d : Desc) (part : Nat) : Acc := { d.acc part with served := false }
/-- Reads one table row as lanes. -/
def State.tableRow (s : State) (d : Desc) (x : SEnt) (pitch row n : Nat) (a : Acc) : List Lane × Status × State :=
  let (bs, st, s) := s.readKey d.runs (x.ep.key + row * pitch) (x.rowBytes n) a
  let (sc, st2, s) := if x.scaled then
      let (b, st2, s) := s.readKey d.runs (x.scaleEp.key + row * n / 32) (n / 32) a
      (some b, st2, s)
    else (none, .ok, s)
  let es := if x.sparse = 2 then (sparse24Row x.fmt n bs).getD [] else denseElems x.fmt n bs
  (rowLanes x (withScales es sc), worse st st2, s)
/-- The weights of the row operators, 1 where there are none (R155). -/
def State.rowWeights (s : State) (d : Desc) (o : Ocb) (count : Nat) (a : Acc) : List Lane × Status × State :=
  if o.arg 81 81 = 1 then
    let x := o.load 2
    let (bs, st, s) := s.readKey d.runs x.ep.key (denseBytes x.fmt count) a
    (rowLanes x (withScales (denseElems x.fmt count bs) none), st, s)
  else (List.replicate count (0x3F800000, false), .ok, s)
/-- The status with out-of-bound indices: `ST_BAD_ARG` only when no other applies (R102, R158). -/
def boundStatus (st : Status) (oob : Bool) : Status := if st == .ok && oob then .badArg else st
/-- What the row operators share: indices, weights, and the positions of out-of-bound indices. -/
def State.rowArgs (s : State) (d : Desc) (part : Nat) (o : Ocb) (h : Shape) :
    List (Option Nat × Bool × Bool) × List Lane × List Nat × Status × State :=
  let fan := o.arg 87 84
  let cnt := h.iter * h.rows * fan
  let w := if o.arg 80 80 = 1 then 8 else 4
  let (xs, st, s) := s.readIndices d.runs (epOf (o.arg 63 0) (o.arg 79 64)).key w cnt (o.arg 127 96) (d.acc part)
  let (ws, st2, s) := s.rowWeights d o cnt (d.acc part)
  let oob := (xs.zipIdx.filter (fun x => x.1.2.2)).map (fun x => x.2 / fan)
  (xs, ws, oob, worse st st2, s)

/-- The weighted sum of the rows that the positions of output row `j` name (R156). -/
def State.gatherRow (s : State) (d : Desc) (part : Nat) (o : Ocb) (xs : List (Option Nat × Bool × Bool)) (ws : List Lane) (j : Nat)
    (st : Status) : List Lane × Status × State :=
  let fan := o.arg 87 84
  let h := d.shape
  (List.range fan).foldl (fun (r : List Lane × Status × State) i =>
    let k := j * fan + i
    match xs.getD k (none, false, false) with
    | (none, pz, _) => (r.1.map (fun l => (l.1, l.2 || pz)), r.2)
    | (some x, _, _) =>
      let (row, st, s) := r.2.2.tableRow d (o.load 0) (o.load 0).rowPitch x h.elems (d.accNow part)
      let w := lane ws k
      ((r.1.zip row).map (fun y => (fFma w.1 y.2.1 y.1.1, y.1.2 || y.2.2 || w.2)), worse r.2.1 st, s))
    (List.replicate h.elems (0, false), st, s)
/-- The output rows of `GATHER_ROWS`. -/
def State.gatherAll (s : State) (d : Desc) (part : Nat) (o : Ocb) (xs : List (Option Nat × Bool × Bool)) (ws : List Lane)
    (st : Status) : List (List Lane) × Status × State :=
  (List.range (d.shape.iter * d.shape.rows)).foldl (fun (r : List (List Lane) × Status × State) j =>
    let (out, st, s) := r.2.2.gatherRow d part o xs ws j r.2.1
    (r.1 ++ [out], st, s)) ([], st, s)
/-- GATHER_ROWS (R155, R156, R158). -/
def execGatherRows (q i : Nat) (s : State) : Host.Outcome State Fault Refusal :=
  settled (s.onOperator q i 2 (fun d part s => s.stockReady d part [] (fun s =>
    let o : Ocb := ⟨d.ocb⟩
    let (xs, ws, oob, st, s) := s.rowArgs d part o d.shape
    let (rows, st, s) := s.gatherAll d part o xs ws st
    s.stockDone d part o (boundStatus st (!oob.isEmpty)) false (rowsOuts o.round (o.store 0) rows (genStart o.seed)).1
      (if (o.stockStores 2).contains 1 then some oob else none))))
/-- Writes one packed row of `SCATTER_ROWS` to its table row, dense (R157): route found, status, state; `cnt` the elements that it counts
for in `RESULT`. -/
def State.putRow (s : State) (d : Desc) (part : Nat) (o : Ocb) (row n cnt : Nat) (es : List OutEl) : Bool × Status × State :=
  let x := o.store 0
  let (cs, sc) := packOuts x true o.sat es
  let (ok, st, s) := s.storeRun d part 0 x (row * o.arg 167 128) ((storeBytesOf x cs).take (x.rowBytes n)) (fun b => min cnt (x.upto n b))
  if !ok then (ok, st, s)
  else
    let (ok, st', s) := s.storeScales d part 0 x (row * n / 32) sc
    (ok, worse st st', s)
/-- The row that `SCATTER_ROWS` writes at table row `t`: the term, or the term added to what the row holds (R157). -/
def State.scatterRow (s : State) (d : Desc) (part : Nat) (o : Ocb) (t : Nat) (term : List Lane) (st : Status) :
    List Lane × Status × State :=
  if o.arg 82 82 = 1 then
    let (old, st', s) := s.tableRow d (o.store 0) (o.arg 167 128) t d.shape.elems (d.accNow part)
    ((old.zip term).map (fun y => ((fAdd y.1.1 y.2.1, y.1.2 || y.2.2) : Lane)), worse st st', s)
  else (term, st, s)
/-- Writes the terms of `SCATTER_ROWS`, position by position, over or into the table (R157): routes found, status, state. -/
def State.scatterAll (s : State) (d : Desc) (part : Nat) (o : Ocb) (xs : List (Option Nat × Bool × Bool)) (ws : List Lane)
    (ins : List (List Elem)) (st : Status) : Bool × Status × State :=
  let h := d.shape
  let fan := o.arg 87 84
  let x := o.store 0
  let (ok, st, _, s) := (List.range (ins.length * fan)).foldl (fun (r : Bool × Status × List Nat × State) k =>
    match xs.getD k (none, false, false) with
    | (none, _, _) => r
    | (some t, _, _) =>
      if !r.1 then r
      else
        let w := lane ws k
        let term := (rowLanes (o.load 0) (ins.getD (k / fan) [])).map (fun l => ((fMul w.1 l.1, l.2 || w.2) : Lane))
        let (vals, st, s) := r.2.2.2.scatterRow d part o t term r.2.1
        let (es, g) := rowOuts o.round x vals r.2.2.1
        let seen := ((xs.take k).any (fun y => y.1 == some t))
        let (ok, st2, s) := s.putRow d part o t h.elems (if seen then 0 else h.elems) es
        (ok, worse st st2, g, s)) (true, st, genStart o.seed, s)
  (ok, st, s)
/-- The elements that `SCATTER_ROWS` writes: those of each table row that a position names, once. -/
def Ocb.scatterCount (o : Ocb) (d : Desc) (xs : List (Option Nat × Bool × Bool)) (ins : List (List Elem)) : Nat :=
  ((xs.take (ins.length * o.arg 87 84)).filterMap (·.1)).dedup.length * d.shape.elems
/-- SCATTER_ROWS (R155, R157, R158). -/
def execScatterRows (q i : Nat) (s : State) : Host.Outcome State Fault Refusal :=
  settled (s.onOperator q i 3 (fun d part s => s.stockReady d part [] (fun s =>
    let o : Ocb := ⟨d.ocb⟩
    let (xs, ws, oob, st, s) := s.rowArgs d part o d.shape
    let (ins, stop, st', s) := s.loadRows d.runs (o.load 0) d.shape.list d.shape.elems (d.acc part)
    let (ok, st, s) := s.scatterAll d part o xs ws ins (worse st st')
    let n0 := o.scatterCount d xs ins
    let far0 := (o.store 0).ep.kind == 2
    let two := (o.stockStores 3).contains 1
    if !ok then s.opUnrouted d 0 0
    else
      let (ok, st2, s) := if two then s.storeOuts d part 1 (o.store 1) true o.sat (rawOuts oob) else (true, .ok, s)
      if !ok then s.opUnrouted d (if far0 then 0 else n0) 0
      else s.opDone d (boundStatus (worse st st2) (!oob.isEmpty)) stop n0 (if two then oob.length else 0) far0
        ((o.store 1).ep.kind == 2))))
/-- The dot product of a query with a key row (R136, R160). -/
def kvDot (o : Ocb) (a b : List Elem) : Lane :=
  let fa := (o.load 0).fmt
  let fb := (o.load 3).fmt
  let pz := a.any (·.poison) || b.any (·.poison)
  if o.kvNative then (dotNative fa fb a b, pz)
  else (dotConverted ((rowLanes (o.load 0) a).map (·.1)) ((rowLanes (o.load 3) b).map (·.1)), pz)
/-- The score of every block for a query: the greatest of its key rows' dot products (R160). -/
def Ocb.kvScores (o : Ocb) (h : Shape) (ks : List (List Elem)) (x : List Elem) : List Lane :=
  let per := if o.arg 0 0 = 1 then o.arg 24 12 else 1
  (List.range h.rows).map (fun b =>
    let ds := ((ks.drop (b * per)).take per).map (fun y => kvDot o y x)
    match ds with
    | [] => (0xFF800000, false)
    | y :: t => (t.foldl (fun m z => fMax m z.1) y.1, ds.any (·.2)))
/-- The selected (score, block), forced blocks first, filled up with absent ones (R160, R161). -/
def Ocb.kvChosen (o : Ocb) (h : Shape) (scores : List Lane) : List (Nat × Nat) :=
  let forced := o.kvForced h
  let k := o.arg 10 2
  let others := sortBy (fun u v => ranksBefore u v) ((scores.map (·.1)).zipIdx.filter (fun y => !forced.contains y.2))
  let sel := forced.map (fun b => ((lane scores b).1, b)) ++ others.take (k - forced.length)
  sel ++ List.replicate (k - sel.length) (0xFF800000, 0xFFFFFFFF)
/-- Writes the list of one query, and its blocks when asked for (R161): routes found, status, elements to store 0. -/
def State.kvPut (s : State) (d : Desc) (part : Nat) (o : Ocb) (ks : List (List Elem)) (x : List Elem) (row : Nat) (st : Status)
    (n0 : Nat) : Bool × Status × Nat × State :=
  let k := o.arg 10 2
  let bb := o.arg 175 144
  let scores := o.kvScores d.shape ks x
  let sel := o.kvChosen d.shape scores
  let recs := sel.flatMap (fun y => (leBytes 4 y.2 ++ leBytes 4 y.1).map (fun b => (b, scores.any (·.2))))
  let (ok, st', s) := s.storeRun d part 1 (o.store 1) (row * k * 8) recs ((o.store 1).upto (2 * k))
  let st := worse st st'
  if !ok || o.arg 1 1 = 0 then (ok, st, n0, s)
  else
    sel.zipIdx.foldl (fun (r : Bool × Status × Nat × State) y =>
      if !r.1 || y.1.2 = 0xFFFFFFFF then r
      else
        let (bs, st, s) := r.2.2.2.readKey d.runs
          ((epOf (o.arg 127 64) (o.arg 143 128)).key + y.1.2 * o.arg 215 176) bb (d.accNow part)
        let (ok, st2, s) := s.storeRun d part 0 (o.store 0) ((row * k + y.2) * bb) bs ((o.store 0).upto (bb / 4))
        (ok, worse (worse r.2.1 st) st2, r.2.2.1 + bb / 4, s)) (ok, st, n0, s)
/-- Every query in turn. -/
def State.kvAll (s : State) (d : Desc) (part : Nat) (o : Ocb) (qs ks : List (List Elem)) (st : Status) :
    Bool × Status × Nat × State :=
  qs.zipIdx.foldl (fun (r : Bool × Status × Nat × State) x =>
    if !r.1 then r else r.2.2.2.kvPut d part o ks x.1 x.2 r.2.1 r.2.2.1) (true, st, 0, s)
/-- KV_SELECT (R159 to R161). -/
def execKvSelect (q i : Nat) (s : State) : Host.Outcome State Fault Refusal :=
  settled (s.onOperator q i 4 (fun d part s => s.stockReady d part [] (fun s =>
    let o : Ocb := ⟨d.ocb⟩
    let h := d.shape
    let a := d.acc part
    let (qs, stop, st, s) := s.loadRows d.runs (o.load 3) ((List.range h.iter).map (fun r => (0, r))) h.elems a
    let (ks, stop2, st2, s) := s.loadRows d.runs (o.load 0) ((List.range (o.kvRows h)).map (fun r => (0, r))) h.elems a
    if stop || stop2 then s.opDone d .badArg true 0 0 false false
    else
      let (ok, st, n0, s) := s.kvAll d part o qs ks (worse st st2)
      if !ok then s.opUnrouted d 0 0
      else s.opDone d st false n0 (h.iter * o.arg 10 2 * 2) ((o.store 0).ep.kind == 2) ((o.store 1).ep.kind == 2))))
/-- 512 words of 8 B of a block. -/
def blockWords (bs : List Byte) : List Nat := (chunksOf 8 512 bs).map leNat
/-- The maximal runs of zero and non-zero words: (zero, words), in order. -/
def wordRuns (ws : List Nat) : List (Bool × List Nat) :=
  (ws.foldl (fun (r : List (Bool × List Nat)) w =>
    match r with
    | (z, l) :: t => if z = (w == 0) then (z, w :: l) :: t else (w == 0, [w]) :: r
    | [] => [(w == 0, [w])]) []).reverse.map (fun x => (x.1, x.2.reverse))
/-- The token stream of a block's words (R164). -/
def tokens (ws : List Nat) : List Byte :=
  (wordRuns ws).flatMap (fun r =>
    leBytes 2 ((if r.1 then 0x8000 else 0) + (r.2.length - 1)) ++ (if r.1 then [] else r.2.flatMap (leBytes 8)))
/-- A block entry without its padding: header word and payload (R164). -/
def entryOf (raw : Bool) (payload : List Byte) : List Byte :=
  leBytes 4 ((if raw then 0x80000000 else 0) + payload.length) ++ payload
/-- The words a token stream stands for; none when it is not valid, with fuel. -/
def untoken : Nat → List Byte → Option (List Nat)
  | 0, bs => if bs.isEmpty then some [] else none
  | n + 1, bs =>
    if bs.isEmpty then some []
    else if bs.length < 2 then none
    else
      let t := leNat (bs.take 2)
      let len := t % 512 + 1
      if t / 512 % 64 != 0 then none
      else if 0x8000 ≤ t then (untoken n (bs.drop 2)).map (List.replicate len 0 ++ ·)
      else if bs.length < 2 + 8 * len then none
      else (untoken n (bs.drop (2 + 8 * len))).map (((chunksOf 8 len ((bs.drop 2).take (8 * len))).map leNat) ++ ·)
/-- Bytes filled up with zeros to a multiple of `n`. -/
def padTo (n : Nat) (bs : List (Byte × Bool)) : List (Byte × Bool) :=
  bs ++ List.replicate (roundUp bs.length n - bs.length) (0, false)
/-- Bytes without poison. -/
def clean (bs : List Byte) : List (Byte × Bool) := bs.map (fun b => (b, false))
/-- One block's delta entry, or none when it is unchanged (R162, R164). -/
def deltaEntry (comp noBase : Bool) (new base : List (Byte × Bool)) : Option (List (Byte × Bool)) :=
  let n := new.map (·.1)
  let b := if noBase then List.replicate 4096 0 else base.map (·.1)
  let bp := !noBase && base.any (·.2)
  let np := new.any (·.2)
  if n == b && !bp && !np then none
  else
    let raw := entryOf true n
    let tk := tokens ((blockWords n).zip (blockWords b) |>.map (fun x => Nat.xor x.1 x.2))
    let e := if !comp || bp || 4096 ≤ tk.length then raw else entryOf false tk
    some (padTo 8 (e.map (fun x => (x, np))))
/-- The place of checkpoint block `k` of a load stream. -/
def ckptRow (h : Shape) (k : Nat) : Nat × Nat := (k / h.rows, k % h.rows)
/-- Reads a checkpoint block of a load stream. -/
def State.ckptBlock (s : State) (d : Desc) (part : Nat) (x : SEnt) (k : Nat) : List (Byte × Bool) × Status × State :=
  let r := ckptRow d.shape k
  s.readKey d.runs (x.ep.key + r.1 * x.iterPitch + r.2 * x.rowPitch) 4096 (d.acc part)
/-- Reads every block and its base: the new blocks, and each one's delta entry (R162). -/
def State.deltaEntries (s : State) (d : Desc) (part : Nat) (o : Ocb) (nb : Nat) :
    List (List Byte) × List (Option (List (Byte × Bool))) × Status × State :=
  let noBase := o.arg 0 0 == 1
  (List.range nb).foldl
    (fun (r : List (List Byte) × List (Option (List (Byte × Bool))) × Status × State) k =>
      let (n, st, s) := r.2.2.2.ckptBlock d part (o.load 0) k
      let (b, st2, s) := if noBase then ([], .ok, s) else s.ckptBlock d part (o.load 1) k
      (r.1 ++ [n.map (·.1)], r.2.1 ++ [deltaEntry (o.arg 1 1 == 1) noBase n b], worse (worse r.2.2.1 st) st2, s)) ([], [], .ok, s)
/-- The delta: header, bitmap, CRCs and entries (R163, R164). -/
def Ocb.deltaBytes (o : Ocb) (nb : Nat) (news : List (List Byte)) (ents : List (Option (List (Byte × Bool)))) : List (Byte × Bool) :=
  let bitmap := leBytes (cdiv nb 8) ((ents.zipIdx.map (fun e => if e.1.isSome then 2 ^ e.2 else 0)).sum)
  let crcs := (chunksOf 16 nb news).flatMap (fun g => leBytes 4 (crc32c g.flatten))
  let body := (ents.filterMap id).flatten
  let total := 64 + roundUp bitmap.length 64 + roundUp crcs.length 64 + body.length
  let head := leBytes 64 (at_ total 64 448 + at_ (o.arg 191 128) 64 384 + at_ (o.arg 127 64) 64 320
    + at_ (ents.filterMap id).length 32 288 + at_ nb 32 256 + at_ (o.arg 0 0) 1 49 + at_ (o.arg 1 1) 1 48 + at_ 1 16 32
    + 0x4B444C47)
  clean head ++ padTo 64 (clean bitmap) ++ padTo 64 (clean crcs) ++ body
/-- CKPT_DELTA (R162 to R164). -/
def execCkptDelta (q i : Nat) (s : State) : Host.Outcome State Fault Refusal :=
  settled (s.onOperator q i 5 (fun d part s => s.stockReady d part [] (fun s =>
    let o : Ocb := ⟨d.ocb⟩
    let nb := d.iter * d.opRows
    let (news, ents, st, s) := s.deltaEntries d part o nb
    let bytes := o.deltaBytes nb news ents
    let (_, st2, s) := s.storeRun d part 0 (o.store 0) 0 bytes ((o.store 0).upto (bytes.length / 4))
    s.opDone d (worse st st2) false (bytes.length / 4) 0 false true)))
/-- The state of a restore: offset of the next entry, blocks rebuilt in this group, blocks written, status, stopped. -/
structure Restore where
  off : Nat
  group : List (Byte × Bool) := []
  done_ : Nat := 0
  st : Status := .ok
  stop : Bool := false
  deriving DecidableEq, Repr
/-- The entry of a changed block at an offset (R164, R165): raw bytes, or the words of a token stream, and the next entry's offset; none when
the delta is not valid there. -/
def State.deltaAt (s : State) (d : Desc) (part : Nat) (o : Ocb) (off bound : Nat) :
    Option ((List (Byte × Bool) ⊕ (List Nat × Bool)) × Nat) × Status × State :=
  if bound < off + 4 then (none, .ok, s)
  else
    let key := (o.load 0).ep.key
    let (hw, st, s) := s.readKey d.runs (key + off) 4 (d.accNow part)
    let w := leNat (hw.map (·.1))
    let len := w % 8192
    if bound < off + 4 + len then (none, st, s)
    else
      let (pl, st2, s) := s.readKey d.runs (key + off + 4) len (d.accNow part)
      let st := worse st st2
      let pz := hw.any (·.2) || pl.any (·.2)
      let next := off + roundUp (4 + len) 8
      if bit w 31 then
        if len = 4096 then (some (.inl (pl.map (fun x => (x.1, x.2 || pz))), next), st, s) else (none, st, s)
      else
        match untoken 4096 (pl.map (·.1)) with
        | some ws => if ws.length = 512 then (some (.inr (ws, pz), next), st, s) else (none, st, s)
        | none => (none, st, s)
/-- Rebuilds block `k` (R165): none when the delta is not valid there. The base is read for an unchanged block and under a compressed
entry alone. -/
def State.restoreBlock (s : State) (d : Desc) (part : Nat) (o : Ocb) (changed : Bool) (k off bound : Nat) :
    Option (List (Byte × Bool) × Nat) × Status × State :=
  let base := fun (s : State) =>
    if o.arg 0 0 == 1 then (clean (List.replicate 4096 0), Status.ok, s) else s.ckptBlock d part (o.load 1) k
  if !changed then
    let (b, st, s) := base s
    (some (b, off), st, s)
  else
    match s.deltaAt d part o off bound with
    | (none, st, s) => (none, st, s)
    | (some (.inl bs, next), st, s) => (some (bs, next), st, s)
    | (some (.inr (ws, pz), next), st, s) =>
      let (b, st2, s) := base s
      let x := (ws.zip (blockWords (b.map (·.1)))).flatMap (fun y => leBytes 8 (Nat.xor y.1 y.2))
      (some ((x.zip b).map (fun y => (y.1, y.2.2 || pz)), next), worse st st2, s)
/-- The record of a checkpoint group that is written with poison (R276, Table 11-3); of a REMOTE image it names no unit. -/
def State.logGroup (s : State) (d : Desc) (x : SEnt) (off : Nat) : State :=
  match (if x.ep.kind = 2 then none else s.keyPpa d.runs (x.ep.key + off)).bind (fun a => (s.unitOf a).map (fun u => (u, a))) with
  | some (u, a) => s.log 6 u a 1 7 [] (some d.tag)
  | none => s.logOn d.hub 6 0xFFFF 0 1 7 [] (some d.tag)
/-- Writes a finished group, poisoned when its CRC does not match (R165). -/
def State.restoreGroup (s : State) (d : Desc) (part : Nat) (o : Ocb) (first : Nat) (bs : List (Byte × Bool))
    (crc : Option Nat) : Status × Bool × State :=
  let bad_ := crc.any (fun c => c != crc32c (bs.map (·.1)))
  let bs := if bad_ then bs.map (fun b => (b.1, true)) else bs
  let (ok, st, s) := s.storeRun d part 0 (o.store 0) (first * 4096) bs ((o.store 0).upto (bs.length / 4))
  (if bad_ then worse st .poison else st, ok, if bad_ then s.logGroup d (o.store 0) (first * 4096) else s)
/-- The status for which a delta's header is refused, and whether that stops the descriptor: magic, version, block count and base flag;
the base version; the bound (R165). -/
def Ocb.headerBad (o : Ocb) (w nb fixed : Nat) (st : Status) : Option (Status × Bool) :=
  if o.arg 255 192 < 64 then some (.badArg, true)
  else if fld w 31 0 != 0x4B444C47 || fld w 47 32 != 1 || fld w 287 256 != nb || bit w 49 != (o.arg 0 0 == 1) then
    some (boundStatus st true, false)
  else if o.arg 127 64 != 0 && o.arg 127 64 != fld w 383 320 then some (if st == .ok then .conflictVersion else st, false)
  else if o.arg 255 192 < fixed then some (.badArg, true)
  else none
/-- One block of a restore, and its group's write when it is the group's last (R165). -/
def State.restoreStep (s : State) (d : Desc) (part : Nat) (o : Ocb) (nb : Nat) (changed : Bool) (ct : List Byte) (k : Nat) (r : Restore) :
    Restore × Bool × State :=
  let (b, st, s) := s.restoreBlock d part o changed k r.off (o.arg 255 192)
  let r := { r with st := worse r.st st }
  match b with
  | none =>
    let (st, ok, s) := s.restoreGroup d part o (k / 16 * 16) r.group none
    ({ r with stop := true, done_ := k, st := worse r.st st }, ok, s)
  | some (bs, off) =>
    let g := r.group ++ bs
    if k % 16 = 15 || k + 1 = nb then
      let crc := leNat ((ct.drop (4 * (k / 16))).take 4)
      let (st, ok, s) := s.restoreGroup d part o (k / 16 * 16) g (some crc)
      ({ r with off, group := [], done_ := k + 1, st := worse r.st st }, ok, s)
    else ({ r with off, group := g }, true, s)
/-- The blocks of a restore in order, while the delta is valid and store 0 has a route. -/
def State.restoreAll (s : State) (d : Desc) (part : Nat) (o : Ocb) (nb bits : Nat) (ct : List Byte) (start : Restore) :
    Restore × Bool × State :=
  (List.range nb).foldl (fun (x : Restore × Bool × State) k =>
    if x.1.stop || !x.2.1 then x else x.2.2.restoreStep d part o nb (bits.testBit k) ct k x.1) (start, true, s)
/-- CKPT_RESTORE (R165). -/
def execCkptRestore (q i : Nat) (s : State) : Host.Outcome State Fault Refusal :=
  settled (s.onOperator q i 6 (fun d part s => s.stockReady d part [] (fun s =>
    let o : Ocb := ⟨d.ocb⟩
    let nb := d.iter * d.opRows
    let key := (o.load 0).ep.key
    let a := d.accNow part
    let fixed := 64 + roundUp (cdiv nb 8) 64 + roundUp (4 * cdiv nb 16) 64
    let (hd, st, s) := s.readKey d.runs key (min 64 (o.arg 255 192)) a
    match o.headerBad (leNat (hd.map (·.1))) nb fixed st with
    | some (st, stop) => s.opDone d st stop 0 0 false true
    | none =>
      let (bm, st2, s) := s.readKey d.runs (key + 64) (cdiv nb 8) a
      let (ct, st3, s) := s.readKey d.runs (key + 64 + roundUp (cdiv nb 8) 64) (4 * cdiv nb 16) a
      let (r, ok, s) := s.restoreAll d part o nb (leNat (bm.map (·.1))) (ct.map (·.1))
        { off := fixed, st := worse (worse st st2) st3 }
      if !ok then s.opUnrouted d 0 0
      else s.opDone d r.st r.stop (r.done_ * 1024) 0 ((o.store 0).ep.kind == 2) true)))
/-- CONVERT, SSB_PACK and SSB_UNPACK: rows of load stream 0 decoded and stored. -/
def State.convertRows (s : State) (d : Desc) (part : Nat) : State :=
  s.stockReady d part [] (fun s =>
    let o : Ocb := ⟨d.ocb⟩
    let (rows, stop, st, s) := s.loadRows d.runs (o.load 0) d.shape.list d.rowElems (d.acc part)
    let (es, _) := rowsOuts o.round (o.store 0) (rows.map (rowLanes (o.load 0))) (genStart o.seed)
    s.stockDone d part o st stop es none)
/-- CONVERT (R166). -/
def execConvert (q i : Nat) (s : State) : Host.Outcome State Fault Refusal :=
  settled (s.onOperator q i 7 (fun d part s => s.convertRows d part))
/-- SSB_PACK (R137, R166). -/
def execSsbPack (q i : Nat) (s : State) : Host.Outcome State Fault Refusal :=
  settled (s.onOperator q i 8 (fun d part s => s.convertRows d part))
/-- SSB_UNPACK (R137, R166). -/
def execSsbUnpack (q i : Nat) (s : State) : Host.Outcome State Fault Refusal :=
  settled (s.onOperator q i 9 (fun d part s => s.convertRows d part))
/-- The value of element `k` of `FILL_PATTERN`, and the generators after its draw (R166). -/
def fillValue (o : Ocb) (k : Nat) (g : List Nat) : Nat × List Nat :=
  let a := o.arg 63 32
  let b := o.arg 95 64
  match o.arg 1 0 with
  | 0 => (a, g)
  | 1 => (fFma (intF32 k) b a, g)
  | _ =>
    let (x, g) := genDraw g (k % 64)
    (fAdd a (fMul (fSub b a) (toF32 (.fin false (x / 256) (-24)))), g)
/-- The `n` elements of `FILL_PATTERN` (R166). -/
def Ocb.fillOuts (o : Ocb) (n : Nat) : List OutEl :=
  ((List.range n).foldl (fun (r : List OutEl × List Nat) k =>
    let (v, g) := fillValue o k r.2
    let (rnd, g) := drawRnd (if o.round = 2 && (o.store 0).fmt = 10 then 0 else o.round) g (k % 64)
    (r.1 ++ [{ bits := v, poison := false, rnd }], g)) ([], genStart o.seed)).1
/-- FILL_PATTERN (R166). -/
def execFillPattern (q i : Nat) (s : State) : Host.Outcome State Fault Refusal :=
  settled (s.onOperator q i 10 (fun d part s => s.stockReady d part [] (fun s =>
    let o : Ocb := ⟨d.ocb⟩
    s.stockDone d part o .ok false (o.fillOuts (d.iter * d.opRows * d.rowElems)) none)))

end Sys2Proof.Machine
end

