-- ==== Sys2Proof/Machine/Queues.lean ====
section
/-! DEFINITION. Queues: doorbells, admission, start, completion, and the queue commands (R88 to R112, R298, R300, R302,
R303, R317, Tables 04-1, 04-2, 04-6, 04-8). -/

namespace Sys2Proof.Machine

/-! Rings and indices (R88, R90, R302). -/

/-- The CVA of the ring slot of an index. -/
def Queue.slot (q : Queue) (i : BitVec 32) : Nat := q.ring + i.toNat % 2 ^ q.log2 * 64
/-- The CVA of the completion slot of an index. -/
def Queue.comSlot (q : Queue) (i : BitVec 32) : Nat := q.comp + i.toNat % 2 ^ q.log2 * 16
/-- The descriptors of a queue in the controller. -/
def State.descsOf (s : State) (q : Nat) : List Desc := s.descs.filter (fun d => d.q == q)
/-- Whether a descriptor still waits at admission. -/
def Desc.waits (d : Desc) : Bool := d.phase == .held || d.phase == .stalled
/-- The queue's head that waits at admission. -/
def State.head? (s : State) (q : Nat) : Option Desc := (s.descsOf q).find? (·.waits)
/-- The index of the oldest unadmitted descriptor (R302). -/
def State.headIdx (s : State) (qid : Nat) (q : Queue) : BitVec 32 := ((s.head? qid).map (·.i)).getD q.next
/-- Drops the doorbells whose descriptors have all been admitted. -/
def State.pruneAvail (s : State) (qid : Nat) : State :=
  s.modQueue qid (fun q =>
    let l := q.avail.filter (fun a => decide ((s.headIdx qid q - q.ci).toNat < (a.1 - q.ci).toNat))
    { q with avail := l })
/-- `QUEUE_ERROR` and ERROR (R92, R96). -/
def State.queueError (s : State) (qid cause : Nat) : State :=
  match s.queue? qid with
  | none => s
  | some q =>
    (s.modQueue qid (fun q => { q with st := .error, cause })).postEq q.eq
      { typ := 4, obj := qid, body := cause + at_ q.pi.toNat 32 32, ctx := some (s.tagOf q.ctx) }

/-! Doorbells (R91 to R93). -/

/-- A doorbell that is not discarded for its source or its queue's state (R92). -/
def State.doorbell (s : State) (qid val : Nat) : State :=
  match s.queue? qid with
  | none => s
  | some q =>
    let p := BitVec.ofNat 32 val
    let a := (q.pi - q.ci).toNat
    let b := (p - q.ci).toNat
    if b = a then s
    else if a < b && b ≤ 2 ^ q.log2 then
      s.modQueue qid (fun q => { q with pi := p, avail := q.avail ++ [(p, s.clock.aon)] })
    else (s.modQueue qid (fun q => { q with rejects := sat 32 (q.rejects + 1) })).queueError qid 1
/-- Whether a function reaches a queue's doorbell page (R394), its host access open (R326, R387). -/
def State.hostReaches (s : State) (fn part : Nat) : Bool :=
  fn == part + 1 && !(s.part? part).any (fun p => p.resetting || p.hostClosed)
/-- DB_PI_WRITE (R92, R322, R326). -/
def execDbPiWrite (fn q val : Nat) (s : State) : Host.Outcome State Fault Refusal :=
  settled (match s.queue? q with
    | none => s.rouse
    | some u => if s.hostReaches fn u.part && u.st != .blocked then s.rouse.doorbell q val else s.rouse)
/-- Leaves an access of an ordered flow in its receive buffer while an earlier request of the flow has still to take effect at the
home (R228); else takes the packet and runs `k`. `ep` is the endpoint that serves it (Table 09-4). -/
def State.arriveReg (s : State) (p : Nat) (h : Hdr) (ep : Nat) (cmd : Instr) (k : State → State) : State :=
  s.arrive p h (fun s =>
    if s.flowOpen h s.coh.nextJoin then s.stall 0 cmd
    else
      let s := s.consume p h
      if h.dstEp != ep then s.refuse p 65 h .badArg none else k s)
/-- Why endpoint 0xFD refuses an access (R331, R357). -/
def State.regGate (s : State) (h : Hdr) : Option Status :=
  if s.boot.stage != 8 then some .busy
  else if h.incClaim != s.inc then some .staleIncarnation
  else none
/-- FABRIC_DOORBELL (R93, R331): the write's `CMP` carries the status. -/
def execFabricDoorbell (p : Nat) (h : Hdr) (q val : Nat) (s : State) : Host.Outcome State Fault Refusal :=
  settled (s.arriveReg p h 0xFD (.fabricDoorbell p h q val) (fun s =>
    match s.regGate h with
    | some st => s.refuse p 65 h st none
    | none =>
      if h.msgLen = 0 then s.refuse p 65 h .okEmpty none
      else
        match s.queue? q with
        | none => s.refuse p 65 h .notPermitted none
        | some u =>
          if u.st == .blocked || h.ctxTag != s.tagOf u.ctx then s.refuse p 65 h .notPermitted none
          else (s.doorbell q val).cmp p u.part h .ok 0 (s.claimOf 0 h.ctxTag)))
/-- The answer of a register access that a packet made: `RD_DATA` or `CMP` (R91). -/
def State.answerReg (s : State) (p : Nat) (h : Hdr) (st : Status) (v : Nat) : State :=
  if h.opcode = 0x02 then
    s.reply p 65 h 0x03 (.rsp 0 st.code) (if st == .ok then leBytes h.msgLen v else []) false h.addr none
  else s.cmp p 65 h st 0 none
/-- A read or write of a register of endpoint 0xFD or of its aperture: the value for a reader, whether the access is let in,
and the effect. -/
def State.regAccess (s : State) (src : Src) (cmd : Instr) (host : Nat → Bool) (fab : Hdr → Bool) (v : Nat) (f : State → State) :
    State :=
  match src with
  | .func n =>
    let s := { s.rouse with pins := { s.pins with readData := if host n then v else 0 } }
    if host n then f s else s
  | .fabric p h =>
    s.arriveReg p h 0xFD cmd (fun s =>
      match s.regGate h with
      | some st => s.answerReg p h st 0
      | none =>
        if h.msgLen = 0 then s.answerReg p h .okEmpty 0
        else if fab h then (f { s with pins := { s.pins with readData := v } }).answerReg p h .ok v else s.answerReg p h .notPermitted 0)
/-- DB_REJECTS_READ (R91, R93, R386, R394): by the queue's VF, or by a packet with the context tag of the queue. -/
def execDbRejectsRead (src : Src) (q : Nat) (s : State) : Host.Outcome State Fault Refusal :=
  let u := s.queue? q
  settled (s.regAccess src (.dbRejectsRead src q) (fun n => u.any (fun u => s.hostReaches n u.part)) (fun h => u.any (fun u => h.ctxTag == s.tagOf u.ctx))
    ((u.map (·.rejects)).getD 0) (fun s => s.modQueue q (fun u => { u with rejects := 0 })))

/-! Admission (Table 04-6). -/

/-- What orders 1 to 5 decide. -/
inductive Pre where
  | reject (st : Status)
  /-- A zero count (R105). -/
  | empty_
  /-- Admitted without translation or charge (R105). -/
  | free_
  | go (remote : Tab (Nat × Nat))
  deriving DecidableEq, Repr

/-- The valid rank-table entry of a rank (Table 09-5): node and endpoint. -/
def Context.rank (c : Context) (r : Nat) : Option (Nat × Nat) :=
  (c.ranks.at? r).bind (fun w => if bfld w 31 31 = 1 then some (bfld w 23 8, bfld w 7 0) else none)
/-- The node and endpoint of each named rank; none when one is invalid. -/
def Context.rankTab (c : Context) : List Nat → Option (Tab (Nat × Nat))
  | [] => some []
  | r :: rest =>
    match c.rank r, Context.rankTab c rest with
    | some e, some t => some (t.put r e)
    | _, _ => none
/-- The ranks that the endpoint fields of a descriptor name. -/
def Desc.ranksNamed (d : Desc) : List Nat :=
  let es := if 1 ≤ d.typ && d.typ ≤ 5 then [d.src, d.dst] else if d.typ = 6 then [d.dst] else if d.typ = 12 then [d.src] else []
  (es.filter (fun e => e.kind == 2)).map (·.rank)
/-- Order 2: a unit that the descriptor needs is absent (R3, R54, R118, R162). -/
def State.unitMissing (s : State) (d : Desc) : Bool :=
  let none_ := fun (k : Nat) => !(hubEngines k d.hub).any s.enginePresent
  if d.typ = 7 then
    (if d.engineField = 63 then none_ 2 else !s.enginePresent d.engineField)
    || (d.stock == 5 && s.variant.dcs == 0)
  else if d.typ = 11 then s.placeAbsent d.placement
  else d.engineKind != 0 && none_ d.engineKind
/-- Order 4 for engines (R294). -/
def State.engineDenied (s : State) (d : Desc) (part : Nat) : Bool :=
  (d.engineKind != 0 && (s.part? part).all (fun p => p.engineMax d.engineKind == 0))
  || (d.typ == 7 && d.engineField != 63 && (s.reserver d.engineField).any (fun r => r != part && s.strict r))
/-- Orders 1 to 5 of Table 04-6. -/
def State.precheck (s : State) (d : Desc) (c : Context) (part : Nat) : Pre :=
  if !d.wellFormed then .reject .badDesc
  else if d.typ = 11 && (s.region? d.migRegion).all (fun r => r.size == 0) then .free_
  else if s.unitMissing d then .reject .absentUnit
  else if d.typ = 12 && d.length = 0 then .free_
  else if d.zeroCount then .empty_
  else if d.typ = 9 && (s.eq? (d.f 351 340)).all (fun e => e.part != part) then .reject .notPermitted
  else if s.engineDenied d part then .reject .notPermitted
  else
    match c.rankTab d.ranksNamed with
    | none => .reject .badDesc
    | some t => .go t

/-- What order 8 and the checks on its runs decide. -/
inductive Xlate where
  /-- Copies of the block or list to read are being recalled. -/
  | wait_
  | reject (st : Status)
  | fault (f : PageFault)
  | runs (rs : List Run) (ocb : List Byte) (remote : Tab (Nat × Nat))
  deriving DecidableEq, Repr

/-- Pre-translates a range and reads it once, before the descriptor moves a byte (R104): not ready, a fault, or its bytes and
status. -/
def State.readOnce (s : State) (d : Desc) (c : Context) (part : Nat) (x : Stream) (n : Nat) :
    (Option (PageFault ⊕ (List Byte × Status))) × State :=
  let (wst, s) := s.walkStreams c d.tag [x]
  match s.transStream c x x.pages with
  | .inl f => (if wst == .ok then some (.inl f) else some (.inr ([], wst)), s)
  | .inr l =>
    let rs := s.mkRuns l
    let (ok, s) := s.keysReady rs [(x.base, n)] []
    if !ok then (none, s)
    else
      let (bs, st, s) := s.readKey rs x.base n { d.acc part with desc := none, served := false }
      let st := worse wst st
      (some (.inr (bs.map (·.1), st)), s)
/-- The status of a block or list that reads badly (R118, R144). -/
def blockStatus (st : Status) : Status := if st == .pcFrozen then .pcFrozen else .poison
/-- The ranks of the REMOTE stores and scale arrays of an operator. -/
def Ocb.ranksNamed (o : Ocb) : List Nat :=
  (List.range 2).flatMap (fun k =>
    let x := o.store k
    (if x.word != 0 && x.ep.kind == 2 then [x.ep.rank] else [])
    ++ (if x.word != 0 && x.scaled && x.scaleEp.kind == 2 then [x.scaleEp.rank] else []))
/-- Order 9 of an operator (R118, R144 to R166). -/
def State.operatorBad (s : State) (d : Desc) (o : Ocb) (list : List Byte) (all : List Stream) (rs : List Run) : Bool :=
  let h := d.shape
  let ents := (chunksOf 16 list.length list).map leNat
  (if d.stock = 0 then !o.valid h d.storeBytes else !o.stockValid d.stock h d.storeBytes)
  || ents.any (fun w => !(inputEp w).local_ || w >>> 80 != 0)
  || streamClash all rs
  || (d.stock == 5 && (all.filter (fun x => x.acc == 1)).any (fun x =>
      (x.regs rs).flatten.any (fun b => (s.region? b.1).all (fun r => r.pl.tier != 1))))
  || (d.stock == 3 && o.arg 82 82 == 1 && ((o.store 0).ep.kind == 2 || ((o.store 0).scaled && (o.store 0).scaleEp.kind == 2)))
/-- Orders 8 and 9 of an OPERATOR (R118, R119, R144). -/
def State.xlateOperator (s : State) (d : Desc) (c : Context) (part : Nat) : Xlate × State :=
  let blk : Stream := { base := d.ocbEp.key, ranges := [(0, 512)], acc := 0 }
  match s.readOnce d c part blk 512 with
  | (none, s) => (.wait_, s)
  | (some (.inl f), s) => (.fault f, s)
  | (some (.inr (bs, st)), s) =>
    if st != .ok then (.reject (blockStatus st), s)
    else
      let o : Ocb := ⟨bs⟩
      let lst : Stream := { base := o.indexEp.key, ranges := [(0, 16 * d.opRows)], acc := 0 }
      let r := if d.stock = 1 && o.indexEp.kind < 2 then s.readOnce d c part lst (16 * d.opRows) else (some (.inr ([], .ok)), s)
      match r with
      | (none, s) => (.wait_, s)
      | (some (.inl f), s) => (.fault f, s)
      | (some (.inr (list, st)), s) =>
        if st != .ok then (.reject (blockStatus st), s)
        else
          let eps := (chunksOf 16 list.length list).map (fun b => inputEp (leNat b))
          let all := blk :: (if d.stock = 0 then o.streams d.shape else o.stockStreams d.stock d.shape eps)
          let (wst, s) := s.walkStreams c d.tag all
          match s.transStreams c all with
          | .inl f => (if wst == .ok then .fault f else .reject (blockStatus wst), s)
          | .inr l =>
            let rs := s.mkRuns l
            if wst != .ok then (.reject (blockStatus wst), s)
            else if s.operatorBad d o list all rs then (.reject .badDesc, s)
            else
              match c.rankTab o.ranksNamed with
              | none => (.reject .badDesc, s)
              | some t => (.runs rs (bs ++ list) t, s)
/-- Order 8 of a MIGRATE (R54). Its `PERM_WRITE` fault on the region's lowest mapped page gives LEVEL 0 with HANDLE = 0 (DESIGN CHOICE,
log 84: R44 gives the leaf's level for `PERM_WRITE`, and 0 for what a HANDLE endpoint finds without a walk). -/
def State.xlateMigrate (s : State) (d : Desc) (c : Context) : Xlate :=
  let ls := s.leavesOf c d.migRegion
  match ls.head? with
  | none => .fault { page := d.dst.addr, handle := true, cause := 0, level := 0, access := 1 }
  | some x =>
    if ls.any (fun x => leafW x.2.2) then .runs [] [] []
    else .fault { page := x.1, handle := false, cause := 3, level := 0, access := 1 }
/-- Orders 8 and 9 of Table 04-6. -/
def State.xlate (s : State) (d : Desc) (c : Context) (part : Nat) : Xlate × State :=
  if d.typ = 7 then s.xlateOperator d c part
  else if d.typ = 11 then (s.xlateMigrate d c, s)
  else
    let (wst, s) := s.walkStreams c d.tag d.streams
    match s.transStreams c d.streams with
    | .inl f => (if wst == .ok then .fault f else .reject wst, s)
    | .inr l =>
      let rs := s.mkRuns l
      if wst != .ok then (.reject wst, s)
      else if d.overlaps rs then (.reject .badDesc, s) else (.runs rs [] d.remote, s)

/-- A head leaves admission: its phase and status; the queue, where HELD or STALLED, is ACTIVE again (Table 04-2). -/
def State.admitted (s : State) (qid : Nat) (i : BitVec 32) (ph : Phase) (st : Status) : State :=
  let s := s.modDesc qid i (fun d => { d with phase := ph, status := st, order := s.descOrder })
  let s := s.modQueue qid (fun q => { q with st := if q.st == .held || q.st == .stalled then .active else q.st })
  ({ s with descOrder := s.descOrder + 1, heldOrder := dropVal s.heldOrder qid }).pruneAvail qid
/-- A head is HELD for budget or for runs (R111, Table 04-2). -/
def State.holdHead (s : State) (qid : Nat) (i : BitVec 32) : State :=
  let s := s.modDesc qid i (fun d => { d with phase := .held, wait := 2 })
  let s := s.modQueue qid (fun q => { q with st := if q.st == .active then .held else q.st })
  { s with heldOrder := if s.heldOrder.contains qid then s.heldOrder else s.heldOrder ++ [qid] }
/-- Orders 8 to 11 for a head that holds its charge. -/
def State.admitRuns (s : State) (qid : Nat) (i : BitVec 32) : State :=
  match s.desc? qid i, s.queue? qid with
  | some d, some q =>
    match s.ctx? q.ctx with
    | none => s
    | some c =>
      match s.xlate d c q.part with
      | (.wait_, s) => s.modDesc qid i (fun d => { d with phase := .held })
      | (.reject st, s) => s.admitted qid i .finished st
      | (.fault f, s) =>
        if c.stall then
          let s := s.modDesc qid i (fun d => { d with phase := .stalled })
          let s := s.modQueue qid (fun q => { q with st := if q.st == .active || q.st == .held then .stalled else q.st })
          ({ s with heldOrder := dropVal s.heldOrder qid }).stallFault d.tag f qid i
        else (s.reportFault d.tag f.page f.cause f.level f.access false f.handle qid).admitted qid i .finished (causeStatus f.cause)
      | (.runs rs ocb t, s) =>
        if 4096 < rs.length then s.admitted qid i .finished .badDesc
        else if 65536 < s.runsUsed d.hub + rs.length then s.holdHead qid i
        else (s.modDesc qid i (fun d => { d with runs := rs, ocb, remote := t })).admitted qid i .ready .ok
  | _, _ => s
/-- Whether another queue of the partition became HELD before this one (R111). -/
def State.heldAhead (s : State) (qid part : Nat) : Bool :=
  (s.heldOrder.takeWhile (fun x => x != qid)).any (fun x => (s.queue? x).any (fun q => q.part == part))
/-- Orders 6 and 7 (R110, R111, R300), then the rest. -/
def State.admitBudget (s : State) (qid : Nat) (i : BitVec 32) : State :=
  match s.desc? qid i, s.queue? qid with
  | some d, some q =>
    match s.part? q.part with
    | none => s
    | some p =>
      let c := d.chargeBytes
      if p.budgetBytes = 0 || p.budgetDesc = 0 || p.budgetBytes < c then s.admitted qid i .finished .refusedBudget
      else if p.budgetBytes < p.bytes + c || p.budgetDesc < p.descs + 1 || s.heldAhead qid q.part then
        if q.refuse then s.admitted qid i .finished .refusedBudget else s.holdHead qid i
      else
        let s := s.modPart q.part (fun p => { p with bytes := p.bytes + c, descs := p.descs + 1 })
        (s.modDesc qid i (fun d => { d with charged := true, charge := c })).admitRuns qid i
  | _, _ => s
/-- Continues the admission of a head that waits. -/
def State.continueHead (s : State) (qid : Nat) (d : Desc) : State :=
  if d.charged then s.admitRuns qid d.i else s.admitBudget qid d.i
/-- Reads the next ring slot and takes its descriptor through Table 04-6 (R94, R96, R104); a controller that does not serve
mirrored contexts completes theirs with `ST_STALE_CLAIM` (R346, log 18). -/
def State.admitNext (s : State) (qid : Nat) (q : Queue) (c : Context) : State :=
  let key := q.slot q.next
  let a : Acc := { tag := s.tagOf q.ctx, part := q.part }
  let (ok, s) := s.keysReady q.runs [(key, 64)] []
  if !ok then s
  else
    let (bs, st, s) := s.readKey q.runs key 64 a
    if st != .ok then s.queueError qid 2
    else
      let i := q.next
      let d : Desc := { q := qid, i, tag := s.tagOf q.ctx, words := BitVec.ofNat 512 (leNat (bs.map (·.1))), hub := s.ctxHub q.ctx, phase := .held }
      let s := { s.modQueue qid (fun q => { q with next := q.next + 1 }) with descs := s.descs ++ [d] }
      if c.mirror && s.mirrorIdle then
        ({ s with mirror := { s.mirror with stale := s.mirror.stale + 1 } } : State).admitted qid i .finished .staleClaim
      else
      match s.precheck d c q.part with
      | .reject st => s.admitted qid i .finished st
      | .empty_ => s.admitted qid i .finished .okEmpty
      | .free_ => s.admitted qid i .ready .ok
      | .go t => (s.modDesc qid i (fun d => { d with remote := t })).admitBudget qid i
/-- One step of admission on a queue: only an ACTIVE queue admits, none behind a FENCE or EVENT, and only while its shapers
let it (R95, R106, R298). -/
def State.admitStep (s : State) (qid : Nat) : State :=
  match s.queue? qid with
  | none => s
  | some q =>
    match s.head? qid with
    | some d =>
      -- a head that waits for recalled copies goes on in every state of its queue (R95)
      if d.phase == .held && (q.st == .active || !s.heldOrder.contains qid) then s.continueHead qid d else s
    | none =>
      if q.st != .active || q.next == q.pi || (s.descsOf qid).any (fun d => d.typ == 8 || d.typ == 9) then s
      else if !(s.shapersOf q).all (fun x => x.lets s.clock.aon) then s.wheelSet qid
      else
        match s.ctx? q.ctx with
        | none => s
        | some c => s.admitNext qid q c
/-- DESCRIPTOR_ADMIT (R104). -/
def execDescriptorAdmit (q : Nat) (s : State) : Host.Outcome State Fault Refusal := settled (s.admitStep q)
/-- Retries a partition's HELD heads in the order in which their queues became HELD (R95, R111, R300). -/
def State.retryHeld (s : State) (part : Nat) : State :=
  (s.heldOrder.filter (fun x => (s.queue? x).any (fun q => q.part == part))).foldl (fun s x =>
    match s.head? x with
    | some d => if d.phase == .held && s.heldOrder.contains x then s.continueHead x d else s
    | none => s) s
/-- HELD_QUEUE_RETRY (R111). -/
def execHeldQueueRetry (part : Nat) (s : State) : Host.Outcome State Fault Refusal := settled (s.retryHeld part)
/-- SHAPER_WHEEL_VISIT (R298, R299): the entry is recomputed; once every shaper lets it, the head is considered. -/
def execShaperWheelVisit (q : Nat) (s : State) : Host.Outcome State Fault Refusal :=
  settled (match s.wheel.at? q with
    | none => s
    | some _ => (s.wheelSet q).admitStep q)
/-- A fault entry closes for one waiter (R46, R47): retried from order 8, or completed. -/
def State.unstall (s : State) (retry : Bool) (st : Status) (w : Nat × BitVec 32) : State :=
  match s.desc? w.1 w.2 with
  | none => s
  | some d =>
    if d.phase != .stalled then s
    else if retry then
      (s.modQueue w.1 (fun q => { q with st := if q.st == .stalled then .active else q.st })).admitRuns w.1 w.2
    else s.admitted w.1 w.2 .finished st

/-! Start (R106, R112, R294, R298). -/

/-- Whether an earlier descriptor of the queue is still in the controller. -/
def State.earlier (s : State) (d : Desc) : Bool := (s.descsOf d.q).any (fun x => x.order < d.order && !x.waits)
/-- Whether a ready descriptor may start now: in index order, and after every earlier one under `ORDER_AFTER`. -/
def State.mayStart (s : State) (d : Desc) : Bool :=
  d.phase == .ready && d.typ != 13
  && !(s.descsOf d.q).any (fun x => x.order < d.order && x.phase == .ready && x.typ != 13)
  && !(d.orderAfter && s.earlier d)
/-- Whether a descriptor needs an engine (R105, R112, R149). -/
def Desc.needsEngine (d : Desc) : Bool := d.engineKind != 0 && !(d.typ == 12 && d.length == 0)
/-- Recomputes the wheel entries of a partition's queues. -/
def State.wheelPart (s : State) (part : Nat) : State :=
  (s.queues.filter (fun q => q.2.part == part)).foldl (fun s q => s.wheelSet q.1) s
/-- Starts a descriptor, its shapers debited. -/
def State.startDesc (s : State) (d : Desc) (u : Queue) : State :=
  ((s.debit u d.chargeBytes).modDesc d.q d.i (fun d => { d with phase := .started })).wheelPart u.part
/-- Whether a descriptor is a transfer, which runs in segments (R112). -/
def Desc.transfers (d : Desc) : Bool := 1 ≤ d.typ && d.typ ≤ 6
/-- An engine takes the next segment of a transfer (R112). -/
def State.giveSegment (s : State) (d : Desc) (part e : Nat) : State :=
  (s.giveEngine d.q d.i part e).modDesc d.q d.i (fun d => { d with
    segRuns := d.segRuns ++ [{ engine := e, seg := d.nextSeg }], nextSeg := d.nextSeg + 1 })
/-- DESCRIPTOR_START (R106, R112, R120): its engine is freely chosen among those that may take it; of a started transfer, a further
engine takes the next segment. -/
def execDescriptorStart (q i : Nat) (s : State) : Host.Outcome State Fault Refusal :=
  settled (match s.desc? q (BitVec.ofNat 32 i), s.queue? q with
    | some d, some u =>
      let more := d.phase == .started && d.transfers && d.nextSeg < d.segTotal
      if !s.mayStart d && !more then s
      else if !d.needsEngine then s.startDesc d u
      else
        match s.takers d u.part with
        | [] => s
        | e :: r =>
          let (e, s) := s.choose (e :: r) e
          if more then s.giveSegment d u.part e
          else if d.transfers then
            ((s.startDesc d u).modDesc q d.i (fun d => { d with
              segs := if d.segTotal = 1 then 0 else d.segTotal })).giveSegment d u.part e
          else (s.startDesc d u).giveEngine q d.i u.part e
    | _, _ => s)

/-! Completion (R107 to R110, Table 04-8). -/

/-- The completion record. -/
def Desc.record (d : Desc) (log2 : Nat) : Nat :=
  at_ d.result 64 64 + at_ d.dtag 16 48 + at_ d.status.code 16 32 + at_ d.i.toNat 16 16 + at_ d.typ 4 12
  + at_ d.wait 2 10 + at_ (1 - d.i.toNat >>> log2 % 2) 1 9 + at_ (b2n d.partDone) 1 8
/-- CI past every consecutive written index, with fuel. -/
def Queue.advance : Nat → Queue → Queue
  | 0, q => q
  | n + 1, q => if q.written.contains q.ci then Queue.advance n { q with ci := q.ci + 1, written := q.written.erase q.ci } else q
/-- Returns a descriptor's charge (R110). -/
def State.refund (s : State) (d : Desc) (part : Nat) : State :=
  if d.charged then s.modPart part (fun p => { p with bytes := p.bytes - d.charge, descs := p.descs - 1 }) else s
/-- A queue as `QUEUE_RESET` leaves it (R90, R302). -/
def Queue.cleared (q : Queue) : Queue :=
  { q with st := .disabled, pi := 0, ci := 0, next := 0, written := [], avail := [], samples := List.replicate 16 0,
           resetMb := none }
/-- Whether a page range is mapped for an access. -/
def State.ringFault (s : State) (c : Context) (q : Queue) : Bool :=
  match s.transStreams c [{ base := q.ring, ranges := [(0, 64 * 2 ^ q.log2)], acc := 0 },
                          { base := q.comp, ranges := [(0, 16 * 2 ^ q.log2)], acc := 1 }] with
  | .inl _ => true
  | .inr _ => false
/-- The runs of both rings. -/
def State.ringRuns (s : State) (c : Context) (q : Queue) : List Run :=
  match s.transStreams c [{ base := q.ring, ranges := [(0, 64 * 2 ^ q.log2)], acc := 0 },
                          { base := q.comp, ranges := [(0, 16 * 2 ^ q.log2)], acc := 1 }] with
  | .inl _ => []
  | .inr l => s.mkRuns l
/-- The regions that hold a queue's rings (R89). -/
def ringRegions (rs : List Run) : List Nat := (rs.map (fun (r : Run) => r.region)).dedup
/-- The checks of R88 on rings that are translated again (R88, QUEUE_RESET after a warm reset). -/
def State.ringChecks (s : State) (c : Context) (q : Queue) : Option Status :=
  if s.ringFault c q || (s.eq? q.eq).all (fun e => e.part != q.part) then some .badArg
  else if 65536 < s.runsUsed (s.ctxHub q.ctx) + (s.ringRuns c q).length then some .noResource
  else none
/-- A waiting `QUEUE_RESET` takes effect once no admitted descriptor is left (R88, R95). -/
def State.resetIf (s : State) (qid : Nat) : State :=
  match s.queue? qid with
  | none => s
  | some q =>
    match q.resetMb with
    | none => s
    | some m =>
      if !(s.descsOf qid).isEmpty then s
      else if !q.runsLost then (s.modQueue qid (·.cleared)).respond m okResp
      else
        match s.ctx? q.ctx with
        | none => s
        | some c =>
          match s.ringChecks c q with
          | some st => (s.modQueue qid (fun q => { q with resetMb := none })).respond m { status := st }
          | none =>
            (s.modQueue qid (fun q => { q.cleared with runs := s.ringRuns c q, rings := ringRegions (s.ringRuns c q), runsLost := false })).respond m okResp
/-- The completion of a finished descriptor whose record can be written now. -/
def State.completeDesc (s : State) (d : Desc) (q : Queue) : State :=
  let (_, s) := s.writeKey q.runs (q.comSlot d.i) ((leBytes 16 (d.record q.log2)).map (fun b => (b, false)))
    { tag := d.tag, part := q.part }
  let s := if (s.eq? q.eq).any (fun e => e.notify == 1) then s.sealOut q.part 4 (leBytes 16 (d.record q.log2)) else s
  let fail := !d.status.good
  let s := s.modQueue d.q (fun q => Queue.advance (q.written.length + 1)
    { q with written := q.written ++ [d.i], fails := if fail then sat 32 (q.fails + 1) else q.fails })
  let s := if fail then s.modCtx q.ctx (fun c => { c with fails := sat 32 (c.fails + 1) }) else s
  let s := if d.event && !d.quiet then
      s.postEq q.eq { typ := 1, obj := d.q, body := d.record q.log2, ctx := some d.tag }
    else s
  ((((s.refund d q.part).dropDesc d.q d.i).pruneAvail d.q).sweepExts).resetIf d.q
/-- Whether a finished descriptor's completion may be written (R106): no access of it waits in a memory queue (R109, R429). -/
def State.mayComplete (s : State) (d : Desc) : Bool :=
  d.phase == .finished && !(d.orderAfter && d.status == .okEmpty && s.earlier d) && !s.descQueued d.q d.i
/-- DESCRIPTOR_COMPLETE (R108): copies of the slot's granule are recalled before the record lands. -/
def execDescriptorComplete (q i : Nat) (s : State) : Host.Outcome State Fault Refusal :=
  settled (match s.desc? q (BitVec.ofNat 32 i), s.queue? q with
    | some d, some u =>
      if !s.mayComplete d then s
      else
        let (ok, s) := s.keysReady u.runs [] [(u.comSlot d.i, 16)]
        if ok then s.completeDesc d u else s
    | _, _ => s)

/-! Queue commands (Table 16-9). -/

/-- Whether a context's tag is current and its context answers commands (R321, R431). -/
def State.ctxBad (s : State) (tag : Nat) : Bool := (s.ctxOfTag tag).isNone
/-- Whether a context is TEARING. -/
def State.ctxTearing (s : State) (tag : Nat) : Bool := (s.ctxOfTag tag).any (fun c => c.st == .tearing)
/-- The partition of a tag's context. -/
def State.tagPart (s : State) (tag : Nat) : Option Nat := (s.ctxOfTag tag).map (·.part)
/-- Whether a mirrored context is served by a standby (R339). -/
def State.standbyFor (s : State) (tag : Nat) : Bool :=
  (s.ctxOfTag tag).any (·.mirror) && (s.mirror.role == .standby || s.mirror.role == .standbySync)
/-- The partition's slot range holds queue `q`. -/
def Partition.hasQueue (p : Partition) (q : Nat) : Bool := p.queueBase ≤ q && q < p.queueBase + p.queueCount
end Sys2Proof.Machine

namespace Sys2Proof
/-- The queue that a `QUEUE_CREATE` asks for, without its runs. -/
def QueueReq.toQueue (r : QueueReq) (part : Nat) : Machine.Queue :=
  { ctx := Machine.tagNum r.tag, part, log2 := r.log2, ring := r.ring, comp := r.comp, eq := r.eq, refuse := r.mode == 1,
    samples := List.replicate 16 0 }
end Sys2Proof

namespace Sys2Proof.Machine

/-- QUEUE_CREATE (R88, R282, R339). -/
def execQueueCreate (m : Nat) (r : QueueReq) (s : State) : Host.Outcome State Fault Refusal :=
  let part := (s.tagPart r.tag).getD 64
  let p := (s.part? part).getD { cfg := 0 }
  let c := (s.ctxOfTag r.tag).getD { part := 64 }
  let q := r.toQueue part
  settled (s.command m { own := [s.tagPart r.tag, (s.queue? r.q).map (·.part)] }
    [bad (s.ctxBad r.tag) 2, chk (p.queueCount == 0) .noResource, (r.log2 == 0, .badDesc, 0x24),
     bad (!p.hasQueue r.q) 0, bad (r.log2 < 4 || 16 < r.log2) 4, bad (r.ring % (64 * 2 ^ r.log2) != 0) 8,
     bad (r.comp % (16 * 2 ^ r.log2) != 0) 16, bad (s.ringFault c q) 8,
     bad ((s.eq? r.eq).all (fun e => e.part != part)) 24, bad (1 < r.mode) 26,
     chk (s.standbyFor r.tag) .notPermitted,
     chk (c.st != .active || (s.queue? r.q).isSome) .busy,
     chk (decide (65536 < s.runsUsed (s.ctxHub q.ctx) + (s.ringRuns c q).length)) .noResource]
    (fun s => { s with queues := s.queues.put r.q { q with runs := s.ringRuns c q, rings := ringRegions (s.ringRuns c q) } }.respond m okResp))
/-- A command that names one queue. -/
def State.queueCmd (s : State) (m q : Nat) (query : Bool) (checks : Queue → List Check) (eff : Queue → State → State) :
    Host.Outcome State Fault Refusal :=
  settled (match s.queue? q with
    | none => s.command m { query } [bad true 0] id
    | some u => s.command m { own := [some u.part], query } (checks u) (eff u))
/-- Removes a queue, its runs and its shaper attachment. -/
def State.dropQueue (s : State) (q : Nat) : State :=
  let s := { s with queues := s.queues.del q, wheel := s.wheel.del q, heldOrder := dropVal s.heldOrder q }
  s.sweepExts
/-- QUEUE_DESTROY (R375). -/
def execQueueDestroy (m q : Nat) (s : State) : Host.Outcome State Fault Refusal :=
  s.queueCmd m q false (fun u =>
    [chk (!(u.st == .disabled || u.st == .error || u.st == .blocked) || !(s.descsOf q).isEmpty) .busy])
    (fun _ s => (s.dropQueue q).respond m okResp)
/-- QUEUE_ENABLE (R95). -/
def execQueueEnable (m q : Nat) (s : State) : Host.Outcome State Fault Refusal :=
  s.queueCmd m q false (fun u => [chk (!(u.st == .disabled || u.st == .active)) .busy])
    (fun u s => if u.st == .active then s.respond m { status := .okEmpty }
      else (s.modQueue q (fun u => { u with st := .active })).respond m okResp)
/-- QUEUE_DISABLE (R95). -/
def execQueueDisable (m q : Nat) (s : State) : Host.Outcome State Fault Refusal :=
  s.queueCmd m q false (fun u => [chk (!(u.st == .disabled || u.st == .active)) .busy])
    (fun u s => if u.st == .disabled then s.respond m { status := .okEmpty }
      else (s.modQueue q (fun u => { u with st := .disabled })).respond m okResp)
/-- QUEUE_RESET (R88, R95): completes once the queue holds no admitted descriptor. -/
def execQueueReset (m q : Nat) (s : State) : Host.Outcome State Fault Refusal :=
  s.queueCmd m q false (fun u =>
    [chk (!(u.st == .disabled || u.st == .error
        || (u.st == .blocked && (s.ctx? u.ctx).any (fun c => c.st == .active))) || u.resetMb.isSome) .busy])
    (fun _ s => (s.modQueue q (fun u => { u with resetMb := some m })).resetIf q)
/-- QUEUE_QUERY (R375). -/
def execQueueQuery (m q : Nat) (s : State) : Host.Outcome State Fault Refusal :=
  s.queueCmd m q true (fun _ => [])
    (fun u s => s.respond m (okBody [(4, u.pi.toNat), (4, u.ci.toNat), (2, u.st.code + 256 * u.cause), (2, s.tagOf u.ctx),
      (2, u.eq)]))
/-- QUEUE_SET_WATCHDOG (R317). -/
def execQueueSetWatchdog (m q period action : Nat) (s : State) : Host.Outcome State Fault Refusal :=
  s.queueCmd m q false (fun _ => [bad (60000 < period) 4, bad (1 < action) 8])
    (fun _ s => (s.modQueue q (fun u => { u with wdMs := period, wdTear := action == 1 })).respond m okResp)
/-- QUEUE_SAMPLES (R303). -/
def execQueueSamples (m q : Nat) (s : State) : Host.Outcome State Fault Refusal :=
  s.queueCmd m q true (fun _ => [])
    (fun u s => s.respond m (okBody ((8, u.sampleTime.toNat) :: u.samples.map (fun w => (8, w.toNat)))))

/-! Samples (R302, Table 12-5). -/

/-- The sample of a queue now. -/
def State.sampleOf (s : State) (qid : Nat) (q : Queue) : BitVec 64 :=
  let idx := s.headIdx qid q
  let wait := match q.avail.find? (fun a => (idx - q.ci).toNat < (a.1 - q.ci).toNat) with
    | some a => if idx = q.pi then 0 else (s.clock.aon - a.2) / 64
    | none => 0
  BitVec.ofNat 64 (at_ (q.pi - q.ci).toNat 17 47 + at_ (sat 23 wait) 23 24 + at_ q.st.code 3 21)
/-- QUEUE_SAMPLE_TICK (R302). -/
def execQueueSampleTick (s : State) : Host.Outcome State Fault Refusal :=
  settled { s with queues := s.queues.map (fun q =>
    (q.1, { q.2 with samples := (s.sampleOf q.1 q.2 :: q.2.samples).take 16, sampleTime := s.clock.base })) }

end Sys2Proof.Machine
end

