-- ==== Sys2Proof/Machine/Transfers.lean ====
section
/-! DEFINITION. The transfer types, fences and events, and the answers of remote endpoints (R100 to R103, R106, R107, R112,
R229, R266). -/

namespace Sys2Proof.Machine

/-- The moves of a contiguous, tiled or fill type. -/
def Desc.moveList (d : Desc) : List Move := d.moves.map (fun m => (d.src.source m.1, d.dst.target m.2.1, m.2.2))
/-- The bytes of a move list. -/
def moveBytes (ms : List Move) : Nat := (ms.map (·.2.2)).sum
/-- A transfer without an index list. -/
def State.plainTransfer (s : State) (d : Desc) (u : Queue) : State :=
  s.transfer d u.part d.moveList (moveBytes d.moveList)
/-- COPY (R100). -/
def execCopy (q i : Nat) (s : State) : Host.Outcome State Fault Refusal :=
  settled (s.onStarted q i 1 (fun d u s => s.plainTransfer d u))
/-- TILE2D (R100). -/
def execTile2d (q i : Nat) (s : State) : Host.Outcome State Fault Refusal :=
  settled (s.onStarted q i 2 (fun d u s => s.plainTransfer d u))
/-- TILE3D (R100). -/
def execTile3d (q i : Nat) (s : State) : Host.Outcome State Fault Refusal :=
  settled (s.onStarted q i 3 (fun d u s => s.plainTransfer d u))
/-- The pattern of FILL, from its lowest byte (Table 04-5). -/
def Desc.pattern (d : Desc) : List Byte := leBytes (2 ^ d.f 255 254) (d.f 319 256)
/-- FILL (R100). -/
def execFill (q i : Nat) (s : State) : Host.Outcome State Fault Refusal :=
  settled (s.onStarted q i 6 (fun d u s =>
    s.transfer d u.part [(.pattern d.pattern, d.dst.target 0, d.length)] d.length))
/-- An index list, once every declared range is clear: entries, status, first out-of-bound position (R102). -/
def State.indexed (s : State) (d : Desc) (u : Queue)
    (k : List (Option Nat × Bool × Bool) → Status → Option Nat → State → State) : State :=
  let (ok, s) := s.streamsReady d.runs d.streams
  if !ok then s
  else
    let (xs, st, s) := s.readIndices d.runs d.index.key d.indexBytes d.count d.tableRows { d.acc u.part with served := false }
    k xs st ((xs.zipIdx.find? (fun x => x.1.2.2)).map (·.2)) s
/-- A transfer with an index list: what it reads from the list counts for its status and its first out-of-bound position (R102). -/
def State.indexedTransfer (s : State) (d : Desc) (u : Queue) (ms : List Move) (st0 : Status) (oob : Option Nat) (n : Nat) :
    State :=
  (s.modDesc d.q d.i (fun d => { d with oob, status := worse d.status st0 })).transfer d u.part ms n
/-- The moves of a GATHER with its index entries: a row of the table, or zeros for a skip, poisoned where the index was (R102). -/
def Desc.gatherMoves (d : Desc) (xs : List (Option Nat × Bool × Bool)) : List Move :=
  xs.zipIdx.map (fun x =>
    ((match x.1.1 with
      | some r => d.src.source (r * d.tablePitch)
      | none => .zero x.1.2.1), d.dst.target (x.2 * d.rowBytes), d.rowBytes))
/-- The rows that a SCATTER writes: table row and position. -/
def scatterRows (xs : List (Option Nat × Bool × Bool)) : List (Nat × Nat) := xs.zipIdx.filterMap (fun x => x.1.1.map (fun r => (r, x.2)))
/-- The moves of a SCATTER with its index entries: of two positions that name one row, the later one's data stays (R102). -/
def Desc.scatterMoves (d : Desc) (xs : List (Option Nat × Bool × Bool)) : List Move :=
  let rows := scatterRows xs
  (rows.filter (fun x => !rows.any (fun y => y.1 == x.1 && x.2 < y.2))).map (fun x =>
    (d.src.source (x.2 * d.rowBytes), d.dst.target (x.1 * d.tablePitch), d.rowBytes))
/-- GATHER (R102). `RESULT` counts the rows written as zeros for skips among the bytes moved (DESIGN CHOICE, log 84). -/
def execGather (q i : Nat) (s : State) : Host.Outcome State Fault Refusal :=
  settled (s.onStarted q i 4 (fun d u s => s.indexed d u (fun xs st oob s =>
    s.indexedTransfer d u (d.gatherMoves xs) st oob (d.count * d.rowBytes))))
/-- SCATTER (R102). Of two positions that name one row, `RESULT` counts both among the bytes moved (DESIGN CHOICE, log 84). -/
def execScatter (q i : Nat) (s : State) : Host.Outcome State Fault Refusal :=
  settled (s.onStarted q i 5 (fun d u s => s.indexed d u (fun xs st oob s =>
    s.indexedTransfer d u (d.scatterMoves xs) st oob ((scatterRows xs).length * d.rowBytes))))

/-! Stopping a started descriptor (R50, R322). -/

/-- The moves of a transfer; an index list is read. -/
def State.movesNow (s : State) (d : Desc) (u : Queue) : List Move × State :=
  if d.typ = 4 || d.typ = 5 then
    let (xs, _, s) := s.readIndices d.runs d.index.key d.indexBytes d.count d.tableRows { d.acc u.part with served := false }
    (if d.typ = 4 then d.gatherMoves xs else d.scatterMoves xs, s)
  else if d.typ = 6 then ([(.pattern d.pattern, d.dst.target 0, d.length)], s)
  else (d.moveList, s)
/-- Whether no copy and no hold is in the way of local ranges. -/
def State.keysClear (s : State) (rs : List Run) (rd wr : List (Nat × Nat)) : Bool :=
  rd.all (fun x => (s.keyGrans rs x.1 x.2).all (fun g => s.clear g.1 false))
  && wr.all (fun x => (s.keyGrans rs x.1 x.2).all (fun g => s.clear g.1 true) && !s.keyHeld rs x.1 x.2)
/-- What a segment has moved when it is stopped: a freely chosen number of 4 KiB steps of it, none where a copy or a hold is still in
the way (DESIGN CHOICE, log 88). -/
def State.stopSegment (s : State) (d : Desc) (part : Nat) (ms : List Move) (x : SegRun) : State :=
  let ms := sliceMoves ms (x.seg * segBytes) segBytes
  let (v, s) := s.draw
  let ms := sliceMoves ms 0 (v % (cdiv (moveBytes ms) 4096 + 1) * 4096)
  let (rd, wr) := moveKeys ms
  if !s.keysClear d.runs rd wr then s
  else
    let s := if x.asked then s else s.requestKeys d part rd
    let (_, _, s) := s.moveAll d part ms
    s.modDesc d.q d.i (fun e => { e with acked := e.acked + localBytes ms })
/-- A started descriptor stops at its next 4 KiB boundary and ends with a status and `PARTIAL`; the bytes already written stay written
(R50, R322). A segment stops where a free value puts it; an operator or a contribution that has not issued its work has written
nothing (DESIGN CHOICE, log 88). -/
def State.stopDesc (s : State) (d : Desc) (st : Status) : State :=
  let s := match s.queue? d.q with
    | some u =>
      if d.transfers && !d.moved then
        let (ms, s) := s.movesNow d u
        let open_ : List SegRun := d.segRuns.filter (fun x => !x.landed)
        open_.foldl (fun (s : State) x => s.stopSegment d u.part ms x) s
      else s
    | none => s
  s.endDesc d.q d.i st true

/-- The descriptors that a FENCE of a scope waits for (R106). -/
def State.fenced (s : State) (d : Desc) (u : Queue) (ctx : Bool) : List Desc :=
  s.descs.filter (fun x => x.order < d.order
    && (x.q == d.q || (ctx && (s.queue? x.q).any (fun v => v.ctx == u.ctx))) && !x.waits)
/-- FENCE (R106, R107). -/
def execFence (q i : Nat) (s : State) : Host.Outcome State Fault Refusal :=
  settled (s.onStarted q i 8 (fun d u s =>
    let ctx := d.f 351 351 == 1
    if !(s.fenced d u ctx).isEmpty then s
    else if ctx then
      (s.issued d .ok (((s.ctx? u.ctx).map (·.fails)).getD 0)).modCtx u.ctx (fun c => { c with fails := 0 })
    else (s.issued d .ok u.fails).modQueue q (fun u => { u with fails := 0 })))
/-- EVENT (R106, Table 18-8). -/
def execEvent (q i : Nat) (s : State) : Host.Outcome State Fault Refusal :=
  settled (s.onStarted q i 9 (fun d u s =>
    if !(s.fenced d u false).isEmpty then s
    else (s.issued d .ok 0).postEq (d.f 351 340) { typ := 2, obj := q, body := d.f 339 276, ctx := some d.tag }))
/-- NOP (R106). -/
def execNop (q i : Nat) (s : State) : Host.Outcome State Fault Refusal :=
  settled (match s.desc? q (BitVec.ofNat 32 i) with
    | some d =>
      if d.typ == 13 && d.phase == .ready && !(d.orderAfter && s.earlier d) then
        s.modDesc q d.i (fun d => { d with phase := .finished })
      else s
    | none => s)
/-- A segment ends: its engine is free, one segment fewer is open (R112). -/
def State.segEnded (s : State) (d : Desc) (x : SegRun) : State :=
  (s.updEngine x.engine (fun g => { g with job := none })).modDesc d.q d.i (fun d => { d with
    segs := d.segs - 1, segRuns := d.segRuns.erase x, engine := (d.segRuns.erase x).head?.map (·.engine) })
/-- The descriptor's next segment, if it has one, goes to an engine that may take it (R112). -/
def State.nextSegment (s : State) (d : Desc) (part e : Nat) : State :=
  if d.nextSeg < d.segTotal && (s.takers d part).contains e then s.giveSegment d part e else s
/-- SEGMENT_DONE (R112): the engine of the oldest segment that has moved is done with it, and takes the next segment if it may. -/
def execSegmentDone (q i : Nat) (s : State) : Host.Outcome State Fault Refusal :=
  let i := BitVec.ofNat 32 i
  settled (match s.desc? q i, s.queue? q with
    | some d, some u =>
      match d.segRuns.find? (·.landed) with
      | some x =>
        if d.phase == .started && d.segs != 0 && !s.descQueued q i then
          ((s.segEnded d x).nextSegment d u.part x.engine).finishIf q i
        else s
      | none => s
    | _, _ => s)

/-! Answers to the controller's own requests. -/

/-- The request that a response answers (R229): the message with its tag towards its source. -/
def State.ownOf (s : State) (h : Hdr) : Option OwnMsg := s.net.own.find? (fun o => o.node == h.srcNode && o.tag == h.tag)
/-- A request of the controller's own has its answer: its tag is free, its flow has one request fewer (R227, R229). -/
def State.dropOwn (s : State) (o : OwnMsg) : State := s.closeOwn (fun x => x == o)
/-- The descriptor and the outstanding message that an answered request belongs to. -/
def State.outOf (s : State) (o : OwnMsg) : Option (Desc × OutMsg) :=
  o.desc.bind (fun x => (s.desc? x.1 x.2).bind (fun d => (d.out.find? (fun m => m.tag == o.tag)).map (fun m => (d, m))))
/-- A message of a descriptor is answered with a status: what it carried is acknowledged, or the descriptor ends (R103, R129). -/
def State.outDone (s : State) (d : Desc) (m : OutMsg) (st : Status) : State :=
  if st.good then
    (s.modDesc d.q d.i (fun d => { d with
      out := d.out.erase m
      acked := if m.store = 0 then d.acked + m.n else d.acked
      acked1 := if m.store = 0 then d.acked1 else d.acked1 + m.n
      result := if d.typ = 7 then
          (if m.store = 0 then d.acked1 * 2 ^ 32 + (d.acked + m.n) else (d.acked1 + m.n) * 2 ^ 32 + d.acked)
        else d.result })).finishIf d.q d.i
  else s.endDesc d.q d.i st true
/-- CMP (R103, R229): it completes the controller's request with its tag, whatever that asked; a snoop that it refuses is sent
again. -/
def execCmp (p : Nat) (h : Hdr) (status result : Nat) (s : State) : Host.Outcome State Fault Refusal :=
  settled (s.arrive p h (fun s =>
    let _ := result
    let s := s.consume p h
    let st := Status.ofCode status
    match s.ownOf h with
    | none => if s.staleTag h.ctxTag then s.countOld h else s
    | some o =>
      let s := s.dropOwn o
      let s := if st == .staleIncarnation then s.learn h.srcNode h.incClaim else s
      if o.snoop.isSome then (if st.good then s else s.resnoop o)
      else
        match s.outOf o with
        | none => s
        | some (d, m) => s.outDone d m st))
/-- Whether the local bytes of arriving read data can be written now; a COLL_CONTRIB keeps them in its engine. -/
def State.landing (s : State) (d : Desc) (loc n : Nat) : Bool × State :=
  if d.typ = 12 then (true, s) else s.keysReady d.runs [] [(loc, n)]
/-- RD_DATA (R103, R229, R266): poisoned and lost data is moved like any other. -/
def execRdData (p : Nat) (h : Hdr) (status : Nat) (data : List Byte) (s : State) : Host.Outcome State Fault Refusal :=
  settled (s.arrive p h (fun s =>
    match (s.ownOf h).filter (fun o => o.opcode == 0x02) with
    | none => if s.staleTag h.ctxTag then (s.consume p h).countOld h else s.consume p h
    | some o =>
      match s.outOf o with
      | none => (s.consume p h).dropOwn o
      | some (d, m) =>
        let st := Status.ofCode status
        if !st.good && st != .poison && st != .lineLost then ((s.consume p h).dropOwn o).outDone d m st
        else
          let loc := m.loc + (h.addr - m.addr)
          let (ok, s) := s.landing d loc data.length
          if !ok then s
          else
            let s := s.consume p h
            let bs := data.map (fun b => (b, h.poison))
            let (st', s) := if d.typ = 12 then (Status.ok, s.modDesc d.q d.i (fun d => { d with buf := d.buf ++ [(loc, bs)] }))
              else s.writeKey d.runs loc bs (d.acc (((s.queue? d.q).map (·.part)).getD 64))
            let all := m.left ≤ data.length
            let s := if all then s.dropOwn o else s
            let pz := if h.poison then Status.poison else .ok
            (s.modDesc d.q d.i (fun d => { d with
              out := if all then d.out.erase m
                else d.out.map (fun x => if x = m then { x with left := x.left - data.length } else x)
              acked := d.acked + data.length
              status := worse d.status (worse st' (worse (if st.good then .ok else st) pz)) })).finishIf d.q d.i))

end Sys2Proof.Machine
end

