-- ==== Sys2Proof/Machine/Faults.lean ====
section
/-! DEFINITION. Fault entries: windows, timeouts, resolution (R45 to R48). -/

namespace Sys2Proof.Machine

/-- The open entry in a slot of a hub. -/
def State.faultAt (s : State) (hub slot : Nat) : Option FaultEntry :=
  s.faults.entries.find? (fun e => e.hub == hub && e.slot == slot)
/-- The open entry that a `FAULT_ID` names. -/
def State.faultOf (s : State) (fid : Nat) : Option FaultEntry := s.faults.entries.find? (fun e => e.id == fid)
/-- Closes an entry: its record is written if it was not, and every waiter is retried or completed (R45 to R47). -/
def State.closeEntry (s : State) (e : FaultEntry) (retry : Bool) (st : Status) : State :=
  let s := if e.written then s else s.writeFault e
  let s := s.updFaults (fun f => { f with entries := f.entries.filter (fun x => !(x.hub == e.hub && x.slot == e.slot)) })
  e.waiters.foldl (fun s w => s.unstall retry st w) s
/-- The partition of an entry's context. -/
def State.faultPart (s : State) (e : FaultEntry) : Option Nat := s.ctxPart (tagNum e.tag)
/-- RESOLVE_FAULT (R46): action 0 RETRY, 1 ABORT. -/
def execResolveFault (m fid action : Nat) (s : State) : Host.Outcome State Fault Refusal :=
  settled (match s.faultOf fid with
    | none => s.command m {} [bad true 0] id
    | some e => s.command m { own := [s.faultPart e] } [bad (1 < action) 4]
        (fun s => (s.closeEntry e (action == 0) .faultAborted).respond m (okBody [(2, sat 16 e.waiters.length)])))
/-- FAULT_QUERY (R45): the record as it stands now, the waiters and the dropped reports. -/
def execFaultQuery (m fid : Nat) (s : State) : Host.Outcome State Fault Refusal :=
  settled (match s.faultOf fid with
    | none => s.command m { query := true } [bad true 0] id
    | some e => s.command m { own := [s.faultPart e], query := true } []
        (fun s =>
          let ev := faultEv e.id e.tag e.page e.cause e.level e.access true false e.handle e.source e.waiters.length
          s.respond m (okBody [(32, (ev.record s.clock.base false).toNat), (4, e.waiters.length), (4, e.dropped)])))
/-- FAULT_WINDOW_EXPIRY (R45). -/
def execFaultWindowExpiry (hub slot : Nat) (s : State) : Host.Outcome State Fault Refusal :=
  settled (match s.faultAt hub slot with
    | some e => if e.written then s else s.writeFault e
    | none => s)
/-- FAULT_TIMEOUT (R47). -/
def execFaultTimeout (hub slot : Nat) (s : State) : Host.Outcome State Fault Refusal :=
  settled (match s.faultAt hub slot with
    | some e => s.closeEntry e false .faultAborted
    | none => s)
/-- FAULT_ENTRY_TAKE (R48): the oldest fault that waits on the hub. -/
def execFaultEntryTake (hub : Nat) (s : State) : Host.Outcome State Fault Refusal :=
  settled (match s.faults.waiting.find? (fun e => e.hub == hub) with
    | none => s
    | some e =>
      if s.faults.entries.any (fun x => x.tag == e.tag && x.page == e.page && x.handle == e.handle)
          || (s.faults.entries.filter (fun x => x.hub == hub)).length < 1024 then
        let s := s.updFaults (fun f => { f with waiting := f.waiting.erase e })
        match e.waiters with
        | w :: _ => s.stallFault e.tag { page := e.page, handle := e.handle, cause := e.cause, level := e.level,
                                         access := e.access } w.1 w.2
        | [] => s
      else s)

end Sys2Proof.Machine
end

