-- ==== Sys2Proof/Machine/Regions.lean ====
section
/-! DEFINITION. Regions, zeroing, publication, and migration (R15 to R28, R54 to R56, R89, R309, R338). -/

namespace Sys2Proof.Machine

/-- Whether this controller is a standby, on which commands on mirrored objects are refused (R338). -/
def State.standby (s : State) : Bool := s.mirror.role == .standby || s.mirror.role == .standbySync
/-- Whether the pair is ACTIVE here and STANDBY at the partner (R337, R338). -/
def State.pairWhole (s : State) : Bool := s.mirror.role == .active && s.mirror.partnerRole == 3
/-- The regions of a partition. -/
def State.regionsOf (s : State) (p : Nat) : List (Nat × Region) := s.regions.filter (fun r => r.2.part == p)
end Sys2Proof.Machine

namespace Sys2Proof
/-- The placement that a `REGION_CREATE` asks for. -/
def RegionReq.pl (r : RegionReq) : Machine.Placement :=
  { tier := r.tier, stkMask := r.stkMask, qtrMask := r.qtrMask, dcMask := r.dcMask, grain := r.grain, xorHash := r.xorHash == 1 }
end Sys2Proof

namespace Sys2Proof.Machine

/-- The size granted to an all-ones request (R19). -/
def State.largest (s : State) (p : Nat) (pl : Placement) : Nat :=
  let ms := s.members pl
  let m := ms.length
  let share := (ms.map s.freeCount).foldl min (ms.head?.map s.freeCount |>.getD 0)
  let room := (s.part? p).elim 0 (fun q =>
    if pl.tier = 0 then q.hotQuota - cdiv (s.hotUse p) 65536 else q.capQuota - s.capUse p)
  min (share * m) (room / m * m)
/-- A new region record (Table 01-3). -/
def State.newRegion (s : State) (r : RegionReq) (ext size : Nat) : Region :=
  { version := BitVec.ofNat 64 r.version, extent := ext, size, pl := r.pl, policy := r.policy, mirror := r.mirror == 1,
    part := r.part, createTime := s.clock.base }
/-- REGION_CREATE (R17 to R19, R282, R293, R338, R430). -/
def execRegionCreate (m : Nat) (r : RegionReq) (s : State) : Host.Outcome State Fault Refusal :=
  let pl := r.pl
  settled (s.command m { need := 1 }
    [chk ((s.part? r.part).any (fun p => p.regionQuota == 0)) .noResource,
     chk (s.placeAbsent pl || (r.mirror == 1 && !s.variant.mirror)) .absentUnit,
     bad (63 < r.part) 0, bad (2 ≤ r.tier) 1, bad (2 < r.policy) 2, bad (1 < r.mirror || (r.mirror == 1 && r.policy != 1)) 3,
     bad pl.bad 4, bad (3 < r.grain) 10, bad (1 < r.xorHash) 11, bad (0xFFFFFFF < r.size) 12, bad (s.strictBad r.part pl) 4,
     chk (m != 0 && m != r.part + 1) .notPermitted, chk (r.mirror == 1 && s.standby) .notPermitted,
     chk (s.part? r.part).isNone .busy, chk (r.mirror == 1 && !s.pairWhole) .busy]
    (fun s =>
      let size := if r.size = 0xFFFFFFF then s.largest r.part pl else r.size
      let quota := (s.part? r.part).any (fun p => (s.regionsOf r.part).length < p.regionQuota)
      let (v, s1) := s.draw
      let ext := if size = 0 then some (0, s1)
        else if s1.extentFits r.part pl size then s1.newExtent pl size r.part else none
      match firstFree s1.regions.has 1 1048576 v, ext with
      | some rid, some (e, s2) =>
        if !quota || (r.size = 0xFFFFFFF && size = 0) then s.respond m { status := .noResource }
        else
          let reg := s2.newRegion r e size
          { s2 with regions := s2.regions.put rid reg }.respond m (okBody [(64, reg.record rid)])
      | _, _ => s.respond m { status := .noResource }))
/-- REGION_QUERY (R15). -/
def execRegionQuery (m rid : Nat) (s : State) : Host.Outcome State Fault Refusal :=
  settled (match s.region? rid with
    | none => s.command m { query := true } [bad true 0] id
    | some r => s.command m { own := [some r.part], query := true } [] (fun s => s.respond m (okBody [(64, r.record rid)])))
/-- Whether a region holds a ring of a queue, BLOCKED ones after a warm reset among them, or of an event queue (R89, R309). -/
def State.holdsRing (s : State) (rid : Nat) : Bool :=
  s.queues.any (fun q => q.2.rings.contains rid) || s.eqs.any (fun e => e.2.ring / 2 ^ 44 == rid)
/-- Whether a boot service sends from a region (R363). -/
def State.served (s : State) (rid : Nat) : Bool :=
  s.fw.serves.any (fun v => v.2.live && v.2.req.handle / 2 ^ 44 == rid)
/-- Removes a region record. -/
def State.dropRegion (s : State) (rid : Nat) : State := { s with regions := s.regions.del rid }
/-- REGION_DESTROY (R21, R56, R89, R309, R363): with `ZEROING` 0 it completes at once. One of a region that is being destroyed
already completes `ST_BUSY` (DESIGN CHOICE, log 87: R21 names no status for it). -/
def execRegionDestroy (m rid : Nat) (s : State) : Host.Outcome State Fault Refusal :=
  settled (match s.region? rid with
    | none => s.command m {} [bad true 0] id
    | some r => s.command m { own := [some r.part] }
      [chk (r.mirror && s.standby) .notPermitted,
       chk (r.st == 2 || r.mapCount != 0 || s.inPub rid || s.holdsRing rid || r.mig.isSome || s.served rid) .busy]
      (fun s =>
        let waits := (s.part? r.part).any (fun p => p.zeroing != 0)
        let s := s.modRegion rid (fun r => { r with st := 2, destroyMb := if waits then some m else none })
        if waits then s else s.respond m okResp))
/-- Whether a write of a region is held (R432). -/
def State.heldOn (s : State) (rid : Nat) : Bool := s.coh.held.any (fun r => r.region == rid)
/-- Whether chunks of a destroyed region are still to be zeroed (R21 step 4). -/
def State.zeroingOf (s : State) (rid : Nat) : Bool := s.chunks.any (fun c => c.2 = .zeroing rid)
/-- REGION_DRAIN_DONE (R21): the chunks go to zeroing; the id is free at once unless the destroy waits for them. -/
def execRegionDrainDone (rid : Nat) (s : State) : Host.Outcome State Fault Refusal :=
  settled (match s.region? rid with
    | none => s
    | some r =>
      if r.st != 2 || s.extentUsed r.extent || s.heldOn rid || s.zeroingOf rid then s
      else
        let waits := (s.part? r.part).any (fun p => p.zeroing != 0)
        let s := s.freeExtent r.extent (if waits then rid else 0)
        if waits && r.extent != 0 then s.modRegion rid (fun r => { r with extent := 0 })
        else (s.dropRegion rid).respond? r.destroyMb okResp)
/-- Bytes of a chunk set to zero with clear metadata; nothing of it stays in a buffer (R20, R263). -/
def State.zeroChunk (s : State) (c : Nat) : State :=
  let mine := fun (sec : Nat) => sec / 65536 == c
  let clear : Tab SectorMeta :=
    if s.allPoison (c * 65536) then (List.range 1024).map (fun i => (c * 65536 + 64 * i, {})) else []
  let s := s.updCoh (fun x => { x with atomicUnit := x.atomicUnit.filter (fun l => !mine (l.gran * 128)) })
  (s.updPool (fun p => { p with
    mem := p.mem.clear (c * 65536) 65536
    smeta := clear.foldl (fun t x => t.put x.1 x.2) (p.smeta.filter (fun x => !mine x.1))
    kettle := p.kettle.filter (fun e => !mine e.sector)
    tier := p.tier.filter (fun l => !mine (l.line * 1024))
    units := p.units.map (fun u => (u.1, { u.2 with wq := u.2.wq.filter (fun e => !mine e.sector) })) })).fireFlip
      ((s.unitOf (c * 65536)).getD 0xFFFF) (c * 65536) none
/-- The granules of a chunk that the directory lists: (granule, region, region offset). -/
def State.chunkCopies (s : State) (c : Nat) : List (Nat × Nat × Nat) :=
  (s.coh.dir.filter (fun e => e.gran / 512 == c)).map (fun e => (e.gran, e.region, e.roff))
/-- CHUNK_ZEROED (R20, R21). -/
def execChunkZeroed (chunk : Nat) (s : State) : Host.Outcome State Fault Refusal :=
  settled (match s.chunks.at? chunk with
    | some (.zeroing rid) =>
      if (s.unitOf (chunk * 65536)).any (fun u => (s.unit u).frozen.isSome) then s
      else
        let (ok, s) := s.recallAll (s.chunkCopies chunk) true
        if !ok then s
        else
          let s := s.zeroChunk chunk
          let s := { s with chunks := s.chunks.del chunk }
          if rid = 0 || s.zeroingOf rid then s
          else
            match s.region? rid with
            | some r => (s.dropRegion rid).respond? r.destroyMb okResp
            | none => s
    | _ => s)

/-! Publication (R25 to R28). -/

/-- REGION_PUBLISH (R25). -/
def execRegionPublish (m target staging v w : Nat) (s : State) : Host.Outcome State Fault Refusal :=
  settled (s.command m {} [chk (s.standby && ((s.region? target).any (·.mirror) || (s.region? staging).any (·.mirror))) .notPermitted]
    (fun s => { s with pubs := s.pubs ++ [{ target, staging, v := BitVec.ofNat 64 v, w := BitVec.ofNat 64 w, asker := .mailbox m }] }))
/-- PUBLISH (R25): the payload's two pool handles name the regions. -/
def execPublish (p : Nat) (h : Hdr) (target staging v w : Nat) (s : State) : Host.Outcome State Fault Refusal :=
  settled (s.atHome p h (fun _ s =>
    let s := s.consume p h
    { s with pubs := s.pubs ++ [{ target := target / 2 ^ 44, staging := staging / 2 ^ 44, v := BitVec.ofNat 64 v,
                                  w := BitVec.ofNat 64 w, asker := .fabric p h }] }))
/-- The answer of a publication: status and the target's version. -/
def State.pubAnswer (s : State) (b : Pub) (st : Status) : State :=
  let ver := ((s.region? b.target).map (fun r => r.version.toNat)).getD 0
  match b.asker with
  | .mailbox m =>
    if st == .ok || st == .conflictVersion then s.respond m { status := st, body := [(8, ver)] }
    else s.respond m { status := st, failOff := if st == .badArg then 0x20 else 0xFFFF }
  | .fabric p h => s.cmp p 65 h st (if st == .ok || st == .conflictVersion then ver else 0)
      (if st == .staleClaim then some s.mirror.highest else s.claimOf b.target h.ctxTag)
/-- Ends a publication. -/
def State.endPub (s : State) (b : Pub) (st : Status) : State :=
  let s := s.pubAnswer b st
  { s with pubs := s.pubs.erase b }
/-- The partition that may publish for an asker; none for any. -/
def State.pubPart (s : State) : Asker → Option Nat
  | .mailbox m => if m = 0 then none else some (m - 1)
  | .fabric _ h => some ((s.ctxPart (tagNum h.ctxTag)).getD 64)
/-- The checks of R26. -/
def State.pubCheck (s : State) (b : Pub) : Status :=
  match s.region? b.target, s.region? b.staging with
  | some t, some g =>
    if t.st != 1 || g.st != 1 || (s.pubPart b.asker).any (fun p => t.part != p || g.part != p) then .notPermitted
    else if b.w.toNat ≤ b.v.toNat || b.target = b.staging || t.part != g.part || t.size != g.size || t.pl != g.pl
        || t.policy != g.policy || t.mirror != g.mirror then .badArg
    else if t.mig.isSome || g.mig.isSome || s.holdsRing b.target || s.holdsRing b.staging then .busy
    else if t.version != b.v then .conflictVersion
    else .ok
  | _, _ => .notPermitted
/-- PUBLICATION_HEAD (R25, R26). A publication also waits while one of another target that is at its head shares one of its two
regions (DESIGN CHOICE, log 87: R25 gives an order for each target only). -/
def execPublicationHead (target : Nat) (s : State) : Host.Outcome State Fault Refusal :=
  settled (match s.pubs.find? (fun b => b.target == target) with
    | none => s
    | some b =>
      let share := fun (x : Pub) => x.target == b.target || x.staging == b.target || x.target == b.staging || x.staging == b.staging
      if b.headed || s.pubs.any (fun x => x.headed && share x) then s
      else if s.pubCheck b = .ok then
        { s with pubs := s.pubs.map (fun x =>
            if x = b then { x with headed := true, headDesc := s.descOrder, headReq := s.coh.nextJoin } else x) }
      else s.endPub b (s.pubCheck b))
/-- Every stream of a descriptor, the block's and the list's own included (R37, R118, R144). -/
def Desc.allStreams (d : Desc) : List Stream :=
  if d.typ = 7 then
    let o : Ocb := ⟨d.ocb⟩
    if d.stock = 0 then o.streams d.shape else o.stockStreams d.stock d.shape d.inputs
  else d.streams
/-- Whether a descriptor writes bytes of an extent through its runs. -/
def Desc.writesExtent (d : Desc) (ext : Nat) : Bool :=
  (d.allStreams.filter (fun x => x.acc == 1)).any (fun x => x.ranges.any (fun r =>
    (pagePieces d.runs (x.base + r.1) r.2).any (fun y => y.2.1.any (fun z => z.region != 0 && z.extent == ext))))
/-- Whether a request writes a region and came before the request numbered `ord`. -/
def HomeReq.writes (r : HomeReq) (rid ord : Nat) : Bool :=
  (r.op.slotKind == 1 || r.op.slotKind == 2) && r.region == rid && decide (r.ord < ord)
/-- Whether every write to a publication's staging region that the home had accepted before the publication reached its head is in
memory, with every write of the descriptors whose runs had resolved the staging extent by then, and of nothing else (R25, R429). -/
def State.pubDrained (s : State) (b : Pub) (ext : Nat) : Bool :=
  let old := fun (r : HomeReq) => r.writes b.staging b.headReq
  !s.coh.txns.any (fun t => !t.offered && old t.req) && !s.coh.waiting.any old && !s.coh.held.any old
  && !s.coh.joins.any (fun j => decide (j.1 < b.headReq) && j.2.regions.contains b.staging
      && s.queuedFor (fun e => e.write && e.join == j.1))
  && !s.descs.any (fun d => decide (d.order < b.headDesc) && !d.waits && d.writesExtent ext)
/-- The granules of a publication's regions of which copies may exist: those that the directory lists, and those of which a copy is
about to be granted (log 87). -/
def State.pubCopies (s : State) (b : Pub) : List (Nat × Nat × Nat) :=
  let on := fun (r : Nat) => r == b.target || r == b.staging
  let grants := fun (r : HomeReq) => (r.op = .rdShared || r.op = .rdOwn || r.op = .upgrade) && on r.region
  let open_ := (s.coh.txns.map (·.req) ++ s.coh.waiting).filter grants
  (s.coh.dir.filter (fun e => on e.region)).map (fun e => (e.gran, e.region, e.roff))
    ++ open_.map (fun r => (r.ppa / 128, r.region, r.roff / 128 * 128))
/-- Exchanges the extents and sets the versions and the hold (R25, R27). -/
def State.pubSwap (s : State) (b : Pub) (t g : Region) : State :=
  (s.modRegion b.target (fun r => { r with extent := g.extent, version := b.w })).modRegion b.staging (fun r =>
    { r with extent := t.extent, version := b.v, writeHold := true, holdExt := t.extent, holdDesc := s.descOrder,
             holdReq := s.coh.nextJoin })
/-- Forwards a publication to the standby (R341). -/
def State.pubForward (s : State) (b : Pub) : State :=
  let (k, s) := s.newTag s.mirror.partner
  let s := { s with mirror := { s.mirror with forwards := s.mirror.forwards ++ [({ tag := k, join := 0, pub := b.target } : Forward)] } }
  s.pairSend (b.target * 2 ^ 44) 0x76 k (.mirFwd true)
    (leBytes 8 (b.target * 2 ^ 44) ++ leBytes 8 (b.staging * 2 ^ 44) ++ leBytes 8 b.v.toNat ++ leBytes 8 b.w.toNat) false
/-- Whether a swap goes to the partner: its standby, or both regions lie below the resynchronisation cursor (R341, R349). -/
def State.pubPaired (s : State) (b : Pub) (t : Region) : Bool :=
  t.mirror && (s.mirror.role == .active && !s.mirror.syncing
    || s.mirror.syncing && b.target < s.mirror.curRegion && b.staging < s.mirror.curRegion)
/-- A swap that does not go to the partner during a resynchronisation: the copy carries both regions, so the cursor goes back to
the lower one (R349, log 17). -/
def State.pubRewind (s : State) (b : Pub) (t : Region) : State :=
  let lo := min b.target b.staging
  if t.mirror && s.mirror.syncing && lo ≤ s.mirror.curRegion then
    { s with mirror := { s.mirror with curRegion := lo, curOff := 0 } }
  else s
/-- PUBLICATION_SWAP (R25, R27, R28, R341). -/
def execPublicationSwap (target : Nat) (s : State) : Host.Outcome State Fault Refusal :=
  settled (match s.pubs.find? (fun b => b.target == target && b.headed && !b.swapped) with
    | none => s
    | some b =>
      match s.region? b.target, s.region? b.staging with
      | some t, some g =>
        if !s.pubDrained b g.extent || (s.pubPaired b t && !s.tagsFree s.mirror.partner 1) then s
        else
          let (ok, s) := s.recallAll (s.pubCopies b) true
          if !ok then s
          else
            let s := s.pubSwap b t g
            if s.pubPaired b t then
              ({ s with pubs := s.pubs.map (fun x => if x = b then { x with swapped := true } else x) }).pubForward b
            else (s.pubRewind b t).endPub b .ok
      | _, _ => s)
/-- Whether a request, a descriptor or a boot service that had resolved a region's old extent before its hold is still under way
(R27). -/
def State.holdUsed (s : State) (r : Region) : Bool :=
  let old := fun (x : HomeReq) => x.ext == r.holdExt && decide (x.ord < r.holdReq)
  r.holdExt != 0 &&
  (s.coh.txns.any (fun t => old t.req) || s.coh.waiting.any old
  || s.coh.joins.any (fun j => decide (j.1 < r.holdReq) && (j.2.kind == 1 || j.2.kind == 2) && j.2.ext == r.holdExt)
  || s.descs.any (fun d => decide (d.order < r.holdDesc) && d.runs.any (fun x => x.extent == r.holdExt))
  || s.fw.serves.any (fun v => v.2.live && decide (v.2.order < r.holdDesc) && v.2.extent == r.holdExt))
/-- WRITE_HOLD_CLEAR (R27). -/
def execWriteHoldClear (rid : Nat) (s : State) : Host.Outcome State Fault Refusal :=
  settled (match s.region? rid with
    | some r => if r.writeHold && !s.holdUsed r then
        s.modRegion rid (fun r => { r with writeHold := false, holdExt := 0, holdDesc := 0, holdReq := 0 }) else s
    | none => s)

/-! Migration (R54 to R56). -/

/-- What decides a MIGRATE that has passed admission (R54): a status, or none when it proceeds. -/
def State.migCheck (s : State) (d : Desc) (part : Nat) : Option Status :=
  let pl := d.placement
  match s.region? d.migRegion with
  | none => some .notPermitted
  | some r =>
    if r.size = 0 && r.part != part then some .notPermitted
    else if s.placeAbsent pl then some .absentUnit
    else if r.mirror || pl.bad || s.strictBad r.part pl then some .badArg
    else if r.mig.isSome || s.inPub d.migRegion || r.writeHold || r.st != 1 then some .busy
    else if r.size = 0 then some .okEmpty
    else if r.pl = pl then some .ok
    else none
/-- MIGRATE (R54, R55). -/
def execMigrate (q i : Nat) (s : State) : Host.Outcome State Fault Refusal :=
  settled (s.onStarted q i 11 (fun d u s =>
    let rid := d.migRegion
    match s.migCheck d u.part with
    | some st =>
      let s := if st == .okEmpty then s.modRegion rid (fun r => { r with
          pl := d.placement, degraded := s.regionBad { r with pl := d.placement } }) else s
      s.issued d st 0
    | none =>
      match s.region? rid with
      | none => s.issued d .notPermitted 0
      | some r =>
        let ext := if s.extentFits r.part d.placement r.size then s.newExtent d.placement r.size r.part else none
        match ext with
        | none => s.issued d .noResource 0
        | some (e, s) => s.modRegion rid (fun r => { r with mig := some { pl := d.placement, ext := e, q, i } })))
/-- Copies one 64 B sector of a region between extents; poison travels (R55). -/
def State.copySector (s : State) (src dst : Nat) (a : Acc) : State :=
  let (bs, _, s) := s.readBytes src 64 a
  (s.writeBytes dst bs a).2
/-- The end of a migration: the region's placement and extent change in one step (R56). `DEGRADED` says whether a member of the new
channel set is absent or frozen, holds an absent stack id or a fenced bank of the region (DESIGN CHOICE, log 58). -/
def State.migEnd (s : State) (rid : Nat) (r : Region) (g : Migration) : State :=
  let s := s.modRegion rid (fun r => { r with
    extent := g.ext, pl := g.pl, mig := none, degraded := s.regionBad { r with extent := g.ext, pl := g.pl } })
  let s := { s with extents := s.extents.mod r.extent (fun e => { e with movedTo := g.ext }) }
  let s := match s.desc? g.q (BitVec.ofNat 32 g.i) with
    | some d => if d.typ == 11 && d.phase == Phase.started && d.migRegion == rid then s.issued d .ok (r.size * 65536) else s
    | none => s
  s.sweepExts
/-- Copies the chunk at region offset `off` of a migrating region into the new extent, sector by sector (R54, R55). -/
def State.migChunk (s : State) (rid : Nat) (r : Region) (x : Extent) (off : Nat) : State :=
  (List.range 1024).foldl (fun s k =>
    match s.regionPpa rid r.extent (off + 64 * k) with
    | some src => s.copySector src (s.ppaIn x (off + 64 * k)) { cls := 0, part := r.part }
    | none => s) s
/-- MIGRATE_CHUNK_DONE (R55): the copies of the chunk are recalled and its open requests end first. -/
def execMigrateChunkDone (rid : Nat) (s : State) : Host.Outcome State Fault Refusal :=
  settled (match s.region? rid with
    | none => s
    | some r =>
      match r.mig, s.extents.at? (((r.mig.map (·.ext))).getD 0) with
      | some g, some x =>
        let off := g.cursor * 65536
        let (ok, s) := s.recallAll (s.granulesOf rid r.extent off 65536) true
        if !ok then s
        else
          let s := (s.migChunk rid r x off).modRegion rid (fun r => { r with mig := some { g with cursor := g.cursor + 1 } })
          if g.cursor + 1 < r.size then s else s.migEnd rid r { g with cursor := g.cursor + 1 }
      | _, _ => s)

end Sys2Proof.Machine
end

