-- ==== Sys2Proof/Machine/Mapping.lean ====
section
/-! DEFINITION. Mapping, unmapping, table reads, and tier advice (R30 to R36, R50 to R53). -/

namespace Sys2Proof.Machine

/-- Whether a context's tables may not be changed here: mirrored, on a standby (R338). -/
def State.ctxStandby (s : State) (tag : Nat) : Bool := s.standby && (s.ctxOfTag tag).any (·.mirror)
/-- Whether a page range holds a region leaf; an empty range holds no page (R33, R34). -/
def State.hasRegionLeaf (s : State) (c : Context) (cva len : Nat) : Bool :=
  len != 0 && (s.leavesIn c cva (cva + len)).any (fun x => !leafZero x.2.2)
/-- Whether a CVA range is not made of whole pages of the CVA space. -/
def rangeBad (cva len : Nat) : Bool := cva % 65536 != 0 || len % 65536 != 0 || 2 ^ 52 < cva + len
/-- REGION_MAP (R18, R31, R33, R36, R337). -/
def execRegionMap (m tag cva rid off len rd wr : Nat) (s : State) : Host.Outcome State Fault Refusal :=
  let c := (s.ctxOfTag tag).getD { part := 64 }
  let r := (s.region? rid).getD { version := 0, extent := 0, size := 0, pl := {}, policy := 0, mirror := false, part := 64 }
  settled (s.command m { own := [s.tagPart tag, (s.region? rid).map (·.part)] }
    [bad (s.ctxBad tag) 0, bad (rangeBad cva 0) 8, bad (s.region? rid).isNone 16, bad (off % 65536 != 0) 24,
     bad (len % 65536 != 0 || r.size * 65536 < off + len) 32, bad (2 ^ 52 < cva + len) 32,
     bad (s.hasRegionLeaf c cva len) 8, bad (1 < rd) 40, bad (1 < wr) 41, bad (c.mirror != r.mirror) 16,
     chk (r.part != c.part || s.ctxStandby tag) .notPermitted,
     chk (s.ctxTearing tag || r.st != 1) .busy]
    (fun s =>
      if len = 0 then s.respond m { status := .okEmpty }
      else
        match s.mapRange c (fun o => leafEntry rid o 0 (rd == 1) (wr == 1)) (len / 65536 + 1) cva off len with
        | none => s.respond m { status := .noResource }
        | some s' =>
          let s' := s'.uncache (tagNum tag) cva (cva + len)
          let s' := if s.maps c rid then s' else s'.modRegion rid (fun r => { r with mapCount := r.mapCount + 1 })
          s'.respond m okResp))
/-- The parts of `[lo, hi)` that no leaf covers. -/
def gaps (hi : Nat) : Nat → List (Nat × Nat × BitVec 64) → List (Nat × Nat)
  | lo, [] => if lo < hi then [(lo, hi)] else []
  | lo, x :: r => (if lo < x.1 then [(lo, x.1)] else []) ++ gaps hi (max lo (x.1 + lvlSpan x.2.1)) r
/-- MAP_ZERO (R34, R36): pages that hold a ZERO leaf stay as they are. -/
def execMapZero (m tag cva len : Nat) (s : State) : Host.Outcome State Fault Refusal :=
  let c := (s.ctxOfTag tag).getD { part := 64 }
  settled (s.command m { own := [s.tagPart tag] }
    [bad (s.ctxBad tag) 0, bad (cva % 65536 != 0) 8, bad (rangeBad cva len) 16, bad (s.hasRegionLeaf c cva len) 8,
     chk (s.ctxStandby tag) .notPermitted, chk (s.ctxTearing tag) .busy]
    (fun s =>
      if len = 0 then s.respond m { status := .okEmpty }
      else
        let r := (gaps (cva + len) cva (s.leavesIn c cva (cva + len))).foldl (fun (r : Option State) g =>
          match r with
          | none => none
          | some s => s.mapRange c (fun _ => zeroLeaf) ((g.2 - g.1) / 65536 + 1) g.1 g.1 (g.2 - g.1)) (some s)
        match r with
        | none => s.respond m { status := .noResource }
        | some s => (s.uncache (tagNum tag) cva (cva + len)).respond m okResp))

/-! Unmapping (R50, R51). -/

/-- Whether a descriptor has a run that covers a page of a CVA range. -/
def Desc.covers (d : Desc) (lo hi : Nat) : Bool := d.runs.any (fun r => r.cva < hi && lo < r.cva + r.len)
/-- The descriptors of a context that an unmap of a range waits for. -/
def State.covering (s : State) (ctx lo hi : Nat) : List Desc :=
  s.descs.filter (fun d => d.covers lo hi && (s.queue? d.q).any (fun q => q.ctx == ctx))
/-- Mode FAIL: each covering descriptor that has not finished ends (R50 step 2). -/
def State.failCovering (s : State) (ctx lo hi : Nat) : State :=
  (s.covering ctx lo hi).foldl (fun s d =>
    if d.phase == .finished then s
    else if d.phase == .started then s.stopDesc d .faultUnmapped
    else s.endDesc d.q d.i .faultUnmapped false) s
/-- Whether a home request of a context was translated in a CVA range. -/
def HomeReq.inCva (r : HomeReq) (ctx lo hi : Nat) : Bool :=
  tagNum r.tag == ctx && !r.op.own && r.hdr.addr + r.off < hi && lo < r.hdr.addr + r.off + r.len
/-- Whether fabric requests translated into a range are still under way (R50 step 3). -/
def State.fabricIn (s : State) (ctx lo hi : Nat) : Bool :=
  s.coh.txns.any (fun t => t.req.inCva ctx lo hi) || s.coh.waiting.any (fun r => r.inCva ctx lo hi)
  || s.coh.held.any (fun r => r.inCva ctx lo hi)
/-- Whether a ring of a queue of a context has a page in a range (R89). -/
def State.ringIn (s : State) (ctx lo hi : Nat) : Bool :=
  s.queues.any (fun q => q.2.ctx == ctx && ((q.2.ring / 65536 * 65536 < hi && lo < q.2.ring + 64 * 2 ^ q.2.log2)
    || (q.2.comp / 65536 * 65536 < hi && lo < q.2.comp + 16 * 2 ^ q.2.log2)))
/-- REGION_UNMAP (R50, R51, R89): mode 0 WAIT, 1 FAIL. -/
def execRegionUnmap (m tag cva len mode : Nat) (s : State) : Host.Outcome State Fault Refusal :=
  let c := (s.ctxOfTag tag).getD { part := 64 }
  let n := tagNum tag
  settled (s.command m { own := [s.tagPart tag] }
    [bad (s.ctxBad tag) 0, bad (cva % 65536 != 0) 8, bad (rangeBad cva len) 16, bad (1 < mode) 24,
     chk (s.ctxStandby tag) .notPermitted,
     chk (s.ctxTearing tag || (len != 0 && s.ringIn n cva (cva + len))) .busy]
    (fun s =>
      if (s.leavesIn c cva (cva + len)).isEmpty || len = 0 then
        (s.modCtx n (fun c => { c with unmaps := c.unmaps.filter (fun x =>
          !(x.mb.isNone && cva ≤ x.cva && x.cva + x.len ≤ cva + len)) })).respond m { status := .okEmpty }
      else
        let s := s.modCtx n (fun c => { c with unmaps := c.unmaps ++ [{ cva, len, fail := mode == 1, mb := some m }] })
        if mode = 1 then s.failCovering n cva (cva + len) else s))
/-- Steps 4 and 5 of R50 for a range; none when a split finds no table. -/
def State.unmapRange (s : State) (ctx : Nat) (c : Context) (cva len : Nat) : Option State :=
  let rids := (((s.leavesIn c cva (cva + len)).filter (fun x => !leafZero x.2.2)).map (fun x => leafRegion x.2.2)).dedup
  (s.clearRange c cva (cva + len)).map (fun s' =>
    rids.foldl (fun s r => if s.maps c r then s else s.modRegion r (fun g => { g with mapCount := g.mapCount - 1 }))
      (s'.uncache ctx cva (cva + len)))
/-- UNMAP_DRAIN_DONE (R50). -/
def execUnmapDrainDone (ctx cva : Nat) (s : State) : Host.Outcome State Fault Refusal :=
  settled (match s.ctx? ctx with
    | none => s
    | some c =>
      match c.unmaps.find? (fun u => u.cva == cva && u.mb.isSome) with
      | none => s
      | some u =>
        if !(s.covering ctx cva (cva + u.len)).isEmpty || s.fabricIn ctx cva (cva + u.len) then s
        else
          match s.unmapRange ctx c cva u.len with
          | none => (s.modCtx ctx (fun c => { c with unmaps := c.unmaps.map (fun x => if x = u then { x with mb := none } else x) })).respond?
              u.mb { status := .noResource }
          | some s => (s.modCtx ctx (fun c => { c with unmaps := c.unmaps.filter (fun x =>
                x != u && !(x.mb.isNone && cva ≤ x.cva && x.cva + x.len ≤ cva + u.len)) })).respond? u.mb okResp)
/-- UNMAP_WAIT_TIMEOUT (R51). -/
def execUnmapWaitTimeout (ctx cva : Nat) (s : State) : Host.Outcome State Fault Refusal :=
  settled (match (s.ctx? ctx).bind (fun c => c.unmaps.find? (fun u => u.cva == cva && u.mb.isSome && !u.fail)) with
    | none => s
    | some u =>
      (s.modCtx ctx (fun c => { c with unmaps := c.unmaps.map (fun x => if x = u then { x with fail := true } else x) })).failCovering
        ctx cva (cva + u.len))

/-! Reading tables (R31). -/

/-- The table of a level whose range holds a CVA: frame. -/
def State.tableOf (s : State) (cva : Nat) : Nat → Nat → Nat → Option Nat
  | 0, _, f => some f
  | n + 1, l, f =>
    let e := (s.tableAt f).ents.or (lvlIdx l cva) 0
    if isPtr l e then State.tableOf s cva n (l + 1) (ptrFrame e) else none
/-- CTX_TABLE_READ (R31): a partition manager sees no physical address. -/
def execCtxTableRead (m tag cva level first : Nat) (s : State) : Host.Outcome State Fault Refusal :=
  let c := (s.ctxOfTag tag).getD { part := 64 }
  settled (s.command m { own := [s.tagPart tag], query := true }
    [bad (s.ctxBad tag) 0, bad (2 ^ 52 ≤ cva) 8, bad (3 < level) 16, bad (511 < first) 20]
    (fun s =>
      match s.tableOf cva level 0 c.root with
      | none => s.respond m { status := .okEmpty }
      | some f =>
        let n := min 256 (512 - first)
        let ents := (List.range n).map (fun i =>
          let e := (s.tableAt f).ents.or (first + i) 0
          if m != 0 && isPtr level e then 1 else e.toNat)
        if first + n < 512 then s.respond m { status := .ok, body := recs 8 ents ++ [(4, first + n)], more := true }
        else s.respond m (okBody (recs 8 ents))))

/-! ADVISE (R52, R53). -/

/-- The tier-cache lines of a leaf's capacity-tier pages, each once. -/
def State.leafLines (s : State) (x : Nat × Nat × BitVec 64) : List Nat :=
  if leafZero x.2.2 then []
  else
    match s.region? (leafRegion x.2.2) with
    | none => []
    | some r =>
      let off := leafOff x.2.2
      let len := min (lvlSpan x.2.1) (r.size * 65536 - off)
      (((List.range (len / 256)).filterMap (fun i => s.regionPpa (leafRegion x.2.2) r.extent (off + 256 * i))).filter
        (fun p => 0x10000000000 ≤ p)).map (fun p => p / 1024) |>.dedup
/-- Lines that a hub's tier cache would pin with these lines. -/
def State.pinnedWith (s : State) (hub : Nat) (lines : List Nat) : Nat :=
  let mine := fun (l : Nat) => granHub (l * 8) == hub
  let old := (s.pool.tier.filter (fun l => l.pinned && mine l.line)).map (·.line)
  old.length + (lines.filter (fun l => mine l && !old.contains l)).length
/-- Advice on one line (Table 02-5). A line that finds no way of
its set free, all being pinned, is neither loaded nor pinned, and the ADVISE still completes `ST_OK` (DESIGN CHOICE, log 89: R52 and
R53 give no outcome). -/
def State.adviseLine (s : State) (advice : Nat) (a : Acc) (line : Nat) : State :=
  if advice = 2 then
    match s.tierLine (line * 1024) with
    | none => s
    | some l =>
      if l.dirty != 0 && (s.unitOf (line * 1024)).any (fun u => (s.unit u).frozen.isSome) then s
      else (s.writeBackLine l).updPool (fun p => { p with tier := p.tier.filter (fun x => x.line != line) })
  else if advice = 0 then
    s.updPool (fun p => { p with tier := p.tier.map (fun x => if x.line = line then { x with pinned := false } else x) })
  else
    match s.unitOf (line * 1024) with
    | none => s
    | some u =>
      if !s.unitPresent u then s
      else
        let (s', l) := s.tierFill u line 0 a
        (s'.tierPut { l with pinned := advice == 3 }).getD s'
/-- The leaf with its hint. -/
def withHint (e : BitVec 64) (advice : Nat) : BitVec 64 := BitVec.ofNat 64 (e.toNat - leafHint e * 1024 + advice * 1024)
/-- ADVISE (R36, R52, R53). -/
def execAdvise (q i : Nat) (s : State) : Host.Outcome State Fault Refusal :=
  settled (s.onStarted q i 10 (fun d u s =>
    match s.ctx? u.ctx with
    | none => s.issued d .ok 0
    | some c =>
      let advice := d.f 319 318
      let ls := s.leavesIn c d.dst.addr (d.dst.addr + d.length * 65536)
      let lines := (ls.flatMap s.leafLines).dedup
      if advice = 3 && (List.range s.hubs).any (fun h => decide (49152 < s.pinnedWith h lines)) then
        s.issued d .noResource 0
      else
        let s := lines.foldl (fun s l => s.adviseLine advice { d.acc u.part with served := false } l) s
        let s := ls.foldl (fun s x => (s.putLeaf c x.1 x.2.1 (withHint x.2.2 advice)).getD s) s
        let s := ls.foldl (fun s x => s.uncache u.ctx x.1 (x.1 + lvlSpan x.2.1)) s
        s.issued d .ok 0))

end Sys2Proof.Machine
end

