-- ==== Sys2Proof/Machine/Partitions.lean ====
section
/-! DEFINITION. Partitions, bindings, slot tables, shapers, dedicated ports (R279 to R283, R286 to R299, R313, R430). -/

namespace Sys2Proof.Machine

/-- A word with bits [hi:lo] replaced. -/
def setFld (w hi lo v : Nat) : Nat := w - fld w hi lo * 2 ^ lo + at_ v (hi + 1 - lo) lo
/-- What stands for a partition that does not exist (R280). -/
def noPart : Partition := { cfg := 0 }

/-! The configuration block (Table 12-1, R281). -/

/-- R281 item 1. -/
def State.blkAbsent (s : State) (b : Partition) : Bool :=
  (bitsOf b.oeRsv 24).any (fun n => !s.enginePresent n) || (bitsOf b.teRsv 48).any (fun n => !s.enginePresent (0x100 + n))
  || (b.capQuota != 0 && s.variant.dcs == 0)
/-- Whether two ranges of ids share one. -/
def rangesMeet (a m b n : Nat) : Bool := m != 0 && n != 0 && a < b + n && b < a + m
/-- Reserved engines of a mask in each hub's part of it exceed a cap. -/
def tooMany (mask per cap : Nat) : Bool :=
  (List.range 2).any (fun h => decide (cap < (bitsOf (fld mask (per * h + per - 1) (per * h)) per).length))
/-- R281 item 2: `p` the partition's number. -/
def State.blkBad (s : State) (b : Partition) (p : Nat) : List Check :=
  let rest := s.parts.filter (fun x => x.1 != p)
  [bad (bfld b.cfg 215 6 != 0) 0, bad (65536 < b.queueCount) 50, bad (4096 < b.ctxQuota) 48, bad (4096 < b.eqCount) 45,
   bad (12 < b.oeMax) 36, bad (24 < b.teMax) 29, bad (b.zeroing == 3) 27,
   bad (if b.strict then b.slotWeight != 0 else b.slotWeight == 0) 28, bad (b.egrWeight == 0) 27,
   bad (65536 < b.queueBase + b.queueCount
     || rest.any (fun x => rangesMeet b.queueBase b.queueCount x.2.queueBase x.2.queueCount)) 52,
   bad (4096 < b.eqBase + b.eqCount || rest.any (fun x => rangesMeet b.eqBase b.eqCount x.2.eqBase x.2.eqCount)) 47,
   bad (rest.any (fun x => Nat.land b.oeRsv x.2.oeRsv != 0)) 36, bad (rest.any (fun x => Nat.land b.teRsv x.2.teRsv != 0)) 30,
   bad (tooMany b.oeRsv 12 b.oeMax) 36, bad (tooMany b.teRsv 24 b.teMax) 30]
/-- The smallest range that covers a list of ids: base and count. -/
def coverOf (l : List Nat) : Nat × Nat :=
  match l with
  | [] => (0, 0)
  | x :: r =>
    let lo := r.foldl min x
    (lo, r.foldl max x + 1 - lo)
/-- The ids of a partition's queues, and of its event queues. -/
def State.queueIds (s : State) (p : Nat) : List Nat := (s.queues.filter (fun q => q.2.part == p)).map (·.1)
def State.eqIds (s : State) (p : Nat) : List Nat := (s.eqs.filter (fun e => e.2.part == p)).map (·.1)
/-- R281 item 4: the resize would cut into what is in use. -/
def State.shrinks (s : State) (b : Partition) (p : Nat) : Bool :=
  b.hotQuota < cdiv (s.hotUse p) 65536 || b.capQuota < s.capUse p || b.regionQuota < (s.regionsOf p).length
  || b.ctxQuota < (s.ctxs.filter (fun c => c.2.part == p)).length
  || (s.queueIds p).any (fun q => !(b.queueBase ≤ q && q < b.queueBase + b.queueCount))
  || (s.eqIds p).any (fun e => !(b.eqBase ≤ e && e < b.eqBase + b.eqCount))
/-- The block that answers it. -/
def State.usageBlock (s : State) (p : Nat) (q : Partition) : Nat :=
  let qs := coverOf (s.queueIds p)
  let es := coverOf (s.eqIds p)
  let w := setFld q.cfg.toNat 511 484 (cdiv (s.hotUse p) 65536)
  let w := setFld (setFld w 483 456 (s.capUse p)) 455 436 (s.regionsOf p).length
  let w := setFld (setFld w 435 420 qs.1) 419 403 qs.2
  let w := setFld w 402 390 (s.ctxs.filter (fun c => c.2.part == p)).length
  setFld (setFld w 389 378 es.1) 377 365 es.2

/-! Slot tables (R286 to R293). -/

/-- The partitions that own a slot of a table. -/
def slotOwners (t : Tab Nat) : List Nat := ((t.filter (fun e => e.2 / 64 == 1)).map (fun e => e.2 % 64)).dedup
/-- Whether a member of a region of partition `p` lies in group `g`. -/
def State.memberIn (s : State) (p g : Nat) : Bool :=
  (s.regionsOf p).any (fun r => (s.members r.2.pl).any (fun u => unitGroup u == g)
    || r.2.mig.any (fun m => (s.members m.pl).any (fun u => unitGroup u == g)))
/-- Whether a table would give a third strict partition slots in a group; `strict` says who is strict (R293). -/
def thirdStrict (strict : Nat → Bool) (t : Tab Nat) : Bool := 2 < ((slotOwners t).filter strict).length
/-- Whether a table would leave a strict partition without a slot in a group that it uses (R293). -/
def State.starves (s : State) (strict : Nat → Bool) (g : Nat) (t : Tab Nat) : Bool :=
  s.parts.any (fun p => strict p.1 && !(slotOwners t).contains p.1 && s.memberIn p.1 g)
/-- R281 item 5: partition `p` becoming strict breaks R293. -/
def State.strictBreaks (s : State) (p : Nat) : Bool :=
  let strict := fun (x : Nat) => x == p || s.strict x
  (List.range 64).any (fun g =>
    let a := (s.group g).active
    thirdStrict strict a || ((s.group g).commit && thirdStrict strict (s.group g).shadow)
    || (!(slotOwners a).contains p && s.memberIn p g))

/-! Partition commands (Table 16-6). -/

/-- The mode and weight that the slot schedulers use. -/
def Partition.inForce (p : Partition) : Partition := { p with mode := b2n p.strict, weight := p.slotWeight }
/-- PARTITION_CREATE (R281, R390): its key is a fresh random draw, its shaper full. -/
def execPartitionCreate (m : Nat) (blk : BitVec 512) (s : State) : Host.Outcome State Fault Refusal :=
  let p := bfld blk 5 0
  let b : Partition := { cfg := blk, shaper := { stamp := s.clock.aon } }
  settled (s.command m { fm := true }
    (chk (s.blkAbsent b) .absentUnit :: s.blkBad b p ++ [chk (s.part? p).isSome .busy])
    (fun s =>
      let (k, s) := s.draw
      ({ s with parts := s.parts.put p { b.inForce with key := k } }).respond m okResp))
/-- PARTITION_RESIZE (R281, R283): the slot schedulers take mode and weight at the next wrap. -/
def execPartitionResize (m : Nat) (blk : BitVec 512) (s : State) : Host.Outcome State Fault Refusal :=
  let p := bfld blk 5 0
  let b : Partition := { cfg := blk }
  settled (s.command m { fm := true }
    (chk (s.blkAbsent b) .absentUnit :: s.blkBad b p ++ [chk (s.part? p).isNone .busy])
    (fun s =>
      let q := (s.part? p).getD noPart
      if s.shrinks b p then s.respond m { status := .busy, body := [(64, s.usageBlock p q)] }
      else if b.strict && !q.strict && s.strictBreaks p then s.respond m { status := .noResource }
      else
        let s := s.modPart p (fun q => { q with cfg := blk })
        let s := if q.budgetBytes < b.budgetBytes || q.budgetDesc < b.budgetDesc then s.retryHeld p else s
        s.respond m okResp))
/-- PARTITION_QUERY (R280, R430). -/
def execPartitionQuery (m part : Nat) (s : State) : Host.Outcome State Fault Refusal :=
  settled (s.command m { own := [some part], query := true } [bad (63 < part) 0]
    (fun s => s.respond m (okBody [(64, ((s.part? part).getD noPart).cfg.toNat)])))
/-- A slot table without a partition's slots: they are OPEN. -/
def dropSlots (p : Nat) (t : Tab Nat) : Tab Nat := t.filter (fun e => e.2 != 64 + p)
/-- Whether a partition holds an object that keeps it (R283). -/
def State.partHolds (s : State) (p : Nat) : Bool :=
  s.ctxs.any (fun c => c.2.part == p) || s.regions.any (fun r => r.2.part == p) || s.queues.any (fun q => q.2.part == p)
  || s.colls.any (fun c => c.part == p)
/-- PARTITION_DESTROY (R283, R391): it completes after the next wrap; its queue shapers go with it. -/
def execPartitionDestroy (m part : Nat) (s : State) : Host.Outcome State Fault Refusal :=
  settled (s.command m { fm := true } [bad (63 < part) 0, chk ((s.part? part).isNone || s.partHolds part) .busy]
    (fun s =>
      let groups := s.pool.groups.map (fun g => (g.1, { g.2 with active := dropSlots part g.2.active, shadow := dropSlots part g.2.shadow }))
      { s with parts := s.parts.del part, shapers := s.shapers.filter (fun x => x.2.1 != part),
               pool := { s.pool with groups, commitMbs := s.pool.commitMbs ++ [(m, false)] } }))
/-- PART_EQ_SET (R313, R430): drops counted while unbound go to the first overflow record. -/
def execPartEqSet (m part eq : Nat) (s : State) : Host.Outcome State Fault Refusal :=
  let e := s.eq? eq
  settled (s.command m { own := [some part, e.map (·.part)] }
    [bad (63 < part) 0, bad (e.isNone || ((s.part? part).isSome && e.any (fun x => x.part != part))) 2,
     chk (s.part? part).isNone .busy]
    (fun s =>
      let n := ((s.part? part).map (·.unbound)).getD 0
      let s := s.modPart part (fun p => { p with eq := some eq, unbound := 0 })
      (s.carryDrops eq n).respond m okResp))
/-- FM_EQ_SET (R313). -/
def execFmEqSet (m eq vec : Nat) (s : State) : Host.Outcome State Fault Refusal :=
  settled (s.command m { fm := true } [bad (s.eq? eq).isNone 0, bad (2047 < vec) 2]
    (fun s => (({ s with fmEq := some (eq, vec), fmUnbound := 0 }).carryDrops eq s.fmUnbound).respond m okResp))

/-! Slot-table commands (Table 16-10). -/

/-- Whether an entry is not one of Table 12-2, or names a partition that does not exist. -/
def State.slotBad (s : State) (e : Nat) : Bool := !(e == 0 || (e / 64 == 1 && (s.part? (e % 64)).isSome))
/-- Writes consecutive entries; OPEN is not listed. -/
def putSlots (t : Tab Nat) : Nat → List Nat → Tab Nat
  | _, [] => t
  | i, e :: r => putSlots (if e = 0 then t.del i else t.put i e) (i + 1) r
/-- MEM_SLOT_SET (R288). -/
def execMemSlotSet (m g first : Nat) (entries : List Nat) (s : State) : Host.Outcome State Fault Refusal :=
  settled (s.command m { fm := true }
    [chk (decide (g < 64) && !s.groupPresent g) .absentUnit, bad (64 ≤ g) 0, bad (1024 ≤ first) 4,
     bad (entries.length = 0 || 1024 < first + entries.length) 8, bad (entries.any s.slotBad) 12]
    (fun s => (s.updGroup g (fun x => { x with shadow := putSlots x.shadow first entries })).respond m okResp))
/-- MEM_SLOT_COMMIT (R3, R286, R288, R293): it completes at the wrap. -/
def execMemSlotCommit (m mask : Nat) (s : State) : Host.Outcome State Fault Refusal :=
  let gs := bitsOf mask 64
  settled (s.command m { fm := true }
    [chk (gs.any (fun g => !s.groupPresent g)) .absentUnit,
     chk (gs.any (fun g => s.starves s.strict g (s.group g).shadow)) .busy,
     chk (gs.any (fun g => thirdStrict s.strict (s.group g).shadow)) .noResource]
    (fun s =>
      let s := gs.foldl (fun s g => s.updGroup g (fun x => { x with commit := true })) s
      { s with pool := { s.pool with commitMbs := s.pool.commitMbs ++ [(m, true)] } }))
/-- The 1,024 entries of a slot table. -/
def slotEntries (t : Tab Nat) : List Nat := (List.range 1024).map (fun i => t.or i 0)
/-- MEM_SLOT_QUERY (R288): copy 0 ACTIVE, 1 SHADOW. -/
def execMemSlotQuery (m g copy : Nat) (s : State) : Host.Outcome State Fault Refusal :=
  settled (s.command m { fm := true, query := true }
    [chk (decide (g < 64) && !s.groupPresent g) .absentUnit, bad (64 ≤ g) 0, bad (1 < copy) 4]
    (fun s => s.respond m (okBody (recs 1 (slotEntries (if copy = 0 then (s.group g).active else (s.group g).shadow))))))

/-! Shapers and dedicated ports (Table 16-10, R296 to R299). -/

/-- A shaper as created, full. -/
def fullShaper (word : BitVec 64) (now : Nat) : Shaper :=
  let x : Shaper := { word, tokens := 0, stamp := now }
  { x with tokens := x.cap }
/-- Whether a shaper word has a reserved bit set (Table 12-3). -/
def shaperBad (word : BitVec 64) : Bool := bfld word 22 0 != 0
/-- SHAPER_ALLOC (R297): a free id, freely chosen. -/
def execShaperAlloc (m part : Nat) (word : BitVec 64) (s : State) : Host.Outcome State Fault Refusal :=
  settled (s.command m { own := [some part] }
    [bad (63 < part) 0, bad (shaperBad word) 8, chk (s.part? part).isNone .busy, chk (16384 ≤ s.shapers.length) .noResource]
    (fun s =>
      let (v, s') := s.draw
      match firstFree s'.shapers.has 0 16384 v with
      | none => s.respond m { status := .noResource }
      | some i => ({ s' with shapers := s'.shapers.put i (part, fullShaper word s'.clock.aon) }).respond m (okBody [(4, i)])))
/-- Whether a queue has a shaper attached. -/
def State.shaperUsed (s : State) (sh : Nat) : Bool := s.queues.any (fun q => q.2.shaper == some sh)
/-- SHAPER_FREE (R297). -/
def execShaperFree (m sh : Nat) (s : State) : Host.Outcome State Fault Refusal :=
  settled (s.command m { own := [(s.shapers.at? sh).map (·.1)] } [bad (s.shapers.at? sh).isNone 0, chk (s.shaperUsed sh) .busy]
    (fun s => ({ s with shapers := s.shapers.del sh }).respond m okResp))
/-- A shaper with its word changed (R299). -/
def Shaper.change (x : Shaper) (word : BitVec 64) (now : Nat) : Shaper :=
  let y := x.accrue now
  let z := { y with word }
  { z with tokens := if z.full then z.cap else min y.tokens 0 }
/-- SHAPER_SET (R297, R299): ids from 0xFFFF_FF00 on name the partition shapers. -/
def execShaperSet (m sh : Nat) (word : BitVec 64) (s : State) : Host.Outcome State Fault Refusal :=
  let p := sh - 0xFFFFFF00
  settled (
    if 0xFFFFFF00 ≤ sh then
      s.command m { fm := true } [bad (63 < p) 0, bad (shaperBad word) 8, chk (s.part? p).isNone .busy]
        (fun s => ((s.modPart p (fun q => { q with shaper := q.shaper.change word s.clock.aon })).wheelPart p).respond m okResp)
    else
      s.command m { own := [(s.shapers.at? sh).map (·.1)] } [bad (s.shapers.at? sh).isNone 0, bad (shaperBad word) 8]
        (fun s =>
          let s := { s with shapers := s.shapers.mod sh (fun x => (x.1, x.2.change word s.clock.aon)) }
          ((s.queues.filter (fun q => q.2.shaper == some sh)).foldl (fun s q => s.wheelSet q.1) s).respond m okResp))
/-- SHAPER_ATTACH (R297): 0xFFFF_FFFF detaches. -/
def execShaperAttach (m q sh : Nat) (s : State) : Host.Outcome State Fault Refusal :=
  let x := s.shapers.at? sh
  settled (match s.queue? q with
    | none => s.command m {} [bad true 0] id
    | some u =>
      s.command m { own := [some u.part, x.map (·.1)] }
        [bad (sh != 0xFFFFFFFF && x.all (fun x => x.1 != u.part)) 4]
        (fun s => ((s.modQueue q (fun u => { u with shaper := if sh = 0xFFFFFFFF then none else some sh })).wheelSet q).respond
          m okResp))
/-- PORT_DEDICATE (R296): partition 0xFF releases the port. -/
def execPortDedicate (m port part : Nat) (s : State) : Host.Outcome State Fault Refusal :=
  settled (s.command m { fm := true }
    [chk (decide (port < 96) && !s.portPresent port) .absentUnit, bad (95 < port) 0, bad (63 < part && part != 0xFF) 1,
     chk (part != 0xFF && (s.part? part).isNone) .busy]
    (fun s => (s.updPort port (fun p => { p with dedicated := if part = 0xFF then none else some part })).respond m okResp))

end Sys2Proof.Machine
end

