-- ==== Sys2Proof/Machine/EventQueues.lean ====
section
/-! DEFINITION. Event queues: creation, removal, and their registers (R308 to R316, Tables 13-1, 13-2). -/

namespace Sys2Proof.Machine

/-- The partition whose event-queue range holds an id. -/
def State.eqRange (s : State) (eq : Nat) : Option Nat :=
  (s.parts.find? (fun p => p.2.eqBase ≤ eq && eq < p.2.eqBase + p.2.eqCount)).map (·.1)
/-- The partition for which mailbox `m` creates an event queue: its own, or the one that owns the id. -/
def State.eqOwner (s : State) (m eq : Nat) : Option Nat := if m = 0 then s.eqRange eq else some (m - 1)
/-- Whether `n` bytes at a pool handle lie in an active region of partition `p` in tier `t`, or in any tier for none. -/
def State.handleIn (s : State) (handle n p : Nat) (t : Option Nat) : Bool :=
  (s.region? (handle / 2 ^ 44)).any (fun r => r.st == 1 && r.part == p && handle % 2 ^ 44 + n ≤ r.size * 65536
    && t.all (fun t => r.pl.tier == t))
/-- The key under which the zeroing of an event queue's ring waits. -/
def eqKey (eq : Nat) : Nat × Nat := (4096 + eq, 0)
/-- Has a ring zeroed, piece by piece, and then mailbox `m` answered, if any (R308, R326). -/
def State.zeroRing (s : State) (eq : Nat) (e : EventQ) (m : Option Nat) : State :=
  let item := fun (i : Nat) => (eqKey eq, OwnOut.write e.part 0 (e.ring + 128 * i)
    (List.replicate (min 128 (32 * 2 ^ e.log2 - 128 * i)) ((0 : Byte), false)))
  { s with ownOut := s.ownOut ++ (List.range (cdiv (32 * 2 ^ e.log2) 128)).map item
      ++ m.toList.map (fun m => (eqKey eq, OwnOut.reply m okResp)) }
end Sys2Proof.Machine

namespace Sys2Proof
/-- The event queue that an `EQ_CREATE` asks for. -/
def EqReq.toEq (r : EqReq) (part : Nat) : Machine.EventQ :=
  { part, log2 := r.log2, ring := r.ring, notify := r.notify, vector := r.vector, node := r.node, ep := r.ep,
    addr := r.addr, tc := r.tc, modCount := r.modCount, modTime := r.modTime }
end Sys2Proof

namespace Sys2Proof.Machine

/-- EQ_CREATE (R282, R308, R339). -/
def execEqCreate (m : Nat) (r : EqReq) (s : State) : Host.Outcome State Fault Refusal :=
  let part := s.eqOwner m r.eq
  let p := part.getD 64
  let q := (s.part? p).getD noPart
  let old := s.eq? r.eq
  settled (s.command m { own := [old.map (·.part)], need := 1 }
    [chk (part.isSome && q.eqCount == 0) .noResource, (r.log2 == 0, .badDesc, 0x24),
     bad (!(q.eqBase ≤ r.eq && r.eq < q.eqBase + q.eqCount)) 0, bad (r.log2 < 4 || 16 < r.log2) 4,
     bad (r.ring % (32 * 2 ^ r.log2) != 0 || !s.handleIn r.ring (32 * 2 ^ r.log2) p (some 0)) 8, bad (2 < r.notify) 16,
     bad (r.notify == 1 && 31 < r.vector) 20, bad (r.notify == 2 && 7 < r.tc) 40,
     bad (r.modCount == 0 || 65535 < r.modCount) 44, bad (1000 < r.modTime) 48,
     chk (s.standby && (s.region? (r.ring / 2 ^ 44)).any (·.mirror)) .notPermitted, chk old.isSome .busy]
    (fun s =>
      let e := r.toEq p
      ({ s with eqs := s.eqs.put r.eq e }).zeroRing r.eq e (some m)))
/-- Whether something names an event queue (R308). -/
def State.eqNamed (s : State) (eq : Nat) : Bool :=
  s.queues.any (fun q => q.2.eq == eq) || s.ctxs.any (fun c => c.2.eq == eq) || s.colls.any (fun c => c.req.eq == eq)
  || s.parts.any (fun p => p.2.eq == some eq) || s.fmEq.any (fun f => f.1 == eq)
/-- EQ_DESTROY (R308). -/
def execEqDestroy (m eq : Nat) (s : State) : Host.Outcome State Fault Refusal :=
  let e := s.eq? eq
  settled (s.command m { own := [e.map (·.part)] } [bad e.isNone 0, chk (s.eqNamed eq) .busy]
    (fun s => ({ s with eqs := s.eqs.del eq }).respond m okResp))

/-! Registers (Table 13-2). -/

/-- Whether a PCIe function reaches the registers of an event queue: the PF every one, a VF those of its partition, but
none of a confidential partition (R386, R387, R394). -/
def State.hostReachesEq (s : State) (fn : Nat) (e : EventQ) : Bool :=
  fn == 0 || (fn == e.part + 1 && !(s.part? e.part).any (fun p => p.hostClosed || p.bounce.isSome))
/-- Whether a packet comes from the queue's FABRIC notification target (R311). -/
def EventQ.target (e : EventQ) (h : Hdr) : Bool := e.notify == 2 && e.node == h.srcNode && e.ep == h.srcEp
/-- A register access of an event queue by a command. -/
def State.eqAccess (s : State) (src : Src) (cmd : Instr) (eq : Nat) (v : EventQ → Nat) (f : State → State) : State :=
  let e := s.eq? eq
  s.regAccess src cmd (fun n => e.any (s.hostReachesEq n)) (fun h => e.any (·.target h)) ((e.map v).getD 0) f
/-- A consumer index write that takes effect or is ignored (R312, R315). -/
def State.eqConsume (s : State) (eq val : Nat) : State :=
  match s.eq? eq with
  | none => s
  | some e =>
    let c := BitVec.ofNat 32 val
    if (c - e.ci).toNat ≤ (e.pi - e.ci).toNat then
      (s.modEq eq (fun e => ({ e with ci := c, armed := true, fresh := (e.pi - c).toNat } : EventQ).owed eq s.clock.base)).notifyIf
        eq false
    else s
/-- EQ_CI_WRITE (R311, R312, R315). -/
def execEqCiWrite (src : Src) (eq val : Nat) (s : State) : Host.Outcome State Fault Refusal :=
  settled (s.eqAccess src (.eqCiWrite src eq val) eq (fun e => e.ci.toNat) (fun s => s.eqConsume eq val))
/-- EQ_DROPPED_READ (R311). -/
def execEqDroppedRead (src : Src) (eq : Nat) (s : State) : Host.Outcome State Fault Refusal :=
  settled (s.eqAccess src (.eqDroppedRead src eq) eq (fun e => e.dropped) (fun s => s.modEq eq (fun e => { e with dropped := 0 })))
/-- EQ_MOD_TIME_EXPIRY (R315): the oldest unnotified record is `MOD_TIME` old. -/
def execEqModTimeExpiry (eq : Nat) (s : State) : Host.Outcome State Fault Refusal := settled (s.notifyIf eq true)

end Sys2Proof.Machine
end

