-- ==== Sys2Proof/Machine/Collectives.lean ====
section
/-! DEFINITION. Collectives: creation, contributions, steps, closing (R148 to R154, Tables 06-4 to 06-6a). -/

namespace Sys2Proof

/-- Input and output elements' stream entries, for decoding and packing. -/
def CollReq.out (r : CollReq) : Machine.SEnt := ⟨r.outFmt * 2 ^ 172 + r.outScaled * 2 ^ 171⟩
/-- Bytes of a chunk in the input format, scale bytes included. -/
def CollReq.inBytes (r : CollReq) : Nat :=
  Machine.denseBytes r.inFmt r.chunkElems + if r.inScaled = 1 then r.chunkElems / 32 else 0
/-- Bytes of a chunk in the output format, scale bytes included: Q of R152. -/
def CollReq.outBytes (r : CollReq) : Nat := r.out.derived r.chunkElems
/-- Bytes of a bitmap of `n` bits, rounded up to 64 B. -/
def bitmapBytes (n : Nat) : Nat := 64 * cdiv (cdiv n 8) 64
/-- T of R153. -/
def CollReq.statusBytes (r : CollReq) : Nat := 64 + bitmapBytes r.n + bitmapBytes r.chunks
/-- Bytes of the working area (R148). -/
def CollReq.areaBytes (r : CollReq) : Nat :=
  2 * r.chunks * r.chunkElems * 4 + 3 * r.chunks * bitmapBytes r.n
  + if r.accum = 1 then 2 * r.chunks * r.n * r.inBytes else 0
/-- The timeout in ms; all ones select 100. -/
def CollReq.ms (r : CollReq) : Nat := if r.timeout = 0xFFFFFFFF then 100 else r.timeout

end Sys2Proof

namespace Sys2Proof.Machine

/-- A collective by context and `COLL_ID`. -/
def State.coll? (s : State) (ctx cid : Nat) : Option Coll := s.colls.find? (fun c => c.ctx == ctx && c.req.cid == cid)
/-- Changes a collective. -/
def State.modColl (s : State) (ctx cid : Nat) (f : Coll → Coll) : State :=
  { s with colls := s.colls.map (fun c => if c.ctx = ctx && c.req.cid = cid then f c else c) }
/-- Queues something that the controller writes or sends for a collective. -/
def State.collOut (s : State) (c : Coll) (o : OwnOut) : State :=
  { s with ownOut := s.ownOut ++ [((c.ctx, c.req.cid), o)] }

/-! Creating (R148, R339). -/

/-- The checks of Table 06-4, by the body offset of each parameter. -/
def State.collBad (s : State) (r : CollReq) (part : Nat) : List Check :=
  [bad (s.ctxBad r.tag) 0, bad (2 ^ 32 ≤ r.cid || ((s.coll? (tagNum r.tag) r.cid).isSome)) 4, bad (r.n == 0 || 16384 < r.n) 8,
   bad (2 < r.op) 12, bad (!([0, 1, 2, 3, 4, 8].contains r.inFmt)) 13,
   bad (1 < r.inScaled || (r.inScaled == 1 && !([3, 4, 8].contains r.inFmt))) 14, bad (9 < r.outFmt) 15,
   bad (1 < r.outScaled || (r.outScaled == 1 && (r.outFmt ≤ 2 || r.outFmt == 9))
     || (r.outScaled == 0 && 5 ≤ r.outFmt && r.outFmt ≤ 7)) 16,
   bad (2 < r.round) 17, bad (1 < r.ovf) 18, bad (r.chunkElems < 64 || 65536 < r.chunkElems || r.chunkElems % 64 != 0) 24,
   bad (r.chunks == 0 || 2 ^ 24 < r.chunks) 28, bad (1 < r.accum) 32,
   bad (!s.handleIn r.result (2 * r.chunks * r.outBytes) part none) 40,
   bad (!s.handleIn r.status (2 * r.statusBytes) part none) 48, bad (1 < r.deliver) 56,
   bad (r.deliver == 1 && 4095 < r.flock) 58, bad (r.deliver == 1 && (7 < r.tc || !s.ordClass r.tc)) 60,
   bad ((s.eq? r.eq).all (fun e => e.part != part)) 72, bad (r.ms == 0 || 60000 < r.ms) 76]
/-- `n` free hot-tier chunks for a working area. -/
def State.takeArea (s : State) (use_ : ChunkUse) : Nat → Option (List Nat × State)
  | 0 => some ([], s)
  | n + 1 =>
    match s.takeHot use_ with
    | none => none
    | some (c, s) => (State.takeArea s use_ n).map (fun r => (c :: r.1, r.2))
/-- COLL_CREATE (R148, R339). -/
def execCollCreate (m : Nat) (r : CollReq) (s : State) : Host.Outcome State Fault Refusal :=
  let c := (s.ctxOfTag r.tag).getD { part := 64 }
  let owner := fun (h : Nat) => (s.region? (h / 2 ^ 44)).map (·.part)
  settled (s.command m { own := [s.tagPart r.tag, (s.eq? r.eq).map (·.part), owner r.result, owner r.status], need := 1 }
    (s.collBad r c.part ++ [chk (s.standbyFor r.tag) .notPermitted, chk (c.st != .active) .busy,
      chk (1024 ≤ s.colls.length) .noResource])
    (fun s =>
      let n := cdiv r.areaBytes 65536
      let x := tagNum r.tag
      match if s.hotFits c.part (65536 * n) then s.takeArea (.coll x r.cid) n else none with
      | none => s.respond m { status := .noResource }
      | some (area, s) =>
        ({ s with colls := s.colls ++ [({ req := { r with timeout := r.ms }, ctx := x, part := c.part, area } : Coll)] }).respond
          m okResp))

/-! Contributions (R149 to R152). -/

/-- Rows 2 to 6 of Table 06-5: the status of a contribution that is not taken, none for one that is; whether it counts as a
duplicate. -/
def Coll.judge (c : Coll) (step rank chunk len : Nat) : Option (Status × Bool) :=
  let r := c.req
  let cur := step == c.step % 2 ^ 32
  let nxt := step == (c.step + 1) % 2 ^ 32
  let has := fun (t : Tab (List Nat)) => (t.or chunk []).contains rank
  if r.n ≤ rank || r.chunks ≤ chunk then some (.badArg, false)
  else if c.step != 0 && step == (c.step - 1) % 2 ^ 32 then some (if has c.old then .ok else .collIncomplete, false)
  else if !cur && !nxt then some (.badArg, false)
  else if len != 0 && len != r.inBytes then some (.badArg, false)
  else if has (if cur then c.cur.bits else c.nxt.bits) then some (.ok, true)
  else none
end Sys2Proof.Machine

namespace Sys2Proof
open Sys2Proof.Machine

/-- The identity of the operation (R149): FP32 lanes hold the INT32 extremes exactly enough to encode them. -/
def CollReq.identity (r : CollReq) : Lane :=
  let int := r.inFmt == 8 && r.inScaled == 0
  (if r.op = 0 then 0 else if r.op = 1 then (if int then 0xCF000000 else 0xFF800000)
    else if int then 0x4F000000 else 0x7F800000, false)
/-- The lanes of a contribution. -/
def CollReq.lanes (r : CollReq) (bs : List (Byte × Bool)) : List Lane :=
  if bs.isEmpty then List.replicate r.chunkElems r.identity
  else
    let d := denseBytes r.inFmt r.chunkElems
    (withScales (denseElems r.inFmt r.chunkElems (bs.take d)) (if r.inScaled = 1 then some (bs.drop d) else none)).map
      (Elem.lane r.inFmt true)
/-- Two lanes combined by the operation, poison carried over. -/
def laneRed (op : Nat) (a b : Lane) : Lane := (red2 op a.1 b.1, a.2 || b.2)
/-- Kept contributions in rank order, combined as `REDUCE_N` does (R147, R151). -/
def CollReq.combine (r : CollReq) (kept : List (Nat × List Lane)) : List Lane :=
  let ls := (sortBy (fun a b => a.1 ≤ b.1) kept).map (·.2)
  (List.range r.chunkElems).map (fun k =>
    let xs := ls.map (fun l => lane l k)
    let v := match (chunksOf 4 xs.length xs).map (fun c => red4 r.op (c.map (·.1))) with
      | [] => 0
      | x :: t => t.foldl (red2 r.op) x
    (v, xs.any (·.2)))
/-- Lanes as the state holds them. -/
def packLanes (l : List Lane) : List (BitVec 32 × Bool) := l.map (fun x => (BitVec.ofNat 32 x.1, x.2))
def openLanes (l : List (BitVec 32 × Bool)) : List Lane := l.map (fun x => (x.1.toNat, x.2))
/-- A chunk packed into the output format: elements, then scale bytes (R152). Its generator starts at `SEED`. -/
def CollReq.pack (r : CollReq) (ls : List Lane) : List (Byte × Bool) :=
  let (es, _) := drawOuts r.round (storeDraws r.round true r.out) 0 ls (genStart r.seed)
  let (cs, sc) := packOuts r.out true (r.ovf == 0) es
  storeBytesOf r.out cs ++ sc.map (fun x => (BitVec.ofNat 8 x.1, x.2))

end Sys2Proof

namespace Sys2Proof.Machine

/-- Takes a contribution into a step: its bit, its data, and the finished chunk if it was the last (Table 06-6a). -/
def CollStep.take (p : CollStep) (r : CollReq) (rank chunk : Nat) (ls : List Lane) : CollStep × Option (List Lane) :=
  let bits := addSorted (p.bits.or chunk []) rank
  let kept := p.kept.or chunk [] ++ [(rank, packLanes ls)]
  let acc := match p.acc.at? chunk with
    | none => ls
    | some a => ((openLanes a).zip ls).map (fun x => laneRed r.op x.1 x.2)
  let p := { p with bits := p.bits.put chunk bits }
  if bits.length = r.n then
    let out := if r.accum = 1 then r.combine (kept.map (fun k => (k.1, openLanes k.2))) else acc
    let pz := p.poison || out.any (·.2)
    ({ p with acc := p.acc.del chunk, kept := p.kept.del chunk, complete := addSorted p.complete chunk, poison := pz }, some out)
  else if r.accum = 1 then ({ p with kept := p.kept.put chunk kept }, none)
  else ({ p with acc := p.acc.put chunk (packLanes acc) }, none)
/-- Sends packets to the collective's flock, behind what it already waits to write. -/
def State.collSend (s : State) (c : Coll) (ps : List Packet) : State :=
  ps.foldl (fun s p => s.collOut c (.flock c.part p)) s
/-- Writes and delivers a finished chunk of step `step` (R152). -/
def State.release (s : State) (c : Coll) (step chunk : Nat) (ls : List Lane) : State :=
  let r := c.req
  let bs := r.pack ls
  let off := step % 2 * (r.chunks * r.outBytes) + chunk * r.outBytes
  let s := s.collOut c (.write c.part r.tag (r.result + off) bs)
  if r.deliver = 0 then s
  else
    let (ps, s) := s.flockWrites r.flock r.tc r.tag (r.addr + off) bs
    s.collSend c ps

/-! Closing (R153, R154). -/

/-- Bits as the bytes of a bitmap. -/
def bitmap (n : Nat) (l : List Nat) : List Byte := leBytes (bitmapBytes n) (l.foldl (fun w i => w + 2 ^ i) 0)
/-- The 32 bytes of a completion notice, free values (Table 09-2, log 6). -/
def noticeBytes (m : Msg) : List Byte := bytesFrom (Config.msgBytes m.nums []) 0 32
/-- Closes the current step: withheld chunks, status block, event, notice, and the next step becomes current. -/
def State.closeStep (s : State) (c : Coll) : Coll × State :=
  let r := c.req
  let p := c.cur
  let withheld := (List.range r.chunks).filter (fun k => !p.complete.contains k)
  let missing := (List.range r.n).filter (fun k => withheld.any (fun w => !(p.bits.or w []).contains k))
  let st : Status := if !withheld.isEmpty then .collIncomplete else if p.poison then .poison else .ok
  let head := at_ c.step 64 448 + at_ p.complete.length 32 416 + at_ withheld.length 32 384 + at_ st.code 16 368
    + at_ missing.length 15 353 + at_ p.dups 64 256 + at_ s.now 64 192 + at_ ((p.first.map (·.toNat)).getD 0) 64 128
  let blk : CollBlock := { head := BitVec.ofNat 512 head, missing, withheld }
  let bs := leBytes 64 head ++ bitmap r.n missing ++ bitmap r.chunks withheld
  let s := s.collOut c (.write c.part r.tag (r.status + c.step % 2 * r.statusBytes) (bs.map (fun b => (b, false))))
  let s := s.collOut c (.event r.eq { typ := 9, status := st.code, body := r.cid + at_ c.step 64 64, ctx := some r.tag })
  let s :=
    if r.deliver = 0 then s
    else
      let (t, s) := s.newTag (65536 + r.flock)
      let m : Msg := .collDone r.cid c.step st.code withheld.length
      s.collSend c [s.flockPacket r.flock r.tc r.tag r.addr 0x13 m (noticeBytes m) false true 32 t]
  let started := !c.nxt.bits.isEmpty
  ({ c with
      step := c.step + 1
      cur := { c.nxt with first := if started then some s.clock.base else none }
      nxt := {}
      old := p.bits
      timer := started
      blocks := if c.step % 2 = 0 then (blk, c.blocks.2) else (c.blocks.1, blk) }, s)
/-- Closes the current step while every chunk of it is complete; at most the two steps that hold contributions. -/
def State.closeFull (s : State) (c : Coll) : Nat → Coll × State
  | 0 => (c, s)
  | n + 1 =>
    if c.cur.complete.length = c.req.chunks then
      let (c, s) := s.closeStep c
      State.closeFull s c n
    else (c, s)
/-- Stores a changed collective. -/
def State.setColl (s : State) (c : Coll) : State := s.modColl c.ctx c.req.cid (fun _ => c)
/-- Takes or refuses a contribution of `LENGTH` `len` (Table 06-5). -/
def State.contribute (s : State) (ctx cid step rank chunk len : Nat) (bs : List (Byte × Bool)) : Status × State :=
  match s.coll? ctx cid with
  | none => (.badArg, s)
  | some c =>
    match c.judge step rank chunk len with
    | some (st, dup) =>
      let isCur := step == c.step % 2 ^ 32
      (st, if !dup then s else s.setColl (if isCur then { c with cur := { c.cur with dups := c.cur.dups + 1 } }
        else { c with nxt := { c.nxt with dups := c.nxt.dups + 1 } }))
    | none =>
      let ls := c.req.lanes bs
      if step = c.step % 2 ^ 32 then
        let (p, out) := c.cur.take c.req rank chunk ls
        let p := if p.first.isNone then { p with first := some s.clock.base } else p
        let c := { c with cur := p, timer := true }
        let s := match out with
          | some l => s.release c c.step chunk l
          | none => s
        let (c, s) := s.closeFull c 2
        (.ok, s.setColl c)
      else
        let (p, out) := c.nxt.take c.req rank chunk ls
        let c := { c with nxt := p }
        let s := match out with
          | some l => s.release c (c.step + 1) chunk l
          | none => s
        (.ok, s.setColl c)
/-- COLL_STEP_TIMEOUT (R153). -/
def execCollStepTimeout (ctx cid : Nat) (s : State) : Host.Outcome State Fault Refusal :=
  settled (match s.coll? ctx cid with
    | none => s
    | some c =>
      if !c.timer then s
      else
        let (c, s) := s.closeStep c
        let (c, s) := s.closeFull c 1
        s.setColl c)
/-- Closes a collective's open steps and frees its working area (R154). -/
def State.endColl (s : State) (c : Coll) : State :=
  let two := !c.nxt.bits.isEmpty
  let (c, s) := s.closeStep c
  let (c, s) := if two then s.closeStep c else (c, s)
  ({ s with colls := s.colls.filter (fun x => !(x.ctx == c.ctx && x.req.cid == c.req.cid)) }).zeroLater c.area 0
/-- COLL_DESTROY (R154). -/
def execCollDestroy (m tag cid : Nat) (s : State) : Host.Outcome State Fault Refusal :=
  let c := s.coll? (tagNum tag) cid
  settled (s.command m { own := [s.tagPart tag] } [bad (s.ctxBad tag) 0, bad c.isNone 4, chk (s.ctxTearing tag) .busy]
    (fun s => (match c with
      | some c => s.endColl c
      | none => s).respond m okResp))
/-- A status block's two bitmaps. -/
def CollBlock.bytes (b : CollBlock) (r : CollReq) : List Byte := bitmap r.n b.missing ++ bitmap r.chunks b.withheld
/-- COLL_QUERY (R375). -/
def execCollQuery (m tag cid first : Nat) (s : State) : Host.Outcome State Fault Refusal :=
  settled (match if s.ctxBad tag then none else s.coll? (tagNum tag) cid with
    | none => s.command m { own := [s.tagPart tag], query := true } [bad (s.ctxBad tag) 0, bad true 4] id
    | some c =>
      let all := c.blocks.1.bytes c.req ++ c.blocks.2.bytes c.req
      s.command m { own := [some c.part], query := true } [bad (s.ctxBad tag) 0, bad (all.length < first) 8]
        (fun s =>
          let part := (all.drop first).take 3840
          let next := first + part.length
          let body := (8, c.step) :: (64, c.blocks.1.head.toNat) :: (64, c.blocks.2.head.toNat) :: part.map (fun b => (1, b.toNat))
          let more := decide (next < all.length)
          s.respond m { status := .ok, body := if more then body ++ [(4, next)] else body, more }))

/-! The two ways to contribute (R105, R149). -/

/-- The bytes pulled for a contribution, in order. -/
def Desc.pulled (d : Desc) : List (Byte × Bool) := (sortBy (fun a b => a.1 ≤ b.1) d.buf).flatMap (·.2)
/-- The end of a contribution by descriptor: its bytes judged and combined, its status that of Table 06-5 (R149, R151). -/
def State.contributed (s : State) (d : Desc) (ctx : Nat) (bs : List (Byte × Bool)) : State :=
  let (st, s) := s.contribute ctx (d.f 319 288) (d.f 287 256) (d.f 255 242) (d.f 241 218) d.length bs
  (s.modDesc d.q d.i (fun d => { d with status := .ok })).issued d (if d.length = 0 && st == .ok then .okEmpty else st) 0
/-- COLL_CONTRIB (R105, R149): a `SRC` that is REMOTE is pulled first. Data that reads as poisoned, lost or frozen is a poisoned
contribution (R151, log 91). -/
def execCollContrib (q i : Nat) (s : State) : Host.Outcome State Fault Refusal :=
  settled (s.onStarted q i 12 (fun d u s =>
    let refused := ((s.coll? u.ctx (d.f 319 288)).map (fun c =>
      (c.judge (d.f 287 256) (d.f 255 242) (d.f 241 218) d.length).isSome)).getD true
    if refused || d.length = 0 then s.contributed d u.ctx []
    else if d.src.kind = 2 then
      if d.pulled.length = d.length then s.contributed d u.ctx d.pulled
      else if !d.out.isEmpty then s
      else
        let (ok, s) := s.pullRemote d u.part d.src.rank d.src.addr d.length 0
        if ok then s else s.endDesc q d.i .routeNone false
    else
      let (ok, s) := s.keysReady d.runs [(d.src.key, d.length)] []
      if !ok then s
      else
        let (ok, s) := s.fetched d u.part [(d.src.key, d.length)]
        if !ok then s
        else
          let (bs, _, s) := s.readKey d.runs d.src.key d.length (d.acc u.part)
          s.contributed d u.ctx bs))
/-- The contribution bytes that a message's packets have brought. -/
def OpenMsg.bytes (m : OpenMsg) : List (Byte × Bool) := (sortBy (fun a b => a.1 ≤ b.1) m.parts).flatMap (·.2)
/-- The operator engines that may accumulate a fabric contribution now: chosen on the hub of the collective's context as for
`ENGINE` 63, as work of its partition (R120, R149, R294). -/
def State.contribEngines (s : State) (c : Coll) : List Nat :=
  let hub := s.ctxHub c.ctx
  (hubEngines 2 hub).filter (fun e => s.engineIdle e && s.mayTake c.part 2 hub e)
/-- An operator engine accumulates a fabric contribution: the step keeps it no longer than the contribution (R149). -/
def State.accumulate (s : State) (h : Hdr) (step rank chunk : Nat) (bs : List (Byte × Bool)) : Status × State :=
  let cid := h.addr / 2 ^ 32
  let s := match (s.coll? (tagNum h.ctxTag) cid).map (fun c => s.contribEngines c) with
    | some (e :: r) =>
      let (e, s) := s.choose (e :: r) e
      s.updEngine e (fun g => { g with gate := 0 })
    | _ => s
  s.contribute (tagNum h.ctxTag) cid step rank chunk h.msgLen bs
/-- Whether a contribution packet of `n` bytes must wait in its receive buffer: it completes a message that will be taken, and no
operator engine may accumulate it (R149). -/
def State.collWaits (s : State) (h : Hdr) (step rank chunk n : Nat) : Bool :=
  decide (h.msgLen ≤ ((s.msg? h.key).map (·.got)).getD 0 + n) &&
  (s.coll? (tagNum h.ctxTag) (h.addr / 2 ^ 32)).any (fun c =>
    (c.judge step rank chunk h.msgLen).isNone && (s.contribEngines c).isEmpty)
/-- A contribution packet (R149, R230): the contribution is judged when its message is complete; `ADDR` [63:32] is `COLL_ID`,
[31:0] the offset of the packet's bytes. -/
def State.collWrite (s : State) (p : Nat) (h : Hdr) (step rank chunk : Nat) (data : List Byte) : State :=
  let cid := h.addr / 2 ^ 32
  s.atHome p h (fun c s =>
    let end_ := fun (s : State) (st : Status) => s.cmp p c.part h st 0 (s.claimOf 0 h.ctxTag)
    if h.msgLen = 0 then
      let (st, s) := (s.consume p h).contribute (tagNum h.ctxTag) cid step rank chunk 0 []
      end_ s (if st == .ok then .okEmpty else st)
    else if s.collWaits h step rank chunk data.length then s
    else
      match s.msgTake p h data.length (.collWr p h step rank chunk data) with
      | (.late, s) => s.consume p h
      | (.waits, s) => s
      | (.taken, s) =>
        let s := (s.consume p h).modMsg h.key (fun m =>
          { m with parts := m.parts ++ [(h.addr % 2 ^ 32, data.map (fun b => (b, h.poison)))] })
        let bs := ((s.msg? h.key).map (·.bytes)).getD []
        match s.msgDone h .ok with
        | (some (.ok, true), s) =>
          let (st, s) := s.accumulate h step rank chunk bs
          end_ s st
        | (some (st, true), s) => end_ s st
        | (_, s) => s)
/-- COLL_WR (R149, R230). -/
def execCollWr (p : Nat) (h : Hdr) (step rank chunk : Nat) (data : List Byte) (s : State) : Host.Outcome State Fault Refusal :=
  settled (s.collWrite p h step rank chunk data)

end Sys2Proof.Machine
end

