-- ==== Sys2Proof/Machine/Contexts.lean ====
section
/-! DEFINITION. Contexts: creation, rank table, teardown, revival, destruction, and partition reset (R221, R284, R285, R321 to
R326, R337, R338, R430, R431). -/

namespace Sys2Proof.Machine

/-! Creation (R45, R47, R221, R284, R337, R430). -/

/-- The lowest context number that is free and not in quarantine. -/
def State.freeCtx (s : State) : Option Nat :=
  (List.range 4096).find? (fun c => !s.ctxs.has c && !s.quarantine.contains c)
/-- Allocates a context's page-table root and rank table, charged to its partition (R31, R221, R282). -/
def State.allocCtx (s : State) (n : Nat) (c : Context) : Option State :=
  if !s.hotFits c.part 65536 then none
  else
    match s.takeHot (.ranks n) with
    | none => none
    | some (_, s) =>
      match ({ s with ctxs := s.ctxs.put n c } : State).newTable c.part with
      | none => none
      | some (f, s) => some (s.modCtx n (fun c => { c with root := f }))
/-- CTX_CREATE: fault mode 0 STALL, 1 FAIL; window and timeout of all ones select 1 and 1,000. -/
def execCtxCreate (m : Nat) (r : CtxReq) (s : State) : Host.Outcome State Fault Refusal :=
  let q := s.part? r.part
  let e := s.eq? r.eq
  let window := if r.window = 0xFFFFFFFF then 1 else r.window
  let timeout := if r.timeout = 0xFFFFFFFF then 1000 else r.timeout
  settled (s.command m { own := [some r.part, e.map (·.part)], need := 1 }
    [chk (q.any (fun p => p.ctxQuota == 0)) .noResource, chk (r.mirror == 1 && !s.variant.mirror) .absentUnit,
     bad (63 < r.part) 0, bad (1 < r.mode) 1, bad (e.isNone || (q.isSome && e.any (fun e => e.part != r.part))) 2,
     bad (1 < r.mirror) 4, bad (64 < window) 8, bad (timeout == 0 || 60000 < timeout) 12,
     chk (r.mirror == 1 && s.standby) .notPermitted, chk q.isNone .busy, chk (r.mirror == 1 && !s.pairWhole) .busy,
     chk (q.any (fun p => decide (p.ctxQuota ≤ (s.ctxs.filter (fun c => c.2.part == r.part)).length))) .noResource]
    (fun s =>
      let c : Context := { part := r.part, mirror := r.mirror == 1, stall := r.mode == 0, eq := r.eq, window, timeout }
      match s.freeCtx.bind (fun n => (s.allocCtx n c).map (fun s => (n, s))) with
      | none => s.respond m { status := .noResource }
      | some (n, s) => s.respond m (okBody [(2, s.tagOf n)])))
/-- Writes consecutive rank-table entries; an entry of zeros is not listed. -/
def putRanks (t : Tab (BitVec 32)) : Nat → List Nat → Tab (BitVec 32)
  | _, [] => t
  | i, e :: r => putRanks (if e = 0 then t.del i else t.put i (BitVec.ofNat 32 e)) (i + 1) r
/-- Whether a rank-table entry is refused: reserved bits, or a valid entry with node 0xFFFF or endpoint 0xFF (R221). -/
def rankBad (e : Nat) : Bool := 2 ^ 32 ≤ e || fld e 30 24 != 0 || (bit e 31 && (fld e 23 8 == 0xFFFF || fld e 7 0 == 0xFF))
/-- RANK_TABLE_SET (R221, R338). -/
def execRankTableSet (m tag first : Nat) (entries : List Nat) (s : State) : Host.Outcome State Fault Refusal :=
  settled (s.command m { own := [s.tagPart tag] }
    [bad (s.ctxBad tag) 0, bad (16384 ≤ first) 4, bad (entries.length = 0 || 1000 < entries.length || 16384 < first + entries.length) 8,
     bad (entries.any rankBad) 12, chk (s.ctxStandby tag) .notPermitted, chk (s.ctxTearing tag) .busy]
    (fun s => (s.modCtx (tagNum tag) (fun c => { c with ranks := putRanks c.ranks first entries })).respond m okResp))

/-! Teardown (R321 to R325). -/

/-- The queues of a context. -/
def State.ctxQueues (s : State) (n : Nat) : List Nat := (s.queues.filter (fun q => q.2.ctx == n)).map (·.1)
/-- Step 1: every queue BLOCKED. -/
def State.blockQueues (s : State) (n : Nat) : State :=
  (s.ctxQueues n).foldl (fun s q =>
    let s := s.modQueue q (fun u => { u with st := .blocked, avail := [] })
    { s with wheel := s.wheel.del q, heldOrder := dropVal s.heldOrder q }) s
/-- Step 2: the generation advances, in boot flash too, and the old tag's translations stop hitting (R35, R285). -/
def State.advanceGen (s : State) (n : Nat) : State :=
  let g := (s.gen n + 1) % 16
  let s := { s with gens := s.gens.put n g, flash := { s.flash with gens := s.flash.gens.put n g } }
  s.uncacheAll n
/-- The migration that a descriptor has begun goes on as the controller's work, which completes no descriptor (R325). -/
def State.orphanMig (s : State) (d : Desc) : State :=
  s.modRegion d.migRegion (fun r => { r with mig := r.mig.map (fun g => { g with q := 65536 }) })
/-- Whether a descriptor's migration is in progress. -/
def State.migrating (s : State) (d : Desc) : Bool :=
  d.typ == 11 && (s.region? d.migRegion).any (fun r => r.mig.any (fun g => g.q == d.q && g.i == d.i.toNat))
/-- Step 3 for one descriptor: how many it cancels, and the state (R325). -/
def State.cancel (s : State) (n : Nat) (d : Desc) : Nat × State :=
  let part := ((s.ctx? n).map (·.part)).getD 64
  let s := s.modDesc d.q d.i (fun d => { d with quiet := true })
  match d.phase with
  | .held => (0, (s.refund d part).dropDesc d.q d.i)
  | .finished => (0, s)
  | .started =>
    if s.migrating d then (0, ((s.orphanMig d).refund d part).dropDesc d.q d.i)
    else if d.typ = 11 then (1, s.endDesc d.q d.i .ctxTornDown false)
    else (1, s.stopDesc d .ctxTornDown)
  | .ready | .stalled => (1, s.endDesc d.q d.i .ctxTornDown false)
/-- Step 3: descriptors, fault waiters, collectives. -/
def State.cancelWork (s : State) (n old : Nat) : State :=
  let ds := s.descs.filter (fun d => (s.ctxQueues n).contains d.q)
  let r := ds.foldl (fun (r : Nat × State) d =>
    let (k, s) := r.2.cancel n d
    (r.1 + k, s)) (0, s)
  let s := r.2.modCtx n (fun c => { c with cancelled := r.1 })
  let s := (s.faults.entries.filter (fun e => e.tag == old)).foldl (fun s e => s.closeEntry e false .ctxTornDown) s
  let s := s.updFaults (fun f => { f with waiting := f.waiting.filter (fun e => e.tag != old) })
  (s.colls.filter (fun c => c.ctx == n)).foldl (fun s c => s.endColl c) s
/-- Step 6: open messages of the old tag close, each request among them answered (R230, R231). -/
def State.closeMsgs (s : State) (old : Nat) : State :=
  (s.net.msgs.filter (fun m => m.hdr.ctxTag == old && m.hdr.dstEp == 0)).foldl (fun s m =>
    let s := s.dropMsg m.key
    let s := if m.got < m.hdr.msgLen then s.updNet (fun n => { n with closed := n.closed ++ [(m.key, m.hdr.msgLen - m.got)] }) else s
    s.refuse m.port 65 m.hdr .ctxTornDown (s.claimOf 0 old)) s
/-- Starts a teardown: steps 1 to 3 and the beginning of 6; `m` waits for step 9. -/
def State.startTeardown (s : State) (n : Nat) (m : Option Nat) (fm destroy : Bool) : State :=
  let old := s.tagOf n
  let s := s.modCtx n (fun c => { c with st := .tearing, oldTag := old, mb := m, fmAsked := fm, destroy, cancelled := 0, dropped := 0 })
  let s := ((s.blockQueues n).advanceGen n).cancelWork n old
  s.closeMsgs old
/-- Whether writes of an old tag that the home had accepted, or requests that it has taken, are still under way (R322 step 4, R429). -/
def State.tagBusy (s : State) (old : Nat) : Bool :=
  s.coh.txns.any (fun t => t.req.tag == old && !t.req.op.own) || s.coh.waiting.any (fun r => r.tag == old && !r.op.own)
  || s.coh.held.any (fun r => r.tag == old)
  || s.coh.joins.any (fun j => j.2.hdr.ctxTag == old)
  || s.queuedFor (fun e => e.write && e.tag == old)
/-- The bytes of a partition in the kettle go to memory (R322 step 4): what their write-back has queued is issued. -/
def State.kettleOut (s : State) (part : Nat) : State :=
  let es := s.pool.kettle.filter (fun e => e.part == part)
  (es.filterMap (fun e => s.unitOf e.sector)).foldl (fun s u => s.drainUnit u) (es.foldl (fun s e => s.kettleForce e.sector) s)
/-- Step 5: a partition's packets of the old tag that wait for egress. -/
def State.dropEgress (s : State) (old part : Nat) : State :=
  let keep := fun (x : Nat × Packet) => !(x.1 == part && x.2.hdr.ctxTag == old)
  let ports := s.ports.map (fun p =>
    let l := { p.2.link with egress := p.2.link.egress.filter keep }
    (p.1, { p.2 with link := l }))
  let s := { s with ports }
  s.updNet (fun n => { n with loop := n.loop.filter (fun p => !(p.hdr.ctxTag == old && isRequest p.hdr.opcode)) })
/-- Step 7: `CTX_ENDED` to each node and endpoint of the rank table, on each ordered class used. A notice, it carries the
controller's own incarnation (DESIGN CHOICE, log 92). -/
def State.sendEnded (s : State) (n : Nat) (c : Context) : State :=
  let dests := ((c.ranks.filter (fun e => bfld e.2 31 31 == 1)).map (fun e => (bfld e.2 23 8, bfld e.2 7 0))).dedup
  let data := leBytes 2 c.oldTag ++ leBytes 2 (s.tagOf n) ++ leBytes 4 s.inc ++ leBytes 8 s.now
  dests.foldl (fun s d => c.classes.foldl (fun s tc =>
    let h : Hdr := { incClaim := s.inc, dstNode := d.1, dstEp := d.2, ctxTag := c.oldTag, opcode := 0x14, tc, msgLen := 16, last := true }
    s.send c.part { hdr := h.sized 16, data }) s) s
/-- Frees a context: mappings, queues, tables, number (Table 13-4, R321). -/
def State.dropCtx (s : State) (n : Nat) : State :=
  match s.ctx? n with
  | none => s
  | some c =>
    let rids := (((s.leaves c).filter (fun x => !leafZero x.2.2)).map (fun x => leafRegion x.2.2)).dedup
    let s := rids.foldl (fun s r => s.modRegion r (fun g => { g with mapCount := g.mapCount - 1 })) s
    let s := c.unmaps.foldl (fun s u => s.respond? u.mb okResp) s
    let s := (s.ctxQueues n).foldl (fun s q => s.dropQueue q) s
    let s := s.freeTree 4 0 c.root
    let s := s.zeroLater ((s.chunks.filter (fun x => x.2 = .ranks n)).map (·.1)) 0
    { s with ctxs := s.ctxs.del n }
/-- Steps 4 to 9 once the context's accepted writes and completions are done: `TEARDOWN_DONE`, quarantine, and the command
that waits (R285, R320, R323). -/
def State.endTeardown (s : State) (n : Nat) (c : Context) : State :=
  let s := s.kettleOut c.part
  let s := ((s.dropEgress c.oldTag c.part).sendEnded n c).sweepExts
  let ev : Ev := { typ := 7, obj := n, ctx := some c.oldTag, body := s.tagOf n + at_ (sat 32 c.cancelled) 32 32 + at_ c.dropped 64 64 }
  let s := s.postPart c.part ev
  let s := if c.fmAsked then s.postFm ev else s
  let s := s.modCtx n (fun c => { c with st := .tornDown, classes := [], mb := none })
  let s := { s with quarantine := addSorted s.quarantine n }
  let s := if c.destroy then s.dropCtx n else s
  s.respond? c.mb okResp
/-- TEARDOWN_COMPLETE (R322, R323): while the MPC restarts it waits (R319). -/
def execTeardownComplete (ctx : Nat) (s : State) : Host.Outcome State Fault Refusal :=
  settled (match s.ctx? ctx with
    | none => s
    | some c =>
      if c.st != .tearing || s.mpc.restarting || s.tagBusy c.oldTag
          || s.descs.any (fun d => (s.ctxQueues ctx).contains d.q) || s.ownOut.any (fun x => x.1.1 == ctx) then s
      else s.endTeardown ctx c)
/-- QUARANTINE_EXPIRY (R285). -/
def execQuarantineExpiry (ctx : Nat) (s : State) : Host.Outcome State Fault Refusal :=
  settled { s with quarantine := dropVal s.quarantine ctx }

/-! Commands (Table 13-4, R431). -/

/-- The context of a tag's number, whatever the generation. -/
def State.anyGen (s : State) (tag : Nat) : Option Context := if tag < 65536 then s.ctx? (tagNum tag) else none
/-- CTX_TEARDOWN (R322, R431): it completes at step 9. -/
def execCtxTeardown (m tag : Nat) (s : State) : Host.Outcome State Fault Refusal :=
  let n := tagNum tag
  settled (match s.anyGen tag with
    | none => s.command m {} [bad true 0] id
    | some c =>
      s.command m { own := [some c.part] } [chk (c.mirror && s.standby) .notPermitted, chk (s.ctxTearing tag) .busy]
        (fun s =>
          if s.tagOf n != tag || c.st != .active then s.respond m { status := .okEmpty }
          else s.startTeardown n (some m) (m == 0) false))
/-- CTX_REVIVE (R321, R431). -/
def execCtxRevive (m tag : Nat) (s : State) : Host.Outcome State Fault Refusal :=
  let n := tagNum tag
  let c := (s.ctxOfTag tag).getD { part := 64 }
  settled (s.command m { own := [s.tagPart tag] }
    [bad (s.ctxBad tag) 0, chk (s.ctxStandby tag) .notPermitted,
     chk (c.st == .tearing || (c.st == .tornDown && s.quarantine.contains n)) .busy]
    (fun s =>
      if c.st == .active then s.respond m { status := .okEmpty, body := [(2, s.tagOf n)] }
      else (s.modCtx n (fun c => { c with st := .active })).respond m (okBody [(2, s.tagOf n)])))
/-- CTX_DESTROY (R321, R431): of an ACTIVE context, once it is torn down. -/
def execCtxDestroy (m tag : Nat) (s : State) : Host.Outcome State Fault Refusal :=
  let n := tagNum tag
  settled (s.command m { own := [s.tagPart tag] }
    [bad (s.ctxBad tag) 0, chk (s.ctxStandby tag) .notPermitted, chk (s.ctxTearing tag) .busy]
    (fun s =>
      if (s.ctxOfTag tag).any (fun c => c.st == .active) then s.startTeardown n (some m) (m == 0) true
      else (s.dropCtx n).respond m okResp))

/-! Partition reset (R326, R327). -/

/-- The contexts of a partition. -/
def State.ctxsOf (s : State) (p : Nat) : List (Nat × Context) := s.ctxs.filter (fun c => c.2.part == p)
/-- Whether a partition holds mirrored contexts or regions. -/
def State.partMirrored (s : State) (p : Nat) : Bool :=
  s.ctxs.any (fun c => c.2.part == p && c.2.mirror) || s.regions.any (fun r => r.2.part == p && r.2.mirror)
/-- Steps 1 and 2: doorbells and commands are closed, and every ACTIVE context is torn down. -/
def State.startReset (s : State) (p : Nat) (m : Option Nat) : State :=
  let act := (s.ctxsOf p).filter (fun c => c.2.st == .active)
  let s := s.modPart p (fun q => { q with resetting := true, resetMb := m, tornDown := act.length, destroyed := 0 })
  act.foldl (fun s c => s.startTeardown c.1 none false false) s
/-- PARTITION_RESET (R326, R338, R430): it completes with the reset. -/
def execPartitionReset (m part : Nat) (s : State) : Host.Outcome State Fault Refusal :=
  settled (s.command m { own := [some part] }
    [bad (63 < part) 0, chk (s.standby && s.partMirrored part) .notPermitted,
     chk ((s.part? part).all (fun p => p.resetting)) .busy]
    (fun s => s.startReset part (some m)))
/-- Whether a region holds the ring of an event queue. -/
def State.holdsEq (s : State) (rid : Nat) : Bool := s.eqs.any (fun e => e.2.ring / 2 ^ 44 == rid)
/-- Sets every byte of a region to zero in place (R326 step 4), once the copies that caching agents hold are recalled. -/
def State.zeroRegion (s : State) (r : Region) : State :=
  match s.extents.at? r.extent with
  | none => s
  | some x =>
    let (ok, s) := s.recallAll (x.chunks.flatMap s.chunkCopies) true
    if ok then x.chunks.foldl (fun s c => s.zeroChunk c) s else s
/-- Steps 3 and 4: contexts, queues, collectives and shapers go; regions go or stay. -/
def State.resetObjects (s : State) (p : Nat) (q : Partition) : State :=
  let s := (s.ctxsOf p).foldl (fun s c => s.dropCtx c.1) s
  let s := { s with shapers := s.shapers.filter (fun x => x.2.1 != p) }
  (s.regionsOf p).foldl (fun s r =>
    if r.2.st != 1 then s
    else
      let s := s.modRegion r.1 (fun r => { r with
        mapCount := 0, writeHold := false, holdExt := 0, holdDesc := 0, holdReq := 0 })
      if q.zeroing != 2 then s
      else if s.holdsEq r.1 then s.zeroRegion r.2
      else if r.2.mig.isSome || s.served r.1 || s.inPub r.1 then s
      else (s.modRegion r.1 (fun r => { r with st := 2, destroyMb := none })).modPart p (fun q => { q with destroyed := q.destroyed + 1 })) s
/-- Whether a region of the partition is still to be destroyed, or one that stays still has copies to recall. -/
def State.resetWaits (s : State) (p : Nat) (q : Partition) : Bool :=
  q.zeroing == 2 && (s.regionsOf p).any (fun r => !s.holdsEq r.1 ||
    (s.extents.at? r.2.extent).any (fun x => x.chunks.any (fun c => !(s.chunkCopies c).isEmpty)))
/-- Steps 5 and 6: event queues afresh, the rings zeroed, and the event. -/
def State.endReset (s : State) (p : Nat) (q : Partition) : State :=
  let s := (s.eqs.filter (fun e => e.2.part == p)).foldl (fun s e =>
    (s.modEq e.1 (fun e => { e with pi := 0, ci := 0, armed := true, overflow := false, since := 0, fresh := 0, outbox := [] })).zeroRing
      e.1 e.2 none) s
  let ev : Ev := { typ := 8, obj := p, body := at_ (sat 32 q.tornDown) 32 0 + at_ (sat 32 q.destroyed) 32 32 }
  let s := (s.postPart p ev).postFm ev
  let s := s.updMb (p + 1) (fun b => { b with vfReset := false })
  (s.modPart p (fun q => { q with resetting := false, resetMb := none })).respond? q.resetMb okResp
/-- PARTITION_RESET_DONE (R319, R326): each time it comes, it takes the reset as far as it can go: contexts torn down first,
then their destruction, then the regions' zeroing. -/
def execPartitionResetDone (part : Nat) (s : State) : Host.Outcome State Fault Refusal :=
  settled (match s.part? part with
    | none => s
    | some q =>
      if !q.resetting || s.mpc.restarting || (s.ctxsOf part).any (fun c => c.2.st == .tearing) then s
      else
        let s := s.resetObjects part q
        let q := (s.part? part).getD q
        if s.resetWaits part q then s else s.endReset part q)

end Sys2Proof.Machine
end

