-- ==== Sys2Proof/Machine/Topo.lean ====
section
/-! DEFINITION. Status words of ports and of bring-up, the topology check, and readiness (R179, R329, R358 to R362). -/

namespace Sys2Proof.Machine

/-! Modes and the port status word (Tables 07-1, 07-4). -/

/-- Width (0 x1, 1 x2, 2 x4) and rate (0 53.125, 1 106.25, 2 212.5 Gb/s) of a mode. -/
def modeWR : Nat → Nat × Nat
  | 1 => (2, 2) | 2 => (2, 1) | 3 => (1, 2) | 4 => (2, 0) | 5 => (1, 1) | 6 => (0, 2) | 7 => (1, 0) | 8 => (0, 1)
  | _ => (0, 0)
/-- The code of a port state. -/
def PState.code : PState → Nat
  | .disabled => 0 | .down => 1 | .training => 2 | .up => 3 | .degraded => 4 | .absent => 5
/-- The state code of a port: a port that is not assembled is ABSENT. -/
def State.portState (s : State) (p : Nat) : Nat := if s.variant.ports ≤ p then 5 else (s.port p).st.code
/-- The lanes that carry the link: in PL1 the lowest one alone, in PL2 none (R185). -/
def Port.activeLanes (q : Port) : List Nat :=
  if q.pstate = 2 then [] else if q.pstate = 1 then (bitsOf q.lanes 4).take 1 else bitsOf q.lanes 4
/-- The port status word. -/
def State.portWord (s : State) (p : Nat) : Nat :=
  let q := s.port p
  let wr := modeWR q.mode
  let pa := fun (f : Partner → Nat) => (q.partner.map f).getD 0
  at_ (pa (·.node)) 16 48 + at_ (pa (·.port)) 8 40 + at_ (pa (·.kind)) 2 38 + at_ (s.portState p) 4 34 + at_ q.pstate 2 32
  + at_ wr.1 2 30 + at_ wr.2 2 28 + at_ q.weight 5 23 + at_ ((q.activeLanes.map (fun i => 2 ^ i)).sum) 4 19 + at_ q.feat 4 15 + at_ (b2n q.admOk) 1 14
  + at_ (b2n q.saved) 1 13 + at_ (if s.variant.ports ≤ p then 10 else q.cause) 5 8 + at_ (sat 8 q.retrains) 8 0
/-- A port event (Table 18-8): codes 0x13 up, 0x14 degraded, 0x15 down. -/
def State.portEvent (s : State) (typ p : Nat) : State := s.postFm { typ, obj := p, body := s.portWord p }
/-- `PORT_PARTNER_CHANGED`, with the incarnation held and the one advertised. -/
def State.partnerChanged (s : State) (p held new : Nat) : State :=
  s.postFm { typ := 0x16, obj := p, body := s.portWord p + at_ held 32 64 + at_ new 32 96 }

/-! The boot status word (Table 15-3). -/

/-- The boot status word. -/
def State.bootWord (s : State) : Nat :=
  let b := s.boot
  at_ b.readyMs 32 32 + at_ b.stage 4 28 + at_ b.kind 4 24 + at_ b.topoPath 2 22 + at_ b.imageSlot 1 21
  + at_ (b2n b.imageFallback) 1 20 + at_ (b2n b.memSaved) 1 19 + at_ (b2n b.portSaved) 1 18 + at_ b.failCause 4 8
  + at_ (sat 8 b.absentNew) 8 0

/-- Changes the bring-up state. -/
def State.updBoot (s : State) (f : Boot → Boot) : State := { s with boot := f s.boot }
/-- READY (R329, R358): the time, `RESET_DONE`, and after a warm reset `CAUSE_OUTSIDE` to every partition. -/
def State.enterReady (s : State) : State :=
  let s := s.updBoot (fun b => { b with stage := 8, readyMs := (s.clock.aon - b.startAon) / 1000000, readyOnce := true, waitWindow := [] })
  let s := s.postFm { typ := 0x1D, body := s.bootWord }
  if s.boot.warm then s.postParts (s.parts.map (·.1)) (fun p => causeOutside 0 6 ((s.regionsOf p).map (·.1)) 0) else s
end Sys2Proof.Machine

namespace Sys2Proof
open Sys2Proof.Machine

/-! The expected topology (Tables 15-4 to 15-6). -/

def TopoExpect.berWindow (t : TopoExpect) : Nat := bfld t.policy 49 36
def TopoExpect.corrPpm (t : TopoExpect) : Nat := bfld t.policy 35 24
def TopoExpect.crcMax (t : TopoExpect) : Nat := bfld t.policy 23 16
/-- The partner expected on a port: node and port. -/
def TopoExpect.entry (t : TopoExpect) (p : Nat) : Option (Nat × Nat) :=
  match t.ports[p]? with
  | some e => if bfld e 31 31 = 1 then some (bfld e 15 0, bfld e 23 16) else none
  | none => none
/-- A neighbour's policy: node, whether required, links and weight needed. -/
structure Neighbour where
  node : Nat
  required : Bool := false
  links : Nat := 1
  weight : Nat := 0
  deriving DecidableEq, Repr
/-- The neighbours: the valid entries, then each node that a valid port entry alone names (R360). -/
def TopoExpect.all (t : TopoExpect) : List Neighbour :=
  let given := (t.neighbours.filter (fun e => bfld e 47 47 == 1)).map (fun e =>
    ({ node := bfld e 63 48, required := bfld e 46 46 == 1, links := bfld e 45 39, weight := bfld e 38 28 } : Neighbour))
  let named := ((List.range 96).filterMap (fun p => (t.entry p).map (·.1))).dedup
  given ++ (named.filter (fun n => !given.any (fun g => g.node == n))).map (fun n => ({ node := n } : Neighbour))
end Sys2Proof

namespace Sys2Proof.Machine

/-- Whether an UP port matches its entry (R360). -/
def State.matched (s : State) (t : TopoExpect) (p : Nat) : Bool :=
  (s.port p).isUp && (t.entry p).any (fun e => (s.port p).partner.any (fun q => q.node == e.1 && q.port == e.2))
/-- Whether a neighbour passes (R360). -/
def State.passes (s : State) (t : TopoExpect) (n : Neighbour) : Bool :=
  let ps := s.portList.filter (fun p => s.matched t p && (t.entry p).any (fun e => e.1 == n.node))
  n.links ≤ ps.length && n.weight ≤ (ps.map (fun p => (s.port p).weight)).sum
/-- Whether every required neighbour passes. -/
def State.requiredPass (s : State) (t : TopoExpect) : Bool := t.all.all (fun n => !n.required || s.passes t n)
/-- Whether the check completes before its wait ends (R361). -/
def State.topoComplete (s : State) (t : TopoExpect) : Bool :=
  if t.all.any (·.required) then s.requiredPass t else t.all.all (s.passes t)
/-- The topology check after a change (R361, R362): it completes, HELD_TOPO ends, or the last fallback window has
finished. -/
def State.topoCheck (s : State) : State :=
  match s.boot.stage, s.boot.topoUse with
  | 7, some t => if s.topoComplete t then s.enterReady else s
  | 7, none => if s.boot.waitWindow.isEmpty then s.enterReady else s
  | 9, some t => if s.requiredPass t then s.enterReady else s
  | _, _ => s
/-- A port's fallback window is over, or cannot end (R362). -/
def State.windowOver (s : State) (p : Nat) : State :=
  let s := (s.updPort p (fun q => { q with window := none })).updBoot (fun b => { b with waitWindow := dropVal b.waitWindow p })
  s.topoCheck
/-- Records a partner as the one admitted on its port (R180, R360). -/
def State.admitPort (s : State) (p : Nat) : State := s.updPort p (fun q => { q with admOk := true, lastUp := q.partner })
/-- The topology that a port coming up now is matched against: that of this bring-up, or before stage TOPOLOGY the one
held (R360, R361). -/
def State.topoNow (s : State) : Option TopoExpect := if s.boot.stage < 7 then s.boot.topo else s.boot.topoUse
/-- Opens a port's fallback window: its error counts so far (R362). -/
def Port.openWindow (q : Port) : Port := { q with window := some (q.stats.or 1 0, q.stats.or 0 0, q.stats.or 2 0) }
/-- Admission at start-up: by the expected topology, or by the fallback window (R360, R362). True when the partner is not the
expected one. -/
def State.admitStart (s : State) (p : Nat) : Bool × State :=
  let shut := fun (q : Port) => { q with admOk := false }
  match s.topoNow with
  | some t => if s.matched t p then (false, s.admitPort p) else (true, s.updPort p shut)
  | none => (false, s.updPort p (fun q => (shut q).openWindow))
/-- Admission of a port that has come up (R180, R360 to R362): at start-up as bring-up decides, later by the partner's
identity. True when the partner has changed. -/
def State.admission (s : State) (p : Nat) : Bool × State :=
  match (s.port p).lastUp with
  | some l =>
    if s.boot.stage != 8 then s.admitStart p
    else if (s.port p).partner.any (fun r => r.serial == l.serial && r.node == l.node && r.port == l.port) then
      (false, s.admitPort p)
    else (true, s.updPort p (fun q => { q with admOk := false }))
  | none => s.admitStart p

end Sys2Proof.Machine
end

