-- ==== Sys2Proof/Machine/Ports.lean ====
section
/-! DEFINITION. Ports: capability blocks, training, port states, link loss, low-power states, port commands (R168 to R186,
R196, R214, R215, R229). -/

namespace Sys2Proof.Machine

/-! The capability block (Table 07-2, R171). -/

/-- Features offered: BYP, PREEMPT, LPM, and MIRROR where the mirror function is present. -/
def State.ownFeat (s : State) : Nat := 11 + (if s.variant.mirror && !s.mirror.absent then 4 else 0)
/-- A block's fields below its `CRC`, as the 60 bytes that the `CRC` covers. -/
def blkCrc (w : Nat) : Nat := crc32c (leBytes 60 w)
/-- The record format of the running firmware (R176, R256). -/
def State.recordFormat (s : State) : Nat :=
  Config.recordFormat (Config.sha384 (s.fw.caddy.mem.read 0 s.fw.caddy.len))
/-- Whether a saved record is valid for the partner of a block: its CRC and format match, and so do its partner fields (R176). -/
def State.recordFor (s : State) (r : PortRecord) (b : BitVec 512) : Bool :=
  r.crc == crc32c r.body && r.format == s.recordFormat && r.serial == bfld b 447 384 && r.port == bfld b 367 360
/-- The block that a port sends: `RATES` and `WIDTHS` as they stood when the training began (R171, Table 16-13), `FAST` for the
partner whose block came last. -/
def State.capBlock (s : State) (p : Nat) : BitVec 512 :=
  let q := s.port p
  let t := q.train
  let fast := q.record.any (fun r => (t.blk.orElse (fun _ => t.lastBlk)).any (fun b => s.recordFor r b))
  let w := at_ s.inc 32 448 + at_ s.fuses.serial.toNat 64 384 + at_ s.node 16 368 + at_ p 8 360 + at_ 2 2 358
    + at_ 1 8 350 + at_ 1 8 342 + at_ t.offRates 3 339 + at_ t.offWidths 3 336 + at_ 1 1 335
    + at_ s.ownFeat 4 331 + at_ (b2n fast) 1 330 + at_ t.lanes 4 326 + at_ (b2n t.blk.isSome) 1 325
    + at_ (b2n (t.step == 5)) 1 324
  BitVec.ofNat 512 (w + at_ (blkCrc w) 32 480)
/-- Whether a received block's `CRC` matches. -/
def blkValid (b : BitVec 512) : Bool := bfld b 511 480 == blkCrc (b.toNat % 2 ^ 480)
/-- A block without its `CRC` and `RCVD`; of a `CONFIRM` block, without `CONFIRM` and `LANES_OK` too. Two blocks that differ
here are different blocks for R172. -/
def blkCore (b : BitVec 512) (confirm : Bool) : Nat :=
  let w := b.toNat % 2 ^ 480
  let w := w - at_ (fld w 325 325) 1 325
  if confirm then w - at_ (fld w 324 324) 1 324 - at_ (fld w 329 326) 4 326 else w

/-! Mode selection (R170, R173, R177). -/

/-- The lanes that a mode uses among the usable ones, 0 when it cannot run (Table 07-1). -/
def modeLanes (mode ok : Nat) : Nat :=
  match (modeWR mode).1 with
  | 2 => if ok % 16 = 15 then 15 else 0
  | 1 => if ok % 4 = 3 then 3 else if ok / 4 % 4 = 3 then 12 else 0
  | _ => ((List.range 4).find? (fun i => bit ok i)).elim 0 (fun i => 2 ^ i)
/-- The first mode that rates, widths and lanes allow. -/
def firstMode (rates widths ok : Nat) : Option Nat :=
  (List.range' 1 9).find? (fun m => bit rates (modeWR m).2 && bit widths (modeWR m).1 && modeLanes m ok != 0)
/-- The mode that R173 gives for a partner's block, or the cause of Table 07-4 for which there is none. -/
def Port.select (q : Port) (b : BitVec 512) (lanes theirs : Nat) : Nat ⊕ Nat :=
  let rates := Nat.land (Nat.land q.train.offRates q.train.rates) (bfld b 341 339)
  let widths := Nat.land q.train.offWidths (bfld b 338 336)
  if bfld b 335 335 = 0 then .inr 4
  else
    match firstMode rates widths (Nat.land lanes theirs) with
    | none => .inr 3
    | some m =>
      if 1 < bfld b 357 350 || bfld b 349 342 < 1 then .inr 5
      else if !bit b.toNat 331 then .inr 6
      else .inl m
/-- The first mode that both advertisements permit (R177). -/
def Port.bestMode (q : Port) (b : BitVec 512) : Nat :=
  (firstMode (Nat.land q.train.offRates (bfld b 341 339)) (Nat.land q.train.offWidths (bfld b 338 336)) 15).getD 0

/-! Losing a link (R184, R196, R226, R229). -/

/-- A request of the controller's own fails: its descriptor ends (R103), a snoop is sent again (log 86). -/
def State.failOwn (s : State) (o : OwnMsg) (st : Status) : State :=
  match s.outOf o with
  | some (d, _) => (s.dropOwn o).endDesc d.q d.i st true
  | none => (s.dropOwn o).resnoop o
/-- The packets that go down with a link: begun or whole in the replay buffer, in progress, or queued. -/
def Link.lost (l : Link) : List Packet :=
  (l.midway.map (·.1)).toList
  ++ l.replay.flatMap (fun f => f.units.filterMap (fun u => match u with
      | .head p => some p
      | _ => none))
  ++ (l.holder.map (·.pkt)).toList ++ l.egress.map (·.2)
/-- The lost requests, one header for each message. -/
def lostRequests (ps : List Packet) : List Hdr :=
  ps.foldl (fun (l : List Hdr) p => if isRequest p.hdr.opcode && !l.any (fun h => h.key == p.hdr.key) then l ++ [p.hdr] else l) []
/-- Two copies of a packet, whatever their channels. -/
def samePacket (a b : Packet) : Bool := { a.hdr with vc := 0 } == { b.hdr with vc := 0 } && a.data == b.data && a.msg == b.msg
/-- The ingress copy of a transit packet that was being forwarded has been cut: its copy at port `q` goes, and one in progress on the
link there is cut (R211). -/
def State.abortCopy (s : State) (q : Nat) (pk : Packet) : State :=
  s.updLink q (fun l =>
    match l.holder.filter (fun h => h.src == 64 && samePacket h.pkt pk) with
    | some h =>
      if h.sent = 0 then
        { l with holder := none, grant := none, credits := listSet l.credits h.input 0 (l.credits.getD h.input 0 + h.pkt.units) }
      else { l with abort := true }
    | none => { l with egress := l.egress.eraseP (fun x => x.1 == 64 && samePacket x.2 pk) })
/-- A link that starts afresh: what was received stays, what waits at egress waits on. -/
def Link.quiet (l : Link) : Link :=
  { inbox := [], earlier := l.earlier ++ l.inbox, egress := l.egress, turn := l.turn, inject := l.inject }
/-- All lanes of a port go to electrical idle: nothing of its link layer is left, and packets that were being forwarded from it are cut
at their egress (R178, R183, R196, R211). -/
def State.silence (s : State) (p : Nat) : State :=
  let out := (s.port p).link.rxOut
  out.foldl (fun s x => s.abortCopy x.1 x.2) (s.updLink p Link.quiet)
/-- A port's link is gone: its replay buffer, partial packets, credits and queues are discarded, its pins released, the lost
requests of others answered `ST_TARGET_DOWN`, and its own requests sent on it failed; routing may not use it (R180). -/
def State.loseLink (s : State) (p : Nat) : State :=
  let gone := lostRequests (s.port p).link.lost
  let s := (s.silence p).updLink p (fun l => { l with egress := [] })
  let s := s.updPort p (fun q => { q with mode := 0, lanes := 0, feat := 0, pstate := 0, lp := 0, admOk := false, window := none })
  let s := s.updNet (fun n => { n with pins := n.pins.filter (fun x => x.port != p) })
  let mine := s.net.own.filter (fun o => o.ports.contains p
    || gone.any (fun h => h.srcNode == s.node && o.node == h.dstNode && o.tag == h.tag && o.opcode == h.opcode))
  let s := mine.foldl (fun s o => if s.net.own.contains o then s.failOwn o .targetDown else s) s
  (gone.filter (fun h => h.srcNode != s.node)).foldl (fun s h => s.refuse p 65 h .targetDown none) s

/-! Training (R175, R178). -/

/-- Whether a port runs the training steps: TRAINING, or waking from PL2 (R186). -/
def Port.trains (q : Port) : Bool := q.st == .training || (q.isUp && q.lp == 2)
/-- Whether ports may train: past stage INCARNATION, not stopped or held, the MPC running (R183, R319, R331, R351). -/
def State.portsLive (s : State) : Bool :=
  6 ≤ s.boot.stage && s.boot.stage ≤ 9 && !s.boot.held && !s.boot.stopped && !s.mpc.restarting && !s.power.tapTest
/-- Training from its first step, with what `PORT_SET_MODES` has left advertised (R171, Table 16-13). -/
def Port.freshTrain (q : Port) : Training := { offRates := q.rates, offWidths := q.widths }
/-- A port starts to train. -/
def State.startTraining (s : State) (p : Nat) : State :=
  (s.silence p).updPort p (fun q => { q with
    st := .training, pstate := 0, lp := 0, retrains := sat 8 (q.retrains + 1), train := q.freshTrain })
/-- The retry timer after a number of consecutive failures, in ms (R178). -/
def retryMs (failures : Nat) : Nat :=
  match failures with
  | 0 | 1 => 1
  | 2 => 10
  | 3 => 100
  | _ => 1000
/-- A training step fails (Table 07-3); a port that was waking from PL2 tries again until its wake times out (R186). -/
def State.failTraining (s : State) (p cause : Nat) : State :=
  let s := s.silence p
  if (s.port p).st != .training then s.updPort p (fun q => { q with train := q.freshTrain })
  else
    let s := s.updPort p (fun q => { q with st := .down, cause, failures := q.failures + 1, retry := retryMs (q.failures + 1) })
    let s := if 8 ≤ (s.port p).failures then s.portEvent 0x15 p else s
    s.windowOver p
/-- Runs `f` on a port that is in a training step. -/
def State.inStep (s : State) (p step : Nat) (f : Port → State → State) : State :=
  let q := s.port p
  if p < s.variant.ports && q.trains && q.train.step == step then f q s else s
/-- Changes a port's training progress. -/
def State.updTrain (s : State) (p : Nat) (f : Training → Training) : State := s.updPort p (fun q => { q with train := f q.train })
/-- The lanes that a training's target mode uses, among those that both sides have locked. -/
def Training.needs (t : Training) (mode : Nat) (b : BitVec 512) : Nat := modeLanes mode (Nat.land t.lanes (bfld b 329 326))
/-- Step 3 to step 4 with a mode: from the saved record when R175 step 4 lets it. -/
def State.aim (s : State) (p mode : Nat) (b : BitVec 512) : State :=
  let q := s.port p
  let fast := bfld b 330 330 == 1 && q.record.any (fun r =>
    s.recordFor r b && (modeWR r.mode).2 == (modeWR mode).2
    && (bitsOf (q.train.needs mode b) 4).all (fun i => r.settings.any (fun x => x.1 == i)))
  s.updTrain p (fun t => { t with step := 4, mode, saved := fast })
/-- Step 3 after the exchange (R172, R173). -/
def State.exchanged (s : State) (p : Nat) : State :=
  let q := s.port p
  match q.train.blk with
  | some b =>
    if !q.train.rcvd then s
    else
      match q.select b q.train.lanes (bfld b 329 326) with
      | .inl m => s.aim p m b
      | .inr c => s.failTraining p c
  | none => s
/-- Step 5: the mode is selected again from both confirmed blocks. -/
def State.confirm (s : State) (p : Nat) : State :=
  let q := s.port p
  match q.train.blk, q.train.confirmed with
  | some _, some c =>
    match q.select c q.train.lanes (bfld c 329 326) with
    | .inr cause => s.failTraining p cause
    | .inl m =>
      if m = q.train.mode then s.updTrain p (fun t => { t with step := 6 })
      else if 3 ≤ q.train.rounds + 1 then s.failTraining p 2
      else (s.updTrain p (fun t => { t with rounds := t.rounds + 1, confirmed := none })).aim p m c
  | _, _ => s

/-- SIGNAL_DETECT (R175 step 1). -/
def execSignalDetect (p : Nat) (s : State) : Host.Outcome State Fault Refusal :=
  settled (s.rouse.inStep p 1 (fun _ s => s.updTrain p (fun t => { t with step := 2 })))
/-- NO_SIGNAL_TIMEOUT (R175 step 1). -/
def execNoSignalTimeout (p : Nat) (s : State) : Host.Outcome State Fault Refusal :=
  settled (s.inStep p 1 (fun _ s => s.failTraining p 1))
/-- LANE_LOCK (R175 step 2). -/
def execLaneLock (p lanes : Nat) (s : State) : Host.Outcome State Fault Refusal :=
  settled (s.inStep p 2 (fun _ s => s.updTrain p (fun t => { t with lanes := lanes % 16 })))
/-- A valid block before confirmation: held once it has come twice, and the exchange restarted when it has changed (R172). -/
def Training.take (t : Training) (b : BitVec 512) : Training :=
  match t.blk with
  | some h =>
    if blkCore h false = blkCore b false then { t with lastBlk := some b, rcvd := bfld b 325 325 == 1 }
    else { t with step := 2, blk := none, rcvd := false, confirmed := none, lastBlk := some b }
  | none => if t.lastBlk = some b then { t with blk := some b, lastBlk := some b, rcvd := bfld b 325 325 == 1 }
    else { t with lastBlk := some b }
/-- A valid `CONFIRM` block: confirmed once it has come twice. -/
def Training.takeConfirm (t : Training) (b : BitVec 512) : Training :=
  match t.blk with
  | some h =>
    if blkCore h true = blkCore b true then
      { t with lastBlk := some b, confirmed := if t.lastBlk = some b then some b else t.confirmed }
    else { t with step := 2, blk := none, rcvd := false, confirmed := none, lastBlk := some b }
  | none => { t with lastBlk := some b }
/-- CAPABILITY_BLOCK (R172, R173, R175). -/
def execCapabilityBlock (p : Nat) (blk : BitVec 512) (s : State) : Host.Outcome State Fault Refusal :=
  settled (
    let q := s.port p
    if !(decide (p < s.variant.ports) && q.trains && decide (2 ≤ q.train.step)) then s
    else if !blkValid blk then s.updTrain p (fun t => { t with lastBlk := none })
    else
      let s := s.updTrain p (fun t => if bfld blk 324 324 = 1 then t.takeConfirm blk else t.take blk)
      match (s.port p).train.step with
      | 2 => s.exchanged p
      | 5 => s.confirm p
      | _ => s)
/-- EXCHANGE_TIMEOUT (R175 step 2). -/
def execExchangeTimeout (p : Nat) (s : State) : Host.Outcome State Fault Refusal :=
  settled (s.inStep p 2 (fun _ s => s.failTraining p 7))
/-- SAVED_RECORD_LOCK_TIMEOUT (R175 step 4): full equalisation follows. -/
def execSavedRecordLockTimeout (p : Nat) (s : State) : Host.Outcome State Fault Refusal :=
  settled (s.inStep p 4 (fun _ s => s.updTrain p (fun t => { t with saved := false })))
/-- The record that a full equalisation writes (R176): the settings that it found are free values. -/
def State.newRecord (s : State) (t : Training) (lanes : Nat) : Option PortRecord × State :=
  match t.blk with
  | none => (none, s)
  | some b =>
    let (sets, s) := (bitsOf (modeLanes t.mode lanes) 4).foldl (fun (r : List (Nat × Nat) × State) i =>
      let (v, s) := r.2.draw
      (r.1 ++ [(i, v % 2 ^ 56)], s)) ([], s)
    let r : PortRecord := { serial := bfld b 447 384, port := bfld b 367 360, mode := t.mode, settings := sets, format := s.recordFormat }
    (some { r with crc := crc32c r.body }, s)
/-- EQUALISATION_DONE (R175 steps 4 and 5, R176): `lanes` have locked at the target rate. When a saved record does not lock every lane
of the target mode, full equalisation follows. -/
def execEqualisationDone (p lanes : Nat) (s : State) : Host.Outcome State Fault Refusal :=
  let lanes := lanes % 16
  settled (s.inStep p 4 (fun q s =>
    let need := (q.train.blk.map (fun b => q.train.needs q.train.mode b)).getD 0
    if q.train.saved && Nat.land lanes need != need then s.updTrain p (fun t => { t with saved := false })
    else if lanes = 0 then
      -- no lane locks: the rate leaves the allowed set, and R173 selects again
      let r := (modeWR q.train.mode).2
      let s := s.updTrain p (fun t => { t with rates := t.rates - (if bit t.rates r then 2 ^ r else 0), rounds := t.rounds + 1 })
      if 3 ≤ q.train.rounds + 1 then s.failTraining p 2 else s.exchanged p
    else
      let (rec_, s) := if q.train.saved then (q.record, s) else s.newRecord q.train lanes
      let s := s.updPort p (fun q => { q with record := rec_ })
      (s.updTrain p (fun t => { t with step := 5, lanes })).confirm p))
/-- TRAINING_RETRY_TIMER (R178). -/
def execTrainingRetryTimer (p : Nat) (s : State) : Host.Outcome State Fault Refusal :=
  settled (if p < s.variant.ports && (s.port p).st == .down && s.portsLive then s.startTraining p else s)

/-! Coming up, and link loss (R175 step 6, R177, R178, R180 to R182). -/

/-- What a held block says of the partner. -/
def partnerOf (b : BitVec 512) : Partner :=
  { serial := bfld b 447 384, node := bfld b 383 368, port := bfld b 367 360, kind := bfld b 359 358, inc := bfld b 479 448 }
/-- A port's link layer is initialised: UP or DEGRADED, counted, admitted or not, with its events. -/
def State.declareUp (s : State) (p : Nat) : State :=
  let q := s.port p
  match q.train.confirmed with
  | none => s
  | some b =>
    let new := partnerOf b
    let held := (q.partner.filter (fun r => r.serial == new.serial && r.port == new.port)).map (·.inc)
    let deg := q.train.mode != q.bestMode b
    let waking := q.st != .training
    let s := s.updPort p (fun q => { q with
      st := if deg then .degraded else .up
      pstate := 0
      lp := 0
      mode := q.train.mode
      lanes := modeLanes q.train.mode (Nat.land q.train.lanes (bfld b 329 326))
      feat := Nat.land s.ownFeat (bfld b 334 331)
      saved := q.train.saved
      cause := 0
      failures := 0
      retry := 1
      partner := some new
      stats := q.stats.upd 12 0 (fun n => sat 32 (n + 1)) })
    let (changed, s) := s.admission p
    let s := if waking then s else s.portEvent (if deg then 0x14 else 0x13) p
    let s := if changed || held.any (fun h => h != new.inc) then s.partnerChanged p (held.getD 0) new.inc else s
    s.topoCheck
/-- Link loss on a port that is UP or DEGRADED (Table 07-3, R306). -/
def State.linkLoss (s : State) (p : Nat) : State :=
  let q := s.port p
  if !q.isUp then s
  else
    let s := (s.loseLink p).startTraining p
    let s := s.portEvent 0x15 p
    let s := match q.dedicated with
      | some d => s.postPart d (causeOutside p 4 [] 1)
      | none => s
    s.windowOver p
/-- A link event of a port that is awake (R182). -/
def State.awake (s : State) (p : Nat) (f : Port → State → State) : State :=
  let q := s.port p
  if q.isUp && q.pstate != 2 then f q s else s
/-- LINK_LOSS_TIMEOUT (R182, R196). -/
def execLinkLossTimeout (p : Nat) (s : State) : Host.Outcome State Fault Refusal :=
  settled (s.awake p (fun _ s => s.linkLoss p))
/-- LANE_SIGNAL_LOSS (R182). -/
def execLaneSignalLoss (p lane : Nat) (s : State) : Host.Outcome State Fault Refusal :=
  settled (s.awake p (fun q s => if q.activeLanes.contains lane then s.linkLoss p else s))
/-- FEC_LOCK_LOSS (R182). -/
def execFecLockLoss (p : Nat) (s : State) : Host.Outcome State Fault Refusal :=
  settled (s.awake p (fun _ s => s.linkLoss p))
/-- UNCORRECTABLE_BURST (R178). -/
def execUncorrectableBurst (p : Nat) (s : State) : Host.Outcome State Fault Refusal :=
  settled (s.awake p (fun _ s => s.linkLoss p))

/-! Low power (R185, R186). -/

/-- Whether LPM is in use. -/
def Port.lpm (q : Port) : Bool := bit q.feat 3
/-- Whether a port's egress is empty. -/
def Link.egressEmpty (l : Link) : Bool := l.holder.isNone && l.egress.isEmpty
/-- Sends one of the link's own messages to the partner (R193). -/
def State.linkMsg (s : State) (p op : Nat) : State :=
  let q := s.port p
  let h : Hdr := { dstNode := (q.partner.map (·.node)).getD 0xFFFF, srcNode := s.node, opcode := op, ordered := s.ordClass 0,
                   last := true }
  s.egress p 65 { hdr := h }
/-- Takes a link message from the receive buffer. -/
def State.takeLinkMsg (s : State) (p op : Nat) : State :=
  match (s.port p).link.inbox.find? (fun k => k.hdr.opcode == op) with
  | some k => s.consume p k.hdr
  | none => s
/-- A port wakes from PL2: it trains, and the link layer starts afresh, its queues kept (R186). -/
def State.wake (s : State) (p : Nat) : State :=
  (s.silence p).updPort p (fun q => { q with lp := 2, retrains := sat 8 (q.retrains + 1), train := q.freshTrain })
/-- Both lanes and link of a port sleep (Table 07-5); a packet that has come to its egress meanwhile wakes it at once (R186). -/
def State.enterPl2 (s : State) (p : Nat) : State :=
  let s := s.updPort p (fun q => { q with pstate := 2, lp := 0 })
  if (s.port p).link.egress.isEmpty then s else s.wake p
/-- Whether the link owes no acknowledgement. -/
def Link.ackedAll (l : Link) : Bool := l.accepted == 0 && !l.ackDue
/-- Whether a packet of an opcode waits or is in progress at egress. -/
def Link.sending (l : Link) (op : Nat) : Bool :=
  l.egress.any (fun x => x.2.hdr.opcode == op) || l.holder.any (fun h => h.pkt.hdr.opcode == op)
/-- Whether a port's entry to PL2 is complete: the acknowledgement has been acknowledged by the link layer (R186). -/
def Port.entryDone (q : Port) : Bool :=
  let l := q.link
  l.holder.isNone && (
    q.lp == 3 && l.replay.isEmpty && !l.sending 0x71
    || q.lp == 4 && l.ackedAll
    || q.lp == 5 && l.ackedAll && l.replay.isEmpty && !l.sending 0x70)
/-- The entry to PL2, if it is complete. -/
def State.pl2If (s : State) (p : Nat) : State := if (s.port p).entryDone then s.enterPl2 p else s
/-- PL1_ENTRY_TIMER (R185): no data flit for the set time. -/
def execPl1EntryTimer (p : Nat) (s : State) : Host.Outcome State Fault Refusal :=
  settled (s.awake p (fun q s =>
    if q.lpm && q.pstate == 0 then s.updPort p (fun q => { q with pstate := 1 }) else s))
/-- PL2_TIMER (R186). -/
def execPl2Timer (p : Nat) (s : State) : Host.Outcome State Fault Refusal :=
  settled (s.awake p (fun q s =>
    if q.lpm && q.pl2En && q.lp == 0 then (s.linkMsg p 0x70).updPort p (fun q => { q with lp := 1 }) else s))
/-- LP_ACK (R186): the lanes enter electrical idle once it has been acknowledged. -/
def execLpAck (p : Nat) (s : State) : Host.Outcome State Fault Refusal :=
  settled (s.awake p (fun q s =>
    let s := s.takeLinkMsg p 0x71
    if q.lp == 1 then (s.updPort p (fun q => { q with lp := 4 })).pl2If p else s))
/-- LP_REQ (R186): after a request of its own it is the acknowledgement. -/
def execLpReq (p : Nat) (s : State) : Host.Outcome State Fault Refusal :=
  settled (s.awake p (fun q s =>
    let s := s.takeLinkMsg p 0x70
    if q.lp == 1 then (s.updPort p (fun q => { q with lp := 5 })).pl2If p
    else if q.lpm && q.pl2En && q.link.egressEmpty then (s.linkMsg p 0x71).updPort p (fun q => { q with lp := 3 })
    else s.linkMsg p 0x72))
/-- LP_NAK (R186). -/
def execLpNak (p : Nat) (s : State) : Host.Outcome State Fault Refusal :=
  settled (s.awake p (fun q s =>
    let s := s.takeLinkMsg p 0x72
    if q.lp == 1 then s.updPort p (fun q => { q with lp := 0 }) else s))
/-- PL2_WAKE (R186). -/
def execPl2Wake (p : Nat) (s : State) : Host.Outcome State Fault Refusal :=
  settled (if (s.port p).isUp && (s.port p).pstate == 2 && (s.port p).lp != 2 then s.wake p else s)
/-- PL2_WAKE_TIMEOUT (R186). -/
def execPl2WakeTimeout (p : Nat) (s : State) : Host.Outcome State Fault Refusal :=
  settled (if (s.port p).isUp && (s.port p).lp == 2 then s.linkLoss p else s)

/-! Port commands (Table 16-13). -/

/-- The ports that a mask names. -/
def maskPorts (mask : Nat) : List Nat := bitsOf mask 96
/-- A port command of the fabric manager; absent ports refuse it when `present` is set. -/
def State.portCmd (s : State) (m mask : Nat) (query present : Bool) (need : Nat) (checks : List Check) (eff : State → State) :
    Host.Outcome State Fault Refusal :=
  settled (s.command m { fm := true, query, need }
    (chk (present && (maskPorts mask).any (fun p => !s.portPresent p)) .absentUnit :: bad (2 ^ 96 ≤ mask) 0 :: checks) eff)
/-- Changes every named port, and answers. -/
def State.eachPort (s : State) (m mask : Nat) (f : State → Nat → State) : State :=
  ((maskPorts mask).foldl f s).respond m okResp
/-- PORT_QUERY (R179, R214). -/
def execPortQuery (m mask : Nat) (s : State) : Host.Outcome State Fault Refusal :=
  s.portCmd m mask true false 0 []
    (fun s => s.respond m (okBody ((maskPorts mask).flatMap (fun p => [(8, s.portWord p), (8, (s.port p).word.toNat)]))))
/-- PORT_SET_MODES (R171). -/
def execPortSetModes (m mask rates widths : Nat) (s : State) : Host.Outcome State Fault Refusal :=
  s.portCmd m mask false true 0 [bad (7 < rates) 16, bad (7 < widths) 17]
    (fun s => s.eachPort m mask (fun s p => s.updPort p (fun q => { q with rates, widths })))
/-- PORT_TRAIN (R176, R178); before stage PORTS the ports cannot train yet (R357). -/
def execPortTrain (m mask full : Nat) (s : State) : Host.Outcome State Fault Refusal :=
  s.portCmd m mask false true 0 [bad (1 < full) 16, chk (!s.portsLive) .busy]
    (fun s => s.eachPort m mask (fun s p =>
      let s := if full = 1 then s.updPort p (fun q => { q with record := none }) else s
      let s := if (s.port p).isUp then (s.loseLink p).windowOver p else s
      s.startTraining p))
/-- PORT_DISABLE (R178). -/
def execPortDisable (m mask : Nat) (s : State) : Host.Outcome State Fault Refusal :=
  s.portCmd m mask false true 0 []
    (fun s => s.eachPort m mask (fun s p =>
      let s := if (s.port p).isUp then s.loseLink p else s.silence p
      (s.updPort p (fun q => { q with st := .disabled, cause := 8 })).windowOver p))
/-- PORT_ADMIT (R180): of a port that is up. -/
def execPortAdmit (m mask : Nat) (s : State) : Host.Outcome State Fault Refusal :=
  s.portCmd m mask false true 0 [] (fun s => s.eachPort m mask (fun s p => if (s.port p).isUp then s.admitPort p else s))
/-- PORT_MARK_ABSENT (R4, R178). -/
def execPortMarkAbsent (m mask : Nat) (s : State) : Host.Outcome State Fault Refusal :=
  s.portCmd m mask false false 0 []
    (fun s => s.eachPort m mask (fun s p =>
      if s.variant.ports ≤ p then s
      else
        let s := if (s.port p).isUp then s.loseLink p else s.silence p
        (s.updPort p (fun q => { q with st := .absent, cause := 10, admOk := false })).windowOver p))
/-- PORT_SET_POWER (R185): PL1 timer 1 to 10,000 µs, PL2 timer 1 to 10,000 ms. -/
def execPortSetPower (m mask pl2 t1 t2 : Nat) (s : State) : Host.Outcome State Fault Refusal :=
  s.portCmd m mask false true 0
    [bad (1 < pl2) 16, bad (t1 = 0 || 10000 < t1) 20, bad (t2 = 0 || 10000 < t2) 24]
    (fun s => s.eachPort m mask (fun s p => s.updPort p (fun q => { q with pl2En := pl2 == 1, pl1Us := t1, pl2Ms := t2 })))
/-- Whether a link word is refused (R214, Table 08-4). -/
def linkWordBad (w : BitVec 64) : Bool :=
  bfld w 63 57 == 0 || (bfld w 56 56 == 1 && bfld w 63 57 != 0x7F)
  || (List.range 8).any (fun c => decide (5 < bfld w (3 * c + 34) (3 * c + 32)))
/-- Waiting packets take their new inputs after a map change (R213). -/
def Port.remap (q : Port) : Port :=
  let eg := q.link.egress.map (fun x => (x.1, { x.2 with hdr := { x.2.hdr with vc := q.input x.2.hdr } }))
  { q with link := { q.link with egress := eg } }
/-- PORT_SET_LINK (R213, R214). -/
def execPortSetLink (m mask : Nat) (word : BitVec 64) (s : State) : Host.Outcome State Fault Refusal :=
  s.portCmd m mask false true 0 [bad (linkWordBad word) 16]
    (fun s => s.eachPort m mask (fun s p => s.updPort p (fun q => ({ q with word } : Port).remap)))
/-- The statistics block of a port (Table 08-5): counter `i` lies at bits [511 - 32 i : 480 - 32 i]. -/
def Port.statsBlock (q : Port) : Nat := ((List.range 13).map (fun i => at_ (sat 32 (q.stats.or i 0)) 32 (480 - 32 * i))).sum
/-- PORT_LINK_STATS (R215): at most 48 ports. -/
def execPortLinkStats (m mask clear : Nat) (s : State) : Host.Outcome State Fault Refusal :=
  s.portCmd m mask false true 0 [bad (48 < (maskPorts mask).length) 0, bad (1 < clear) 16]
    (fun s =>
      let body := recs 64 ((maskPorts mask).map (fun p => (s.port p).statsBlock))
      let s := if clear = 1 then (maskPorts mask).foldl (fun s p => s.updPort p (fun q => { q with stats := [] })) s else s
      s.respond m (okBody body))
/-- RECORD_FLASH_COPY (R176, R256): the caddy's training records go to boot flash. -/
def execRecordFlashCopy (s : State) : Host.Outcome State Fault Refusal :=
  settled { s with flash := { s.flash with
    portRecords := s.ports.filterMap (fun p => p.2.record.map (fun r => (p.1, r)))
    memRecords := s.pool.memRecords } }

end Sys2Proof.Machine
end

