-- ==== Sys2Proof/Machine/Links.lean ====
section
/-! DEFINITION. The link layer: flits, credits, replay, egress arbitration and preemption (R187 to R213, R295, R376). -/

namespace Sys2Proof.Machine

/-- The receive buffer that the controller advertises on each port, by channel (Table 08-2). -/
def rxBuffer (vc : Nat) : Nat := [1024, 8192, 4096, 1024, 4096, 4096, 1024, 128].getD vc 0
/-- Adds to a counter of Table 08-5: 0 `CRC_BAD`, 1 `FEC_UNCORR`, 2 `FEC_CORR_CW`, 3 `AHEAD`, 4 `DUPLICATE`, 5 `REPLAYS`,
6 `REPLAY_FLITS`, 7 `STOMP_SENT`, 8 `STOMP_RCVD`, 9 `RB_FULL_NS`, 10 `CREDIT_WAIT_NS`, 11 `PROTOCOL_ERR`, 12 `LINK_INITS`. -/
def State.linkStat (s : State) (p i n : Nat) : State :=
  s.updPort p (fun q => { q with stats := q.stats.upd i 0 (fun c => sat 32 (c + n)) })
/-- A protocol error is link loss (R191). -/
def State.protocolError (s : State) (p : Nat) : State := (s.linkStat p 11 1).linkLoss p

/-! Initialisation (R194, R195). -/

/-- The INIT flit that a port sends (R194): the grants, the link-layer version, and whether an INIT has arrived. -/
def initFlit (saw : Bool) : Flit :=
  { typ := 2, units := [.raw (BitVec.ofNat 128 (((List.range 8).map (fun v => at_ (rxBuffer v) 16 (16 * v))).sum)),
                        .raw (BitVec.ofNat 128 (1 + at_ (b2n saw) 1 8))] }
/-- An INIT flit arrives: grants by channel, link-layer version, `RX_INIT` (R191, R195). -/
def State.takeInit (s : State) (p : Nat) (grants : List Nat) (version rx : Nat) : State :=
  let q := s.port p
  if !(decide (p < s.variant.ports)) then s
  else if q.isUp && q.lp != 2 then (if q.pstate != 2 && q.link.live then s.protocolError p else s)
  else if !(q.trains && q.train.step == 6) then s
  else if version != 1 || (List.range 8).any (fun v => decide (grants.getD v 0 < maxUnits v)) then s.failTraining p 5
  else
    let s := s.updLink p (fun l => { l with sawInit := true })
    if rx != 1 then s
    else
      (s.updLink p (fun l => { l with ready := true, grants, credits := grants, nextSeq := 0, expect := 0 })).declareUp p
/-- INIT_FLIT: a well-formed INIT flit, by its fields. -/
def execInitFlit (p : Nat) (grants : List Nat) (version rx : Nat) (s : State) : Host.Outcome State Fault Refusal :=
  settled (s.takeInit p grants version rx)
/-- LINK_INIT_TIMEOUT (R195 step 4). -/
def execLinkInitTimeout (p : Nat) (s : State) : Host.Outcome State Fault Refusal :=
  settled (s.inStep p 6 (fun q s => if q.link.ready then s else s.failTraining p 7))

/-! Receiving (R190 to R192, R196 to R203, R209). -/

/-- The flits freed from a replay buffer, followed for the packet that they leave unfinished. -/
def midwayAfter (m : Option (Packet × Nat)) (fs : List Flit) : Option (Packet × Nat) :=
  fs.foldl (fun (m : Option (Packet × Nat)) f =>
    f.units.zipIdx.foldl (fun (m : Option (Packet × Nat)) u =>
      let m := if u.2 = f.stompAt then none else m
      match u.1, m with
      | .head pk, none => if 1 < pk.units then some (pk, pk.units - 1) else none
      | _, some (pk, n) => if n ≤ 1 then none else some (pk, n - 1)
      | _, none => none) (if f.stompAt = f.units.length && f.stompAt != 15 then none else m)) m
/-- An acknowledgement processed by the sender (R203, R204, R205). -/
def Link.acked (l : Link) (a : Nat) : Link :=
  match l.replay with
  | [] => l
  | f :: _ =>
    let k := (a + 4096 - f.seq) % 4096
    if k < l.replay.length then
      let rest := l.replay.drop (k + 1)
      { l with
        replay := rest
        midway := midwayAfter l.midway (l.replay.take (k + 1))
        expiries := 0
        replayAt := if rest.isEmpty then none else l.replayAt.map (fun i => i - (k + 1)) }
    else l
/-- The units of a packet are no longer in the receive buffer: they are owed to the sender (R198). -/
def Link.free (l : Link) (pk : Packet) : Link :=
  { l with used := l.used.upd pk.hdr.vc 0 (· - pk.units), owed := l.owed.upd pk.hdr.vc 0 (· + pk.units) }
/-- What taking a flit's units gives: the link, partial packets discarded, the copies of those that were being forwarded. -/
structure Took where
  link : Link
  cuts : Nat := 0
  gone : List (Nat × Packet) := []
/-- The packet in progress is cut (R198, R209, R211). -/
def Took.cut (x : Took) : Took :=
  match x.link.rx with
  | none => x
  | some (pk, _) =>
    { link := { x.link with rx := none, rxOut := [] }.free pk, cuts := x.cuts + 1, gone := x.gone ++ x.link.rxOut }
/-- One unit is taken; none for a protocol error (R191, R192). A packet that has been forwarded on its header leaves the receive
buffer with its last unit (R211). -/
def Took.unit (x : Took) (u : LUnit) : Option Took :=
  let l := x.link
  match u, l.rx with
  | .head pk, none =>
    let vc := pk.hdr.vc
    if maxUnits vc < pk.units || rxBuffer vc - l.used.or vc 0 < pk.units then none
    else some { x with link := { l with rx := some (pk, pk.units - 1), rxOut := [], used := l.used.upd vc 0 (· + pk.units) } }
  | _, some (pk, n) =>
    some { x with link :=
      if 1 < n then { l with rx := some (pk, n - 1) }
      else if l.rxOut.isEmpty then { l with rx := none, inbox := l.inbox ++ [pk] }
      else { l with rx := none, rxOut := [] }.free pk }
  | _, none => some x
/-- Whether the link stands between the two header units of a packet. -/
def Link.inHeader (l : Link) : Bool := l.rx.any (fun r => r.2 + 1 == r.1.units)
/-- The units of a flit are taken; none for a protocol error. -/
def Link.takeUnits (l : Link) (f : Flit) : Option Took :=
  let r := f.units.zipIdx.foldl (fun (r : Option Took) u =>
    r.bind (fun x =>
      if u.2 = f.stompAt then (if x.link.inHeader then none else x.cut.unit u.1) else x.unit u.1)) (some { link := l })
  r.bind (fun x =>
    if f.stompAt != 15 && f.stompAt = f.units.length then (if x.link.inHeader then none else some x.cut) else some x)
/-- Credit returns; none when one would pass its grant (R199). -/
def Link.returned (l : Link) (f : Flit) : Option Link :=
  let add := fun (c : List Nat) (vc n : Nat) => listSet c vc 0 (c.getD vc 0 + n)
  let c := add (add l.credits f.crAVc f.crACnt) f.crBVc f.crBCnt
  if (List.range 8).any (fun v => decide (l.grants.getD v 0 < c.getD v 0)) then none else some { l with credits := c }
end Sys2Proof.Machine

namespace Sys2Proof
/-- Whether a flit is a protocol error in itself (R191). -/
def Flit.bad (f : Flit) : Bool :=
  3 ≤ f.typ || f.rsvd || 15 < f.units.length
  || (f.typ != 1 && (f.crACnt != 0 || f.crBCnt != 0))
  || (f.stompAt != 15 && f.units.length < f.stompAt)
/-- Whether a flit carries packet units of an input below BYP, which a port in PL1 does not carry (Table 07-5). -/
def Flit.wakes (f : Flit) : Bool :=
  f.units.any (fun u => match u with
    | .head pk | .second pk | .payload pk _ => pk.hdr.vc != 7
    | .raw _ => true)
/-- Whether a flit's CRC does not match its bytes (R189, R190). -/
def Flit.crcBad (f : Flit) : Bool := f.crc != f.sum
/-- A unit of a flit as a number, 0 beyond `USED`. -/
def Flit.unitNum (f : Flit) (k : Nat) : Nat := (f.units[k]?.map (fun u => Machine.leNat u.bytes)).getD 0
end Sys2Proof

namespace Sys2Proof.Machine

/-- The lanes that flits travel on: those of the link, or of the mode that is being initialised. -/
def Port.flitLanes (q : Port) : List Nat := if q.isUp && q.lp != 2 then q.activeLanes else bitsOf (modeLanes q.train.mode q.train.lanes) 4
/-- The lane of flit `i` of the link: active lane i mod width (R169). -/
def Port.laneOf (q : Port) (i : Nat) : Nat := q.flitLanes.getD (i % q.flitLanes.length) 0
/-- An accepted DATA flit (R201, R211). -/
def State.acceptFlit (s : State) (p : Nat) (f : Flit) : State :=
  match ((s.port p).link.takeUnits f).bind (fun x => (x.link.returned f).map (fun l => (x, l))) with
  | none => s.protocolError p
  | some (x, l) =>
    let l := { l with expect := (l.expect + 1) % 4096, accepted := l.accepted + 1, everAccepted := true, ackTimer := true }
    let s := x.gone.foldl (fun s c => s.abortCopy c.1 c.2) ((s.updLink p (fun _ => l)).linkStat p 8 x.cuts)
    if f.wakes then s.updPort p (fun q => { q with pstate := 0 }) else s
/-- A flit that FEC and CRC pass, of a link in training step 6: INIT flits alone are read (R191, R194, R195). A protocol error there
ends the attempt with cause EXCHANGE (DESIGN CHOICE, log 93). -/
def State.initReceive (s : State) (p : Nat) (f : Flit) : State :=
  if f.bad then (s.linkStat p 11 1).failTraining p 7
  else if f.typ = 2 then
    s.takeInit p ((List.range 8).map (fun v => fld (f.unitNum 0) (16 * v + 15) (16 * v))) (fld (f.unitNum 1) 7 0) (fld (f.unitNum 1) 8 8)
  else s
/-- A flit that FEC and CRC pass, of a link that is up (R191, R201 to R203). -/
def State.upReceive (s : State) (p : Nat) (f : Flit) : State :=
  if f.bad || (f.typ = 2 && (s.port p).link.live) then s.protocolError p
  else if f.typ = 2 then s
  else
    let s := s.updLink p (fun l => ({ (if f.ackV then l.acked f.ackSeq else l) with live := true } : Link))
    let s :=
      if f.typ != 1 then s
      else
        let d := (f.seq + 4096 - (s.port p).link.expect) % 4096
        if d = 0 then s.acceptFlit p f
        else if 3072 ≤ d then (s.linkStat p 4 1).updLink p (fun l => { l with ackDue := true })
        else s.linkStat p 3 1
    s.pl2If p
/-- FLIT_RECEIVE (R169, R190, R191, R201 to R203): the flit comes on the lane that its number gives, FEC first. -/
def execFlitReceive (p : Nat) (f : Flit) (s : State) : Host.Outcome State Fault Refusal :=
  settled (
    let q := s.port p
    let up := q.isUp && q.pstate != 2 && q.link.ready
    let init := decide (p < s.variant.ports) && q.trains && q.train.step == 6
    if !up && !init then s
    else
      let s := (s.updLink p (fun l => { l with rxCount := l.rxCount + 1 })).linkStat p 2 f.corrected
      if f.fecBad then s.linkStat p 1 1
      else if f.crcBad then s.linkStat p 0 1
      else if up then s.upReceive p f
      else s.initReceive p f)
/-- ACK_TIMER_EXPIRY (R202). -/
def execAckTimerExpiry (p : Nat) (s : State) : Host.Outcome State Fault Refusal :=
  settled (s.awake p (fun q s => if q.link.ackTimer then s.updLink p (fun l => { l with ackDue := true }) else s))

/-! Replay timer (R204 to R206). -/

/-- The replay timer expires once more. -/
def State.replayExpiry (s : State) (p : Nat) : State :=
  let s := (s.linkStat p 5 1).updLink p (fun l => { l with expiries := l.expiries + 1, replayAt := some 0 })
  if 16 ≤ (s.port p).link.expiries then s.linkLoss p else s
/-- REPLAY_TIMER_EXPIRY (R205). -/
def execReplayTimerExpiry (p : Nat) (s : State) : Host.Outcome State Fault Refusal :=
  settled (s.awake p (fun q s => if q.link.replay.isEmpty then s else s.replayExpiry p))
/-- REPLAY_EXPIRY_LIMIT (R206): the sixteenth expiry in a row. -/
def execReplayExpiryLimit (p : Nat) (s : State) : Host.Outcome State Fault Refusal :=
  settled (s.awake p (fun q s => if q.link.replay.isEmpty || q.link.expiries < 15 then s else s.replayExpiry p))

/-! Egress (R207 to R210, R213, R295). -/

/-- The first packet of each source that waits at an input. -/
def headsOf (l : List (Nat × Packet)) : List (Nat × Packet) :=
  l.foldl (fun (r : List (Nat × Packet)) x => if r.any (fun y => y.1 == x.1) then r else r ++ [x]) []
/-- The packets that wait at an input of a port, in order. -/
def Port.inputQueue (q : Port) (i : Nat) : List (Nat × Packet) := q.link.egress.filter (fun x => x.2.hdr.vc == i)
/-- Whether a waiting packet is the head of its ordered flow at this port, none of which is in progress (R213). -/
def Port.flowHead (q : Port) (x : Nat × Packet) : Bool :=
  let mine := fun (pk : Packet) => pk.hdr.ordered && pk.hdr.flow == x.2.hdr.flow
  !x.2.hdr.ordered || (!q.link.holder.any (fun h => mine h.pkt) && (q.link.egress.find? (fun y => mine y.2)) == some x)
/-- The units of a packet at a port's egress that have arrived: all, or those of the ingress copy that is still coming in (R211). -/
def State.arrivedUnits (s : State) (p : Nat) (pk : Packet) : Nat :=
  match s.ports.find? (fun q => q.2.link.rxOut.any (fun x => x.1 == p && samePacket x.2 pk)) with
  | some q => (q.2.link.rx.map (fun r => r.1.units - r.2)).getD pk.units
  | none => pk.units
/-- Whether a port may start a packet in its present power state: during an entry to PL2 only what the entry itself sends (R186). -/
def Port.lets (q : Port) (pk : Packet) : Bool :=
  q.lp != 4 && q.lp != 5 && (q.lp != 1 || pk.hdr.opcode == 0x70) && (q.lp != 3 || pk.hdr.opcode == 0x71)
/-- The packets of an input that may start now: heads of their sources and flows whose channel's credits cover them (R197, R213). A link
without PREEMPT, which cannot cut, starts only what has wholly arrived (R210, R211; DESIGN CHOICE, log 51). -/
def State.ready (s : State) (p i : Nat) : List (Nat × Packet) :=
  let q := s.port p
  (headsOf (q.inputQueue i)).filter (fun x => q.lets x.2 && q.flowHead x && decide (x.2.units ≤ q.link.credits.getD i 0)
    && (bit q.feat 1 || s.arrivedUnits p x.2 == x.2.units))
/-- The highest requesting input. -/
def State.best (s : State) (p : Nat) : Option Nat := [7, 6, 5, 4, 3, 2, 1, 0].find? (fun i => !(s.ready p i).isEmpty)
/-- Turns in a row of a source (R295). -/
def State.srcWeight (s : State) (src : Nat) : Nat :=
  if src < 64 then ((s.part? src).map Partition.egrWeight).getD 1 else 16
/-- The next source after `x` in ascending order, cyclically. -/
def nextSrc (l : List Nat) (x : Nat) : Option Nat :=
  let up := l.filter (fun y => decide (x < y))
  (if up.isEmpty then l else up).foldl (fun (m : Option Nat) y => match m with
    | none => some y
    | some z => some (min y z)) none
/-- The source served next at an input: its turns used, and whether it is served beyond its share (R208, R295). `skip` moves
the turn on. -/
def State.pickSrc (s : State) (turn : Option (Nat × Nat)) (srcs : List Nat) (skip : Bool) : Option (Nat × Nat × Bool) :=
  match turn with
  | none => (nextSrc srcs 65535).map (fun x => (x, 1, false))
  | some (c, n) =>
    if srcs.contains c && !skip && n < s.srcWeight c then some (c, n + 1, false)
    else
      match nextSrc srcs c with
      | none => none
      | some x => if x = c && !skip then some (c, n + 1, true) else some (x, 1, false)
/-- The descriptor that an own request's packet belongs to is served from spare capacity (R109, R295). -/
def State.spareServed (s : State) (h : Hdr) : State :=
  match s.net.own.find? (fun o => o.node == h.dstNode && o.tag == h.tag && o.opcode == h.opcode) with
  | some o =>
    match o.desc with
    | some (q, i) => s.modDesc q i (fun d => { d with wait := if d.wait = 0 then 1 else d.wait })
    | none => s
  | none => s
/-- Whether a grant's burst limit has expired (R208). -/
def Grant.over (g : Grant) : Bool := g.expired || (g.limit != 0 && decide (g.limit ≤ g.flits))
/-- The burst limit of an input in flits, 0 for none (Table 08-4). -/
def Port.burstLimit (q : Port) (i : Nat) : Nat :=
  let n := fld q.word.toNat (4 * i + 3) (4 * i)
  if n = 0 then 0 else 2 ^ (n - 1)
/-- The grant under which an input's next packet goes: the present one until its limit expires, else a new one, with the limit that
stands now (R207, R208, R214). -/
def Port.grantFor (q : Port) (i : Nat) : Grant :=
  match q.link.grant with
  | some g => if g.input = i && !g.over then g else { input := i, limit := q.burstLimit i }
  | none => { input := i, limit := q.burstLimit i }
/-- The grant ends when its input stops requesting (R207). -/
def State.endGrant (s : State) (p : Nat) : State :=
  if (s.port p).link.grant.any (fun g => (s.ready p g.input).isEmpty) then s.updLink p (fun l => { l with grant := none }) else s
/-- The source served next at an input: one whose packet was cut restarts it (R209), else the sources take turns (R208, R295). -/
def State.nextServed (s : State) (p i : Nat) : Option (Nat × Nat × Bool) :=
  let l := (s.port p).link
  let srcs := (s.ready p i).map (·.1)
  match (l.again.at? i).filter (fun x => srcs.contains x) with
  | some x => some (x, ((l.turn.at? i).map (·.2)).getD 1, false)
  | none => s.pickSrc (l.turn.at? i) srcs (l.grant.any (fun g => g.input == i && g.over))
/-- A new packet is granted (R197, R207 to R209). -/
def State.grantNext (s : State) (p i : Nat) : State :=
  match s.nextServed p i with
  | none => s
  | some (src, n, spare) =>
    match (s.ready p i).find? (fun x => x.1 == src) with
    | none => s
    | some x =>
      let g := (s.port p).grantFor i
      let s := s.updLink p (fun l => { l with
        grant := some g
        turn := if l.again.at? i = some src then l.turn else l.turn.put i (src, n)
        again := l.again.del i
        egress := l.egress.erase x
        credits := listSet l.credits i 0 (l.credits.getD i 0 - x.2.units)
        holder := some { input := i, src, pkt := x.2, sent := 0 } })
      if spare then s.spareServed x.2.hdr else s
/-- The packet in progress is cut: it waits again at the head of its input, and restarts when that next wins (R209, R213). -/
def State.cutHolder (s : State) (p : Nat) (h : Holder) : State :=
  let i := (s.port p).input h.pkt.hdr
  let pk := { h.pkt with hdr := { h.pkt.hdr with vc := i } }
  (s.linkStat p 7 1).updLink p (fun l => { l with
    holder := none, grant := none, egress := (h.src, pk) :: l.egress, again := l.again.put i h.src })
/-- The packet in progress, whose ingress copy was cut, is cut and does not restart (R211). -/
def State.stopCut (s : State) (p : Nat) : State :=
  (s.linkStat p 7 1).updLink p (fun l => { l with holder := none, grant := none, abort := false })
/-- What becomes of the packet in progress at the next unit. -/
inductive Fill where
  | unit | cut | drop | stop
  deriving DecidableEq, Repr
/-- A packet in progress is cut when its ingress copy was (R211) or an input above it requests (R209, R213), one cut a flit and never
inside its header; it stops where its units have not arrived. -/
def State.fillNext (s : State) (p : Nat) (h : Holder) (stomp : Nat) : Fill :=
  let q := s.port p
  if q.link.abort && h.sent != 1 then (if stomp = 15 then .drop else .stop)
  else if bit q.feat 1 && h.sent != 1 && stomp == 15 && (s.best p).any (fun b => decide (q.input h.pkt.hdr < b)) then .cut
  else if s.arrivedUnits p h.pkt ≤ h.sent then .stop
  else .unit
/-- The unit that comes next of the packet in progress. -/
def Holder.unit (h : Holder) : LUnit :=
  if h.sent = 0 then .head h.pkt else if h.sent = 1 then .second h.pkt else .payload h.pkt (h.sent - 2)
/-- The units of one DATA flit, with fuel: units so far, the cut's place, the state. -/
def State.fill (p : Nat) : Nat → List LUnit → Nat → State → List LUnit × Nat × State
  | 0, us, stomp, s => (us, stomp, s)
  | n + 1, us, stomp, s =>
    if 15 ≤ us.length then (us, stomp, s)
    else
      match (s.port p).link.holder with
      | some h =>
        match s.fillNext p h stomp with
        | .stop => (us, stomp, s)
        | .drop => State.fill p n us us.length (s.stopCut p)
        | .cut => State.fill p n us us.length (s.cutHolder p h)
        | .unit =>
          let hold := if h.pkt.units ≤ h.sent + 1 then none else some { h with sent := h.sent + 1 }
          State.fill p n (us ++ [h.unit]) stomp (s.updLink p (fun l => { l with holder := hold }))
      | none =>
        let s := s.endGrant p
        match s.best p with
        | none => (us, stomp, s)
        | some i =>
          let s' := s.grantNext p i
          if (s'.port p).link.holder.isNone then (us, stomp, s) else State.fill p n us stomp s'
/-- A flit has gone out under the present grant (R208). -/
def Port.countBurst (q : Port) : Port :=
  let g := q.link.grant.map (fun g => { g with flits := g.flits + 1 })
  { q with link := { q.link with grant := g } }
/-- Whether a flit sent now carries an acknowledgement (R202). -/
def Link.acks (l : Link) : Bool := l.everAccepted && (l.ackDue || 32 ≤ l.accepted)
/-- A flit goes out on the lane that its number gives (R169). -/
def State.onWire (s : State) (p : Nat) (f : Flit) : State :=
  let lane := (s.port p).laneOf (s.port p).link.txCount
  s.updLink p (fun l => { l with wire := some f, lanes := l.lanes.put lane f, txCount := l.txCount + 1 })
/-- Whether a pending injection falls on a flit: `CRC_BAD` and `FEC_UNCORR` on DATA, `DROP_ACK` on an acknowledgement (R376). -/
def hitBy (kind : Nat) (f : Flit) : Bool := if kind < 2 then f.typ == 1 else f.ackV
/-- Puts a flit on the wire with the present acknowledgement and its CRC, and applies a pending injection (R189, R202, R205, R376);
a wrong CRC differs by a free value. -/
def State.putFlit (s : State) (p : Nat) (f : Flit) : State :=
  let l := (s.port p).link
  let f := { f with ackV := l.acks, ackSeq := if l.acks then (l.expect + 4095) % 4096 else 0 }
  let s := if l.acks then s.updLink p (fun l => { l with ackDue := false, accepted := 0, ackTimer := false }) else s
  match l.inject.filter (fun x => hitBy x.1 f) with
  | none => s.onWire p f.sealed
  | some (k, n) =>
    let f := if k = 0 then { f with crc := ~~~ f.sum }
      else if k = 1 then { f.sealed with fecBad := true } else ({ f with ackV := false, ackSeq := 0 } : Flit).sealed
    (s.updLink p (fun l => { l with inject := if n ≤ 1 then none else some (k, n - 1) })).onWire p f
/-- The credit returns that a DATA flit takes along: two channels, up to 2,047 units each (R198). -/
def Link.takeOwed (l : Link) (f : Flit) : Flit × Link :=
  match (l.owed.filter (fun x => x.2 != 0)) with
  | [] => (f, l)
  | (a, n) :: r =>
    let x := min n 2047
    let f := { f with crAVc := a, crACnt := x }
    let l := { l with owed := l.owed.put a (n - x) }
    match r with
    | [] => (f, l)
    | (b, k) :: _ =>
      let y := min k 2047
      ({ f with crBVc := b, crBCnt := y }, { l with owed := l.owed.put b (k - y) })
/-- Whether the link owes credits. -/
def Link.owes (l : Link) : Bool := l.owed.any (fun x => x.2 != 0)
/-- One flit of a link that is up: a replayed flit, else DATA when units or credits are ready, else IDLE (R200 to R209). -/
def State.sendFlit (s : State) (p : Nat) : State :=
  let l := (s.port p).link
  match l.replayAt.bind (fun i => (l.replay[i]?).map (fun f => (i, f))) with
  | some (i, f) =>
    ((s.linkStat p 6 1).updLink p (fun l => { l with replayAt := if i + 1 < l.replay.length then some (i + 1) else none })).putFlit p f
  | none =>
    let s := s.updLink p (fun l => { l with replayAt := none })
    let idle : Flit := { typ := 0, seq := l.nextSeq }
    if 1024 ≤ l.replay.length then s.putFlit p idle
    else
      let (us, stomp, s) := State.fill p 48 [] 15 s
      if us.isEmpty && stomp == 15 && !l.owes then s.putFlit p idle
      else
        let s := if us.isEmpty then s else s.updPort p (·.countBurst)
        let l := (s.port p).link
        let (f, l) := l.takeOwed { typ := 1, seq := l.nextSeq, stompAt := stomp, units := us }
        let l := { l with replay := l.replay ++ [f], nextSeq := (l.nextSeq + 1) % 4096 }
        let s := (s.updLink p (fun _ => l)).putFlit p f
        if f.wakes then s.updPort p (fun q => { q with pstate := 0 }) else s
/-- One flit of a link that is up; an entry to PL2 may then be complete (R186). -/
def State.slot (s : State) (p : Nat) : State := (s.sendFlit p).pl2If p
/-- FLIT_SLOT: INIT flits in training step 6 (R194), afterwards the egress. -/
def execFlitSlot (p : Nat) (s : State) : Host.Outcome State Fault Refusal :=
  settled (
    let q := s.port p
    if q.isUp && q.pstate != 2 && q.link.ready then s.slot p
    else if q.trains && q.train.step == 6 then s.onWire p (initFlit q.link.sawInit).sealed
    else s)
/-- CREDIT_RETURN_DUE (R198). -/
def execCreditReturnDue (p : Nat) (s : State) : Host.Outcome State Fault Refusal :=
  settled (s.awake p (fun q s => if q.link.ready && q.link.owes then s.slot p else s))
/-- BURST_LIMIT_EXPIRY (R208): a grant whose flits have reached its limit. -/
def execBurstLimitExpiry (p : Nat) (s : State) : Host.Outcome State Fault Refusal :=
  settled (s.awake p (fun _ s => s.updLink p (fun l => { l with grant := l.grant.map (fun g => { g with expired := g.over }) })))
/-- TEST_PORT_INJECT (R376): kind 0 CRC_BAD, 1 FEC_UNCORR, 2 DROP_ACK. -/
def execTestPortInject (m port kind count : Nat) (s : State) : Host.Outcome State Fault Refusal :=
  settled (s.command m { fm := true }
    [chk (decide (port < 96) && !s.portPresent port) .absentUnit, bad (95 < port) 0, bad (2 < kind) 1, bad (count = 0 || 255 < count) 2,
     chk (s.port port).link.inject.isSome .busy]
    (fun s => (s.updLink port (fun l => { l with inject := some (kind, count) })).respond m okResp))

/-! Time counted at the links (Table 08-5). -/

/-- Each 64 ns of `CLK_AON`, the ports that stand on a full replay buffer, and those with a packet that waits for
credits. -/
def State.linkTime (s : State) : State :=
  if s.clock.aon % 64 != 0 then s
  else
    (s.ports.filter (fun q => q.2.isUp && q.2.pstate != 2)).foldl (fun s q =>
      let l := q.2.link
      let s := if 1024 ≤ l.replay.length then s.linkStat q.1 9 1 else s
      if (List.range 8).any (fun i => (headsOf (q.2.inputQueue i)).any (fun x => decide (l.credits.getD i 0 < x.2.units))) then
        s.linkStat q.1 10 1
      else s) s
/-- The block with no command waiting: one nanosecond passes (R286, R397). -/
def State.idleStep (s : State) : State := s.idle.linkTime

end Sys2Proof.Machine
end

