-- ==== Sys2Proof/Machine/Watchdogs.lean ====
section
/-! DEFINITION. Watchdogs of queues, engines and the MPC, engine resets and the crash dump (R317 to R320, Tables 16-11, 16-15,
18-8). -/

namespace Sys2Proof.Machine

/-! The sheepdog (R317). -/

/-- The oldest admitted descriptor of a queue that has not completed. -/
def State.oldest (s : State) (q : Nat) : Option Desc := (s.descsOf q).find? (fun d => !d.waits)
/-- The node of a descriptor's oldest remote message. -/
def State.remoteNode (s : State) (d : Desc) (m : OutMsg) : Nat :=
  ((s.net.own.find? (fun o => o.tag == m.tag && o.desc == some (d.q, d.i))).map (·.node)).getD 0
/-- The memory unit in whose queue an access of a descriptor waits. -/
def State.memoryOf (s : State) (d : Desc) : Option Nat :=
  (s.pool.units.find? (fun u => (u.2.rq ++ u.2.wq).any (fun e => e.desc == some (d.q, d.i)))).map (·.1)
/-- What a descriptor waits on, and the object (Table 18-8): a FENCE's oldest descriptor, the node of its oldest remote message,
the memory unit where an access of it waits, its collective, its engine or the one it names; otherwise nothing identified. -/
def State.waitsOn (s : State) (d : Desc) (u : Queue) : Nat × Nat :=
  if d.typ = 8 || d.typ = 9 then
    match s.fenced d u (d.typ == 8 && d.f 351 351 == 1) with
    | x :: _ => (4, x.i.toNat)
    | [] => (0, 0)
  else
    match d.out, s.memoryOf d, d.engine with
    | m :: _, _, _ => (2, s.remoteNode d m)
    | [], some u, _ => (3, u)
    | [], none, some e => if d.typ = 12 then (5, d.f 319 288) else (1, e)
    | [], none, none =>
      if d.typ = 12 then (5, d.f 319 288)
      else if d.typ = 7 && d.phase == .ready && d.engineField != 63 then (1, d.engineField)
      else (0, 0)
/-- Whether a queue's sheepdog runs: `d` its oldest descriptor. -/
def State.dogRuns (s : State) (q : Nat) (u : Queue) : Bool :=
  u.wdMs != 0 && u.st != .stalled && u.st != .held && !s.wheel.has q
/-- `WD_QUEUE` (Table 18-8). -/
def State.dogEvent (s : State) (q : Nat) (u : Queue) (d : Desc) : Ev :=
  let w := s.waitsOn d u
  { typ := 5, obj := q, ctx := some d.tag,
    body := d.i.toNat + at_ d.typ 4 32 + at_ w.1 4 36 + at_ (b2n u.wdTear) 1 40 + at_ w.2 32 64 }
/-- SHEEPDOG_EXPIRY (R317, R320, Table 13-3): with action TEARDOWN the queue's ACTIVE context is torn down. -/
def execSheepdogExpiry (q : Nat) (s : State) : Host.Outcome State Fault Refusal :=
  settled (match s.queue? q, s.oldest q with
    | some u, some d =>
      if !s.dogRuns q u then s
      else
        let ev := s.dogEvent q u d
        let s := s.postEq u.eq ev
        if !u.wdTear then s
        else
          let s := s.postPart u.part ev
          if (s.ctx? u.ctx).any (fun c => c.st == .active) then s.startTeardown u.ctx none false false else s
    | _, _ => s)

/-! Engines (R318). -/

/-- Bit n of an engine mask as `OEn`, bit 32 + n as `TEn` (Table 16-11). -/
def maskEngines (mask : Nat) : List Nat :=
  bitsOf mask 24 ++ ((List.range 48).filter (fun n => mask.testBit (32 + n))).map (fun n => 0x100 + n)
/-- Whether an engine mask has another bit set. -/
def maskBad (mask : Nat) : Bool := fld mask 31 24 != 0 || 2 ^ 80 ≤ mask
/-- ENGINE_WD_SET (R318). -/
def execEngineWdSet (m mask period : Nat) (s : State) : Host.Outcome State Fault Refusal :=
  settled (s.command m { fm := true }
    [chk ((maskEngines mask).any (fun e => !s.enginePresent e)) .absentUnit, bad (maskBad mask) 0,
     bad (period == 0 || 1000 < period) 16]
    (fun s => ((maskEngines mask).foldl (fun s e => s.updEngine e (fun g => { g with wdMs := period })) s).respond m okResp))
/-- An engine abandons its work and begins to reset itself: its descriptor completes `ST_TIMEOUT`, `PARTIAL` (R318). -/
def State.abandon (s : State) (e : Nat) : State :=
  let reset := fun (s : State) (a : Option Abandoned) => s.updEngine e (fun g =>
    { g with job := none, resetting := true, gate := 0, abandoned := if a.isSome then a else g.abandoned })
  match (s.engine e).job with
  | none => reset s none
  | some (q, i) =>
    match s.desc? q i with
    | none => reset s none
    | some _ =>
      let s := s.endDesc q i .timeout true
      match s.desc? q i with
      | none => reset s none
      | some d => reset s (some { q, i := i.toNat, result := d.result, tag := d.tag, part := ((s.queue? q).map (·.part)).getD 64 })
/-- ENGINE_RESET (R318): kind 0 OE, 1 TE. -/
def execEngineReset (m kind num : Nat) (s : State) : Host.Outcome State Fault Refusal :=
  let e := if kind = 0 then num else 0x100 + num
  settled (s.command m { fm := true }
    [chk (decide (kind < 2) && (decide (0x100 ≤ num) || !s.enginePresent e)) .absentUnit, bad (1 < kind) 0]
    (fun s => (s.abandon e).respond m okResp))
/-- ENGINE_WD_EXPIRY (R318): only an engine that holds work has a watchdog running. -/
def execEngineWdExpiry (e : Nat) (s : State) : Host.Outcome State Fault Refusal :=
  settled (if (s.engine e).job.isSome then s.abandon e else s)
/-- `WD_ENGINE` (Table 18-8). -/
def wdEngine (e : Nat) (out : Bool) (a : Option Abandoned) : Ev :=
  match a with
  | some a => { typ := 6, obj := e, status := 0x0701, ctx := some a.tag,
                body := b2n out + at_ a.q 16 16 + at_ a.i 32 32 + at_ a.result 64 64 }
  | none => { typ := 6, obj := e, body := b2n out + 2 }
/-- ENGINE_SELF_RESET_DONE (R318, R320): `ok` 0 says that the self-reset failed. -/
def execEngineSelfResetDone (e ok : Nat) (s : State) : Host.Outcome State Fault Refusal :=
  settled (
    let g := s.engine e
    if !g.resetting then s
    else
      let out := ok == 0
      let s := s.updEngine e (fun g => { g with resetting := false, outOfService := out, abandoned := none })
      let ev := wdEngine e out g.abandoned
      (match g.abandoned with
        | some a => s.postPart a.part ev
        | none => s).postFm ev)

/-! The crash dump (R319). -/

/-- DUMP_READ: at most the dump's last byte is returned, and reading it releases `ALERT_N`. -/
def execDumpRead (m off len : Nat) (s : State) : Host.Outcome State Fault Refusal :=
  let n := ((s.mpc.dump).map (·.length)).getD 0
  settled (s.command m { fm := true, query := true }
    [bad (s.mpc.dump.isSome && decide (n ≤ off)) 0, bad (len == 0 || 4032 < len) 4]
    (fun s =>
      match s.mpc.dump with
      | none => s.respond m { status := .okEmpty }
      | some d =>
        let bs := (d.drop off).take len
        let s := if d.length ≤ off + len then { s with pins := { s.pins with alert := dropVal s.pins.alert 1 } } else s
        s.respond m (okBody [(bs.length, leNat bs)])))

end Sys2Proof.Machine
end

