-- ==== Sys2Proof/Machine/Resets.lean ====
section
/-! DEFINITION. Chip resets, PCIe resets, the MPC's watchdog, and what each leaves (R6, R85, R183, R277, R319, R326 to R331, R370,
R417, Table 13-5). -/

namespace Sys2Proof.Machine

/-! What a warm reset does (R329). -/

/-- Step 2: atomic units, kettle, tier cache and write queues reach memory (R77, R258, R268, R269). -/
def State.flushAll (s : State) : State := (((s.atomDrain).kettleDrain).tierDrain).queuesDrain
/-- Step 3: every granule of a WB region recorded in DE or DO is written as lost, down to memory, and every entry freed (R85). -/
def State.walkDir (s : State) : State :=
  let s := s.coh.dir.foldl (fun s e =>
    if e.st != DirState.ds && s.policy e.region == 0 then s.writeLost e.gran (e.owner.getD 0x1000) else s) s
  ((s.updCoh (fun c => { c with dir := [], dirCache := [] })).tierDrain).queuesDrain
/-- A context saved as TORN_DOWN (R329 step 4). -/
def Context.saved (c : Context) : Context :=
  { c with st := .tornDown, unmaps := [], classes := [], oldTag := 0, destroy := false, mb := none, fmAsked := false,
           cancelled := 0, dropped := 0, fails := 0 }
/-- A queue saved as BLOCKED, its runs lost (R88, R329 step 4). -/
def Queue.saved (q : Queue) : Queue :=
  { q with st := .blocked, next := q.pi, runs := [], written := [], avail := [], fails := 0, resetMb := none, runsLost := true }
/-- A memory unit over a warm reset: its freeze, absence and remap stay; its queues, rows and counters are fresh (R255). -/
def MemUnit.saved (m : MemUnit) : MemUnit :=
  { m with rq := [], wq := [], drain := [], openRow := [], act := [], neigh := [], storm := [], due := [], guarded := [], cmds := [],
           sparing := none, bankMove := none, power := 0 }
/-- A port over a warm reset: its lanes idle, its configuration, its record, its counters and an absence marking stay (R6, R176,
R183, R215); it has not been UP since the reset (R180). -/
def Port.kept (q : Port) : Port :=
  { st := if q.st = .absent then .absent else .down, cause := if q.st = .absent then q.cause else 0,
    rates := q.rates, widths := q.widths, word := q.word, stats := q.stats, record := q.record,
    pl2En := q.pl2En, pl1Us := q.pl1Us, pl2Ms := q.pl2Ms, dedicated := q.dedicated }
/-- A region over a warm reset: it is held for no old reader, and no mailbox waits for it. -/
def Region.saved (r : Region) : Region := { r with writeHold := false, holdExt := 0, holdDesc := 0, holdReq := 0, destroyMb := none }
/-- A partition over a warm reset: its shaper full, nothing in flight (Table 13-5). -/
def Partition.saved (p : Partition) (now : Nat) : Partition :=
  { p with bytes := 0, descs := 0, shaper := fullShaper p.shaper.word now, resetting := false, resetMb := none,
           hostClosed := p.hostClosed || p.bounce.isSome }
/-- A collective's working area, freed (Table 13-5). -/
def State.dropColls (s : State) : State :=
  { s.colls.foldl (fun s c => s.zeroLater c.area 0) s with colls := [] }
/-- Every context torn down and in quarantine, its generation advanced (R285, R329 step 4). -/
def State.saveCtxs (s : State) : State :=
  let ns := s.ctxs.map (·.1)
  let s := ns.foldl (fun s n => s.advanceGen n) s
  { s with ctxs := s.ctxs.map (fun c => (c.1, c.2.saved)), quarantine := ns.foldl addSorted s.quarantine, tcache := [] }
/-- Caching agents over a warm reset: registrations stay, leases are void (R86). -/
def Coherence.saved (c : Coherence) : Coherence :=
  { agents := c.agents.map (fun a => (a.1, { a.2 with lease := .void, removeMb := none })), leaseUs := c.leaseUs,
    beatUs := c.beatUs, frac := c.frac, fracNext := c.fracNext, nextTxn := c.nextTxn, nextJoin := c.nextJoin,
    backInv := c.backInv, lost := c.lost }
/-- The pool's volatile parts (R255, R277). -/
def State.savePool (s : State) : State :=
  let s := s.pool.moves.foldl (fun s x => s.zeroLater [x.2.1] 0) s
  let kept := s.pool.tier.filter (fun l => l.dirty != 0 && s.lineFrozen l)
  s.updPool (fun p => { p with
    units := p.units.map (fun u => (u.1, u.2.saved))
    kettle := []
    tier := kept
    commitMbs := []
    moves := []
    flip := none })
/-- The mirror function over a reset: a paired controller waits for its partner's first beat (R346). -/
def Mirror.saved (m : Mirror) : Mirror :=
  if m.role == .unpaired then m
  else { m with role := .standbySync, returning := some (m.returning.getD m.role), forwards := [], ppOk := false, hbxOk := false,
                ppAlarm := false, hbxAlarm := false, syncing := false, curRegion := 0, curOff := 0, copied := 0 }
/-- Firmware over a warm reset: the caddy's copy and the measurements stay; sessions and boot services end. -/
def Firmware.saved (f : Firmware) : Firmware := { f with sessions := [], spdm := [], serves := [] }
/-- A routing table over a warm reset: configuration and counters stay (R184). -/
def Routing.saved (n : Routing) : Routing :=
  { n with pins := [], msgs := [], msgWait := [], closed := [], own := [], flockDown := [], flows := [], loop := [] }
/-- Bring-up as a warm reset enters it (R351). -/
def Boot.warmStart (b : Boot) (aon : Nat) : Boot :=
  { stage := 1, kind := 3, startAon := aon, incarnation := b.incarnation, straps := b.straps, topo := b.topo, warm := true,
    readyOnce := b.readyOnce, held := false, dimms := b.dimms, noDies := b.noDies }
/-- The configuration of a mailbox: its access list (R367). -/
def Mailbox.fresh (b : Mailbox) : Mailbox := { acl := b.acl, direct := b.direct }
/-- What the logic of the block loses in a warm reset, once memory is safe. -/
def State.resetLogic (s : State) : State :=
  { s with
    boot := s.boot.warmStart s.clock.aon
    mbs := s.mbs.map (fun b => (b.1, b.2.fresh))
    parts := s.parts.map (fun p => (p.1, p.2.saved s.clock.aon))
    shapers := s.shapers.map (fun x => (x.1, (x.2.1, fullShaper x.2.2.word s.clock.aon)))
    regions := s.regions.map (fun r => (r.1, r.2.saved))
    pubs := []
    queues := s.queues.map (fun q => (q.1, q.2.saved))
    descs := []
    heldOrder := []
    wheel := []
    faults := {}
    coh := s.coh.saved
    engines := s.engines.map (fun e => (e.1, { absent := e.2.absent, wdMs := e.2.wdMs }))
    ownOut := s.ownOut.filter (fun x => 4096 ≤ x.1.1 && (match x.2 with
      | .write _ _ _ _ => true
      | _ => false))
    ports := s.ports.map (fun p => (p.1, p.2.kept))
    net := s.net.saved
    mirror := s.mirror.saved
    fw := s.fw.saved
    mpc := { restarts := s.mpc.restarts, dump := s.mpc.dump }
    power := { s.power with standby := false }
    pins := { s.pins with alert := s.pins.alert.filter (fun a => a != 2) } }
/-- A warm reset (R329). -/
def State.warmReset (s : State) : State :=
  ((((s.flushAll.walkDir).dropColls.saveCtxs).savePool).resetLogic).sweepExts

/-! What a cold reset does (Table 13-5). -/

/-- Marks a unit absent (R254, R355). -/
def State.setAbsent (s : State) (r : UnitRef) : State :=
  match r with
  | .pc n => s.updUnit n (fun m => { m with absent := true })
  | .stack n => (List.range 64).foldl (fun s i => s.updUnit (64 * n + i) (fun m => { m with absent := true })) s
  | .dc n => s.updUnit (0x8000 + n) (fun m => { m with absent := true })
  | .oe n => s.updEngine n (fun g => { g with absent := true })
  | .te n => s.updEngine (0x100 + n) (fun g => { g with absent := true })
  | .port n => s.updPort n (fun q => { q with st := .absent, cause := 10 })
  | .hub _ | .iod _ => s.updBoot (fun b => { b with noDies := if b.noDies.contains r then b.noDies else b.noDies ++ [r] })
/-- The number of a unit in events (Table 18-8): memory units and engines as they are numbered there, a stack, port or die by its own
number. -/
def unitNumber : UnitRef → Nat
  | .pc n | .stack n | .oe n | .port n | .hub n | .iod n => n
  | .dc n => 0x8000 + n
  | .te n => 0x100 + n
/-- What stands on a die, which is absent with it (R2, R355): a hub's stacks, DDR5 channels and engines, an I/O die's ports. -/
def unitsOnDie : UnitRef → List UnitRef
  | .hub n => (List.range 6).map (fun i => .stack (6 * n + i)) ++ (List.range 8).map (fun i => .dc (8 * n + i))
      ++ (List.range 12).map (fun i => .oe (12 * n + i)) ++ (List.range 24).map (fun i => .te (24 * n + i))
  | .iod n => (List.range 24).map (fun i => .port (24 * n + i))
  | _ => []
/-- The units that are marked absent. -/
def State.absentRefs (s : State) : List UnitRef :=
  (s.pool.units.filter (fun u => u.2.absent)).map (fun (u : Nat × MemUnit) => if u.1 < 768 then .pc u.1 else .dc (u.1 - 0x8000))
  ++ (s.engines.filter (fun e => e.2.absent)).map (fun (e : Nat × Engine) => if e.1 < 0x100 then .oe e.1 else .te (e.1 - 0x100))
  ++ (s.ports.filter (fun p => p.2.st == .absent)).map (fun (p : Nat × Port) => .port p.1) ++ s.boot.noDies
/-- Boot flash with the retired pages and banks, the remaps and the absence markings in force (R255, R275). -/
def State.flashUnits (s : State) : Flash :=
  { s.flash with
    retired := s.pool.retired
    remaps := s.pool.units.filterMap (fun (u : Nat × MemUnit) => u.2.spare.map (fun k => (u.1, k)))
    absent := s.absentRefs
    absentIds := s.pool.units.flatMap (fun (u : Nat × MemUnit) => u.2.absentIds.map (fun i => (u.1, i))) }
/-- Boot flash as the next cold reset finds it: what is in force survives every reset (R6, R255, R275), cleared retirements are gone
(R275), and renumbering discards remaps and absence markings (R6). -/
def Flash.atCold (f : Flash) (unretire : List Retired) (renumber : Bool) : Flash :=
  let f := { f with retired := f.retired.filter (fun r => !unretire.contains r) }
  if renumber then { f with remaps := [], absent := [], absentIds := [] } else f
/-- The pool as a cold reset leaves it: contents initialised, retirements, remaps and absence from boot flash (R255, R262, R275). -/
def State.coldPool (s : State) : State :=
  let s := s.updPool (fun _ => { retired := s.flash.retired, memRecords := s.flash.memRecords })
  let s := s.flash.remaps.foldl (fun s x => s.updUnit x.1 (fun m => { m with spare := some x.2 })) s
  let s := s.flash.absentIds.foldl (fun s x => s.updUnit x.1 (fun m => { m with absentIds := m.absentIds ++ [x.2] })) s
  s.flash.absent.foldl (fun s r => s.setAbsent r) s
/-- A port at a cold reset: its record is the one in boot flash (R176), and its counters stay unless power was off (R215). -/
def State.coldPorts (s : State) (on : Bool) : Tab Port :=
  (List.range 96).filterMap (fun p =>
    let q : Port := { record := s.flash.portRecords.at? p, stats := if on then [] else (s.port p).stats }
    if q = {} then none else some (p, q))
/-- A cold reset of a `RESET_KIND` (Table 15-3): everything is lost but fuses, boot flash, the context generations and numbers in
quarantine, the slot counter, the measurements, the error log and what a power-on alone loses. -/
def State.coldReset (s : State) (kind : Nat) (held renumber : Bool) : State :=
  let on := kind == 0
  let flash := s.flashUnits.atCold s.pool.unretire renumber
  let n : State := { State.reset with
    fuses := s.fuses
    flash
    clock := if on then {} else { aon := s.clock.aon }
    boot := { kind, startAon := if on then 0 else s.clock.aon, straps := s.boot.straps, incarnation := flash.incarnation,
              topo := flash.topo, renumber, held }
    pins := { throttle := s.pins.throttle, msix := s.pins.msix }
    gens := flash.gens
    quarantine := if on then [] else s.quarantine
    coh := { frac := s.coh.fracNext, fracNext := s.coh.fracNext }
    ports := s.coldPorts on
    mirror := { claim := flash.claim, highest := flash.claim }
    fw := if on then {} else { measure := s.fw.measure, tapLog := s.fw.tapLog }
    power := { limitW := s.variant.watts, limitMhz := s.variant.mhz, trip := s.power.trip, temps := s.power.temps }
    free := s.free
    pending := s.pending }
  let n := n.coldPool
  if on then n
  else n.updPool (fun p => { p with log := s.pool.log, logSeq := s.pool.logSeq, logLost := s.pool.logLost })

/-! Chip resets (R328, R417). -/

/-- POWER_ON (R328): the controller stays in reset until `SYS_RST_N` is released. -/
def execPowerOn (s : State) : Host.Outcome State Fault Refusal := settled (s.coldReset 0 true false)
/-- SYS_RST_N_ASSERT (R328, R417). -/
def execSysRstNAssert (s : State) : Host.Outcome State Fault Refusal := settled (s.coldReset 1 true false)
/-- SYS_RST_N_RELEASE (R351, R417): the straps are sampled and bring-up begins. -/
def execSysRstNRelease (straps : Nat) (s : State) : Host.Outcome State Fault Refusal :=
  settled (if s.boot.held && !s.boot.stopped then
      s.updBoot (fun b => { b with straps := BitVec.ofNat 4 straps, held := false, startAon := s.clock.aon })
    else s)
/-- CHIP_RESET (R6, R328): kind 0 WARM, 1 COLD; the reset begins 1 ms after the response. -/
def execChipReset (m kind renumber : Nat) (s : State) : Host.Outcome State Fault Refusal :=
  settled (s.command m { fm := true } [bad (1 < kind) 0, bad (1 < renumber || (renumber == 1 && kind == 0)) 1]
    (fun s => (if s.boot.scheduled.isSome then s
      else s.updBoot (fun b => { b with scheduled := some kind, renumber := renumber == 1 })).respond m okResp))
/-- RESET_DELAY_EXPIRY (R328). -/
def execResetDelayExpiry (s : State) : Host.Outcome State Fault Refusal :=
  settled (match s.boot.scheduled with
    | none => s
    | some 0 => s.warmReset
    | some _ => s.coldReset 2 false s.boot.renumber)

/-! The MPC (R319). -/

/-- MPC_WATCHDOG_KICK (R319): the firmware restarts its watchdog. -/
def execMpcWatchdogKick (s : State) : Host.Outcome State Fault Refusal :=
  settled (if s.mpc.armed then { s with mpc := { s.mpc with kicked := s.clock.aon } } else s)
/-- Whether the last MPC restart ended no more than 10 s ago. -/
def State.restartedLately (s : State) : Bool := s.mpc.lastRestart.any (fun t => s.clock.aon ≤ t + 10000000000)
/-- MPC_WD_EXPIRY (R319): `state` the MPC state that goes to the crash dump area, at most 64 MiB of it. -/
def execMpcWdExpiry (state : List Byte) (s : State) : Host.Outcome State Fault Refusal :=
  settled (if !s.mpc.armed then s
    else if s.restartedLately then s.warmReset
    else { s with
      mpc := { s.mpc with restarting := true, armed := false, dump := some (state.take 0x4000000) }
      pins := { s.pins with alert := addSorted s.pins.alert 1 } })
/-- MPC_RESTART_DONE (R319, Table 18-8). -/
def execMpcRestartDone (s : State) : Host.Outcome State Fault Refusal :=
  settled (if !s.mpc.restarting then s
    else
      let n := s.mpc.restarts + 1
      ({ s with mpc := { s.mpc with restarting := false, armed := true, kicked := s.clock.aon, restarts := n,
                                    lastRestart := some s.clock.aon } } : State).postFm { typ := 0x1C, body := sat 32 n })

/-! PCIe resets (R327, R368, R370). -/

/-- A PCIe holder is removed from a mailbox: a running command goes on, its response to be discarded; otherwise the mailbox is
free. -/
def State.dropHolder (s : State) (m : Nat) : State :=
  s.updMb m (fun b =>
    match b.holder with
    | some (.func _) => if b.st == .running then { b with gone := true } else { b with st := .free, holder := none }
    | _ => b)
/-- PERST_N (R327, R370): every function's PCIe state and mailbox exchange is reset. -/
def execPerstN (s : State) : Host.Outcome State Fault Refusal :=
  settled (
    let s := (s.mbs.map (·.1)).foldl (fun s m => s.dropHolder m) s
    { s with clock := { s.clock with latch := [] }, fw := { s.fw with sessions := [], spdm := [] },
             parts := s.parts.map (fun p => (p.1, { p.2 with hostClosed := p.2.hostClosed || p.2.bounce.isSome })) })
/-- The SPDM session of a function ends with its PCIe state (R387). -/
def State.endSessions (s : State) (fn : Nat) : State :=
  { s with fw := { s.fw with sessions := s.fw.sessions.filter (fun x => x.fn != fn), spdm := s.fw.spdm.del fn },
           parts := s.parts.mod (fn - 1) (fun p => { p with hostClosed := p.hostClosed || (fn != 0 && p.bounce.isSome) }) }
/-- VF_FLR (R327, R368): VF `vf` serves partition `vf - 1`; its mailbox stays closed until the reset's step 6. -/
def execVfFlr (vf : Nat) (s : State) : Host.Outcome State Fault Refusal :=
  settled (if vf = 0 || 64 < vf then s
    else
      let s := ({ s.dropHolder vf with clock := { s.clock with latch := s.clock.latch.del vf } } : State).endSessions vf
      match s.part? (vf - 1) with
      | none => s
      | some p =>
        let s := s.updMb vf (fun b => { b with vfReset := true })
        if p.resetting then s else s.startReset (vf - 1) none)
/-- PF_FLR (R327, R370). -/
def execPfFlr (s : State) : Host.Outcome State Fault Refusal :=
  settled (({ s.dropHolder 0 with clock := { s.clock with latch := s.clock.latch.del 0 } } : State).endSessions 0)

end Sys2Proof.Machine
end

