-- ==== Sys2Proof/Machine/Images.lean ====
section
/-! DEFINITION. Firmware images: their header, verification, measurement, and the firmware commands (R353, R354, R381 to R383,
Tables 16-16, 17-2, 17-3). -/

namespace Sys2Proof.Machine

/-! The image header (Table 17-2). -/

/-- `n` bytes of an image from offset `o` on, as a number. -/
def Image.num (i : Image) (o n : Nat) : Nat := leNat (i.mem.read o n)
def Image.magic (i : Image) : Nat := i.num 0 4
def Image.version (i : Image) : Nat := i.num 4 4
def Image.format (i : Image) : Nat := i.num 8 2
def Image.svn (i : Image) : Nat := i.num 10 1
def Image.keyIndex (i : Image) : Nat := i.num 11 1
def Image.bodyBytes (i : Image) : Nat := i.num 12 4
def Image.pubkey (i : Image) : List Byte := i.mem.read 288 96
def Image.signature (i : Image) : List Byte := i.mem.read 384 128
def Image.body (i : Image) : List Byte := i.mem.read 512 i.bodyBytes
/-- Header and body, as they are measured and booted. -/
def Image.bytes (i : Image) : List Byte := i.mem.read 0 (512 + i.bodyBytes)
/-- Whether the controller accepts an image (R381). -/
def State.verifies (s : State) (i : Image) : Bool :=
  let k := i.keyIndex
  i.magic == 0x494D4C47 && i.format == 1 && i.bodyBytes ≤ 0x3000000 - 512 && 512 + i.bodyBytes ≤ i.len
  && k < 4 && !(s.fuses.keyRevoked.getLsbD k) && s.fuses.keyHash[k]? == some (Config.sha384 i.pubkey)
  && s.fuses.svn ≤ i.svn
  && Config.ecdsaVerifies i.pubkey (Config.sha384 (i.mem.read 0 384 ++ i.body)) i.signature

/-! Measurements (R383). -/

/-- A measurement register extended by some content. -/
def extendBy (old : BitVec 384) (bs : List Byte) : BitVec 384 :=
  Config.sha384 (leBytes 48 old.toNat ++ leBytes 48 (Config.sha384 bs).toNat)
/-- Extends measurement register `i`. -/
def State.measure (s : State) (i : Nat) (bs : List Byte) : State :=
  { s with fw := { s.fw with measure := s.fw.measure.upd i 0 (fun v => extendBy v bs) } }
/-- The fuse words that measurement 4 covers: ordering code, serial, stepping, limits, security version, revocations. -/
def Fuses.words (f : Fuses) : List Byte :=
  leBytes 4 f.variant.code ++ leBytes 8 f.serial.toNat ++ leBytes 1 f.stepping.toNat ++ leBytes 2 f.variant.mhz
  ++ leBytes 2 f.variant.watts ++ leBytes 1 f.svn ++ leBytes 1 f.keyRevoked.toNat
/-- What measurement 5 covers: the debug lock and the instruction just loaded, if any. -/
def Fuses.debugWord (f : Fuses) (ir : List Nat) : List Byte := leBytes 1 (if f.debugLock then 1 else 0) ++ ir.flatMap (leBytes 1)
/-- The measurements of a power-on. -/
def State.measurePowerOn (s : State) : State :=
  ((s.measure 1 Config.bootRom).measure 4 s.fuses.words).measure 5 (s.fuses.debugWord [])

/-! Booting (R354). -/

/-- An image boots: the caddy holds it, the MPC runs it, its watchdog runs, and it is measured. -/
def State.bootImage (s : State) (i : Image) (slot : Nat) (fallback fromA : Bool) : State :=
  let s := { s with fw := { s.fw with caddy := i, booted := slot, svnRun := i.svn, fromA },
                    mpc := { s.mpc with armed := true, kicked := s.clock.aon } }
  (s.updBoot (fun b => { b with imageSlot := slot, imageFallback := fallback, readyOnce := false })).measure 2 i.bytes
/-- The image that this start boots, if one verifies: a warm reset takes the caddy's copy first. -/
def State.loadImage (s : State) : Option State :=
  if s.boot.warm && s.verifies s.fw.caddy then some (s.bootImage s.fw.caddy 0 false s.fw.fromA)
  else if s.verifies s.flash.slotA then some (s.bootImage s.flash.slotA 0 false true)
  else if s.verifies s.flash.slotB then some (s.bootImage s.flash.slotB 1 true false)
  else none

/-! Firmware commands (Table 16-16). -/

/-- A slot as `FW_QUERY` gives it: version, length, measurement. -/
def Image.report (i : Image) : List (Nat × Nat) := [(4, i.version), (4, i.len), (48, (Config.sha384 i.bytes).toNat)]
/-- FW_QUERY. -/
def execFwQuery (m : Nat) (s : State) : Host.Outcome State Fault Refusal :=
  settled (s.command m { query := true, rom := true } []
    (fun s => s.respond m (okBody (s.flash.slotA.report ++ s.flash.slotB.report ++ [(1, s.fw.booted)]))))
/-- FW_WRITE (R354): slot B only, at most 48 MiB. -/
def execFwWrite (m off : Nat) (data : List Byte) (s : State) : Host.Outcome State Fault Refusal :=
  settled (s.command m { fm := true, rom := true }
    [bad (data.isEmpty || 4000 < data.length) 4, bad (0x3000000 < off + data.length) 0]
    (fun s =>
      let b := { s.flash.slotB with mem := s.flash.slotB.mem.write off data }
      ({ s with flash := { s.flash with slotB := b } } : State).respond m okResp))
/-- FW_COMMIT (R381, R382): the slots exchange; the new image boots at the next cold reset. -/
def execFwCommit (m len : Nat) (s : State) : Host.Outcome State Fault Refusal :=
  let b := { s.flash.slotB with len := len }
  settled (s.command m { fm := true, rom := true } [bad (len == 0 || 0x3000000 < len) 0]
    (fun s =>
      if !s.verifies b then s.respond m { status := .authFail }
      else ({ s with flash := { s.flash with slotA := b, slotB := s.flash.slotA } } : State).respond m okResp))
/-- Whether the running image is the image in slot A, as R382 asks. -/
def State.runsSlotA (s : State) : Bool := s.fw.fromA && s.flash.slotA.mem == s.fw.caddy.mem && s.boot.readyOnce
/-- FW_SVN_RAISE (R382). -/
def execFwSvnRaise (m : Nat) (s : State) : Host.Outcome State Fault Refusal :=
  settled (s.command m { fm := true } [chk (!s.runsSlotA) .notPermitted]
    (fun s =>
      if s.fw.svnRun ≤ s.fuses.svn then s.respond m { status := .okEmpty, body := [(1, s.fuses.svn)] }
      else ({ s with fuses := { s.fuses with svn := s.fw.svnRun } } : State).respond m (okBody [(1, s.fw.svnRun)])))

end Sys2Proof.Machine
end

