-- ==== Sys2Proof/Machine/Bringup.lean ====
section
/-! DEFINITION. Bring-up: its stages, the topology check, the fallback windows, and their commands (R351 to R362, R424). -/

namespace Sys2Proof.Machine

/-! Stages (Table 15-1). -/

/-- Bring-up stops: FAILED, ports idle, `ALERT_N` asserted (R356). -/
def State.stopBoot (s : State) (cause : Nat) : State :=
  ({ s with pins := { s.pins with alert := addSorted s.pins.alert 2 } } : State).updBoot
    (fun b => { b with stage := 15, failCause := cause })
/-- The next stage begins. -/
def State.stageTo (s : State) (st : Nat) : State := s.updBoot (fun b => { b with stage := st })
/-- Whether a unit is assembled and not yet marked absent. -/
def State.unitThere (s : State) (r : UnitRef) : Bool :=
  match r with
  | .pc n => decide (n < 768) && s.unitPresent n
  | .stack n => decide (n < 12) && s.stackPresent n
  | .dc n => s.unitPresent (0x8000 + n)
  | .oe n => decide (n < 0x100) && s.enginePresent n
  | .te n => s.enginePresent (0x100 + n)
  | .port n => s.portPresent n
  | .hub n => decide (n < s.variant.hubs) && !s.boot.noDies.contains r
  | .iod n => decide (n < s.variant.iods) && !s.boot.noDies.contains r
/-- The regions that are not yet `DEGRADED` and hold an absent or frozen member. -/
def State.newlyBad (s : State) : List Nat := (s.regions.filter (fun r => !r.2.degraded && s.regionBad r.2)).map (·.1)
/-- A unit that fails at this start-up is absent from it onward, with what stands on it, and counted once (R254, R355, R358; log 96); the
regions that it takes a member of are `DEGRADED`, and their partitions are told (R22, R306). -/
def State.failUnit (s : State) (r : UnitRef) : State :=
  if !s.unitThere r then s
  else
    let s := (r :: ((unitsOnDie r).filter s.unitThere)).foldl (fun s x => s.setAbsent x) s
    let s := s.updBoot (fun b => { b with absentNew := sat 8 (b.absentNew + 1) })
    let rs := s.newlyBad
    if rs.isEmpty then s else (s.degrade rs).outside (unitNumber r) 2 rs
/-- Units that fail at this start-up. -/
def State.failUnits (s : State) (l : List UnitRef) : State := l.foldl (fun s r => s.failUnit r) s

/-! Memory training (R256, R259). -/

/-- Whether the DIMMs of a channel lie within Table 10-5 and are of one kind (R259). -/
def dimmsOk (l : List Dimm) : Bool :=
  let top := fun (k : Nat) => if 2 ≤ l.length then (if k = 0 then 5600 else 6400) else if k = 0 then 6400 else 8800
  l.all (fun d => d.kind < 2 && d.speed ≤ top d.kind && d.width == 4 && d.ecc && decide (1 ≤ d.height) && d.height ≤ 4
    && d.ranks ≤ 2 * d.height && d.gib ≤ 256 && l.all (fun e => e.kind == d.kind))
/-- The DIMMs that a report finds on a channel. -/
def dimmsOn (r : StageReport) (n : Nat) : List Dimm := r.dimms.filter (fun d => d.dc == n && d.gib != 0)
/-- The serials that a memory interface's record must name (R256): the stack's, or every DIMM's on the channel. -/
def serialsOf (r : StageReport) (u : Nat) : List Nat :=
  if u < 0x8000 then (Tab.at? r.serials u).toList else (dimmsOn r (u - 0x8000)).map (·.serial)
/-- The memory interfaces that train: the stacks and the channels with DIMMs that are present. -/
def State.interfaces (s : State) (r : StageReport) : List Nat :=
  (List.range 12).filter s.stackPresent
    ++ ((List.range 16).filter (fun n => s.unitPresent (0x8000 + n) && !(dimmsOn r n).isEmpty)).map (fun n => 0x8000 + n)
/-- A memory interface trains (R256): from its saved record when that is valid and its pattern test passes, else in full, which writes
a record whose settings are free values. True for a saved record. -/
def State.trainMemory (s : State) (r : StageReport) (u : Nat) : Bool × State :=
  let sn := serialsOf r u
  let valid := fun (x : MemRecord) => x.unit == u && x.crc == crc32c x.body && x.format == s.recordFormat && x.serials == sn
  if s.pool.memRecords.any valid && !r.unverified.contains u then (true, s)
  else
    let (v, s) := s.draw
    let x : MemRecord := { unit := u, serials := sn, settings := v % 2 ^ 64, format := s.recordFormat }
    (false, s.updPool (fun p => { p with
      memRecords := p.memRecords.filter (fun y => y.unit != u) ++ [{ x with crc := crc32c x.body }] }))
/-- The end of stage MEMORY (R256, R259). -/
def State.memoryStage (s : State) (r : StageReport) : State :=
  let bad := ((List.range 16).filter (fun n => !dimmsOk (dimmsOn r n))).map UnitRef.dc
  let s := s.failUnits (r.absent ++ bad)
  let (saved, s) := (s.interfaces r).foldl (fun (x : Bool × State) u =>
    let (b, s) := x.2.trainMemory r u
    (x.1 && b, s)) (true, s)
  (s.updBoot (fun b => { b with memSaved := saved, dimms := r.dimms })).stageTo 5
/-- Whether the sensors let a cold reset after a trip go on: 10 °C below each throttle point, I/O dies at 95 °C or less (R424). -/
def State.cool (s : State) : Bool :=
  s.power.temps.all (fun t =>
    if t.1 / 0x100 = 0x40 then t.2 ≤ 90 else if t.1 / 0x100 = 0x42 then t.2 ≤ 95 else t.2 ≤ 80)
/-- The incarnation after another: 1 follows all ones (R331). -/
def nextInc (i : BitVec 32) : BitVec 32 := if i = 0xFFFFFFFF then 1 else i + 1
/-- Stage PORTS begins: every port that may train trains (R351). -/
def State.trainAll (s : State) : State :=
  s.portList.foldl (fun s p => if (s.port p).st == .down then s.startTraining p else s) s
/-- Matches the UP ports against a topology that has just come into use (R360). -/
def State.rematch (s : State) (t : TopoExpect) : State :=
  (s.portList.filter (fun p => (s.port p).isUp)).foldl (fun s p =>
    if s.matched t p then (s.admitPort p).updPort p (fun q => { q with window := none })
    else
      let q := s.port p
      let s := s.updPort p (fun q => { q with admOk := false, window := none })
      if q.admOk || q.window.isSome then s.partnerChanged p 0 ((q.partner.map (·.inc)).getD 0) else s) s
/-- Stage TOPOLOGY begins: the main path when an expected topology is held, else the fallback (R361, R362). -/
def State.enterTopo (s : State) : State :=
  let s := s.updBoot (fun b => { b with stage := 7, topoUse := b.topo, topoPath := if b.topo.isSome then 1 else 2,
                                        waitWindow := [] })
  (match s.boot.topo with
    | some t => s.rematch t
    | none => s.updBoot (fun b => { b with waitWindow := s.portList.filter (fun p => (s.port p).isUp && (s.port p).window.isSome) })).topoCheck
/-- The end of stage IMAGE (R354). -/
def State.imageStage (s : State) : State :=
  match s.loadImage with
  | some s => s.stageTo 3
  | none => s.stopBoot 1
/-- The end of stage PORTS (R358): `PORT_SAVED` says that every port that is up trained from a saved record. -/
def State.portsStage (s : State) (r : StageReport) : State :=
  let s := s.failUnits r.absent
  (s.updBoot (fun b => { b with portSaved := s.portList.all (fun p => !(s.port p).isUp || (s.port p).saved) })).enterTopo
/-- The end of the present stage, as its report gives it. -/
def State.stageDone (s : State) (r : StageReport) : State :=
  match s.boot.stage with
  | 0 =>
    if s.power.trip && !s.cool then s
    else
      let s := { s with power := { s.power with trip := false } }
      let s := if s.boot.kind = 0 then s.measurePowerOn else s
      if s.fuses.parityOk then s.stageTo 1 else s.stopBoot 5
  | 1 => if r.ok then (s.failUnits r.absent).stageTo 2 else s.stopBoot 2
  | 2 => s.imageStage
  | 3 => if r.ok then ((s.failUnits r.absent).measure 3 s.fw.caddy.body).stageTo 4 else s.stopBoot 4
  | 4 => s.memoryStage r
  | 5 =>
    if !r.ok then s.stopBoot 3
    else
      let i := nextInc s.boot.incarnation
      ((({ s with flash := { s.flash with incarnation := i } } : State).updBoot (fun b => { b with incarnation := i })).stageTo 6).trainAll
  | 6 => s.portsStage r
  | _ => s
/-- BRING_UP_STAGE_DONE (R351, R353 to R356, R424). -/
def execBringUpStageDone (r : StageReport) (s : State) : Host.Outcome State Fault Refusal :=
  settled (if s.boot.held || s.boot.stopped || s.mpc.restarting then s else s.stageDone r)
/-- TOPO_WAIT_EXPIRY (R361). -/
def execTopoWaitExpiry (s : State) : Host.Outcome State Fault Refusal :=
  settled (match s.boot.stage, s.boot.topoUse with
    | 7, some t => if s.requiredPass t then s.enterReady else s.stageTo 9
    | _, _ => s)

/-! Fallback windows (R362). -/

/-- Whether a port passes its window: `recv` codewords received in it; no expected topology is held, so the limits are the
reset values of Table 15-4. -/
def Port.windowOk (q : Port) (w : Nat × Nat × Nat) (recv : Nat) : Bool :=
  q.stats.or 1 0 == w.1 && q.stats.or 0 0 == w.2.1 && (q.stats.or 2 0 - w.2.2) * 1000000 ≤ 1000 * recv
/-- BER_WINDOW_END (R362): the codewords received are a free value. -/
def execBerWindowEnd (p : Nat) (s : State) : Host.Outcome State Fault Refusal :=
  settled (
    let q := s.port p
    match q.window with
    | none => s
    | some w =>
      let (recv, s) := s.draw
      if q.windowOk w recv then (s.admitPort p).windowOver p
      else
        let s := s.loseLink p
        let s := s.updPort p (fun q => { q with st := .down, cause := 9, failures := q.failures + 1, retry := retryMs (q.failures + 1) })
        (s.portEvent 0x15 p).windowOver p)

/-! Commands (Table 16-16). -/

/-- BOOT_QUERY (R358). -/
def execBootQuery (m : Nat) (s : State) : Host.Outcome State Fault Refusal :=
  settled (s.command m { fm := true, query := true, rom := true } [] (fun s => s.respond m (okBody [(8, s.bootWord)])))
/-- BOOT_PROCEED (R361). -/
def execBootProceed (m : Nat) (s : State) : Host.Outcome State Fault Refusal :=
  settled (s.command m { fm := true } []
    (fun s => if s.boot.stage = 9 then s.enterReady.respond m okResp else s.respond m { status := .okEmpty }))
/-- Whether two elements of a list are equal. -/
def hasDup (l : List Nat) : Bool := !decide l.Nodup
/-- Whether an expected topology has a value out of range, a neighbour twice, or a reserved bit (R9, R359). -/
def topoBad (t : TopoExpect) : List Check :=
  let w := fun (hi lo : Nat) => bfld t.policy hi lo
  let n8 := t.neighbours.length
  [bad (w 63 50 < 10 || 10000 < w 63 50 || w 49 36 < 10 || 10000 < w 49 36 || w 15 8 != n8 || 96 < n8 || w 7 0 != 0) 8,
   bad (t.ports.length != 96 || t.ports.any (fun e => bfld e 30 24 != 0)) 16,
   bad (t.neighbours.any (fun e => 96 < bfld e 45 39 || 1536 < bfld e 38 28 || bfld e 27 0 != 0)
     || hasDup ((t.neighbours.filter (fun e => bfld e 47 47 == 1)).map (fun e => bfld e 63 48))) 400]
/-- TOPO_EXPECT_SET (R359): in stage TOPOLOGY or HELD_TOPO it takes effect at once, and the check restarts its wait. -/
def execTopoExpectSet (m store : Nat) (t : TopoExpect) (s : State) : Host.Outcome State Fault Refusal :=
  settled (s.command m { fm := true }
    (chk ((List.range 96).any (fun p => (t.entry p).isSome && !s.portPresent p)) .absentUnit :: bad (1 < store) 0 :: topoBad t)
    (fun s =>
      let s := s.updBoot (fun b => { b with topo := some t })
      let s := if store = 1 then { s with flash := { s.flash with topo := some t } } else s
      let s := if s.boot.stage = 7 || s.boot.stage = 9 then s.enterTopo else s
      s.respond m okResp))
/-- TOPO_EXPECT_QUERY (R359): the store flag says that boot flash holds it too. -/
def execTopoExpectQuery (m : Nat) (s : State) : Host.Outcome State Fault Refusal :=
  settled (s.command m { fm := true, query := true } []
    (fun s =>
      match s.boot.topo with
      | none => s.respond m { status := .okEmpty }
      | some t => s.respond m (okBody ((1, b2n (s.flash.topo == some t)) :: (8, t.policy.toNat)
          :: recs 4 (t.ports.map (·.toNat)) ++ recs 8 (t.neighbours.map (·.toNat))))))

end Sys2Proof.Machine
end

