-- ==== Sys2Proof/Machine/BootServe.lean ====
section
/-! DEFINITION. The fabric boot service (R363, R364, Tables 15-7, 16-16). -/

namespace Sys2Proof
open Sys2Proof.Machine
/-- 64 KiB groups of the image. -/
def ServeReq.groups (r : ServeReq) : Nat := cdiv r.len 65536
/-- Bytes of the CRC table, padded to 64 B. -/
def ServeReq.tableBytes (r : ServeReq) : Nat := roundUp (4 * r.groups) 64
/-- Bytes of a round (R364). -/
def ServeReq.total (r : ServeReq) : Nat := 64 + r.tableBytes + r.len
end Sys2Proof

namespace Sys2Proof.Machine

/-- Changes a boot service. -/
def State.updServe (s : State) (sid : Nat) (f : Serve → Serve) : State :=
  { s with fw := { s.fw with serves := s.fw.serves.mod sid f } }
/-- The boot services that run. -/
def State.serving (s : State) : List (Nat × Serve) := s.fw.serves.filter (fun v => v.2.live)
/-- BOOT_SERVE (R363): the checks in the order of its list; the image's extent is resolved at acceptance; a free id. -/
def execBootServe (m : Nat) (r : ServeReq) (s : State) : Host.Outcome State Fault Refusal :=
  let rid := r.handle / 2 ^ 44
  let g := s.region? rid
  let over_ := g.all (fun g => decide (g.size * 65536 < r.handle % 2 ^ 44 + r.len))
  settled (s.command m { fm := true }
    (if r.len = 0 then [] else
      [bad (g.isNone || g.any (fun g => g.st != 1)) 0, bad (2 ^ 32 < r.len || over_) 8,
       bad (4096 ≤ r.flock || bfld (s.flockEnt r.flock) 127 127 == 0) 16, bad (7 < r.tc) 32,
       bad (r.rounds == 0 || 16 < r.rounds) 34, bad (r.rate == 0 || 90 < r.rate) 36,
       chk (s.serving.any (fun v => v.2.req.flock == r.flock)) .busy, chk (4 ≤ s.serving.length) .noResource,
       chk (s.boot.stage != 8) .notPermitted])
    (fun s =>
      if r.len = 0 then s.respond m { status := .okEmpty }
      else
        let (v, s) := s.draw
        match firstFree s.fw.serves.has 0 65536 v with
        | none => s.respond m { status := .noResource }
        | some i =>
          let x : Serve := { req := r, extent := (g.map (·.extent)).getD 0, order := s.descOrder }
          ({ s with fw := { s.fw with serves := s.fw.serves.put i x } } : State).respond m (okBody [(4, i)])))
/-- Image bytes of a service, once no modified copy of them is out: whether they could be read, the bytes, the status. They are read on
the BW class (DESIGN CHOICE, log 31). -/
def State.imageRead (s : State) (x : Serve) (off n : Nat) : Bool × List (Byte × Bool) × Status × State :=
  let rid := x.req.handle / 2 ^ 44
  let o := x.req.handle % 2 ^ 44 + off
  let (ok, s) := s.recallAll (s.granulesOf rid x.extent o n) false
  if !ok then (false, [], .ok, s)
  else
    let r := (s.granPieces rid x.extent o n).foldl (fun (a : List (Byte × Bool) × Status × State) g =>
      let (bs, st, s) := a.2.2.readBytes g.2.1 g.2.2 { cls := 1 }
      (a.1 ++ bs, worse a.2.1 st, s)) ([], .ok, s)
    (true, r.1, r.2.1, r.2.2)
/-- The manifest (Table 15-7). -/
def Serve.manifest (x : Serve) : Nat :=
  at_ 0x53424C47 32 480 + at_ 1 16 464 + at_ x.round 16 448 + at_ x.req.rounds 16 432 + at_ x.crc 32 400
  + at_ x.req.len 64 336 + at_ x.req.groups 32 304 + at_ x.time.toNat 64 240
/-- The entries of the CRC table that a packet from table offset `o` of `n` bytes carries. -/
def State.crcEntries (s : State) (x : Serve) (o n : Nat) : Bool × List (Byte × Bool) × State :=
  (List.range (n / 4)).foldl (fun (a : Bool × List (Byte × Bool) × State) k =>
    let g := o / 4 + k
    if !a.1 then a
    else if x.req.groups ≤ g then (true, a.2.1 ++ clean (leBytes 4 0), a.2.2)
    else
      let (ok, bs, _, s) := a.2.2.imageRead x (g * 65536) (min 65536 (x.req.len - g * 65536))
      (ok, a.2.1 ++ clean (leBytes 4 (crc32c (bs.map (·.1)))), s)) (true, [], s)
/-- The next packet's bytes: manifest, CRC table or image, at most 4 KiB. At the start of a round its CRC and time are taken. -/
def State.serveBytes (s : State) (sid : Nat) (x : Serve) : Bool × List (Byte × Bool) × Status × State :=
  let r := x.req
  if x.pos = 0 then
    let (ok, bs, _, s) : Bool × List (Byte × Bool) × Status × State := s.imageRead x 0 r.len
    let y := { x with time := s.clock.base, crc := crc32c (bs.map (fun (b : Byte × Bool) => b.1)) }
    (ok, clean (leBytes 64 y.manifest), .ok, if ok then s.updServe sid (fun v => { v with time := y.time, crc := y.crc }) else s)
  else if x.pos < 64 + r.tableBytes then
    let (ok, bs, s) := s.crcEntries x (x.pos - 64) (min 4096 (64 + r.tableBytes - x.pos))
    (ok, bs, .ok, s)
  else
    let o := x.pos - 64 - r.tableBytes
    s.imageRead x o (min 4096 (r.len - o))
/-- The notice at the end of a round (R364). -/
def Serve.notice (x : Serve) (now : Nat) : List Byte :=
  leBytes 16 (at_ x.round 16 0 + at_ x.req.rounds 16 16 + at_ x.crc 32 32 + at_ now 64 64)
/-- A round ends: its `NOTIFY`, and the next round or the end of the service. -/
def State.roundEnd (s : State) (sid : Nat) : State :=
  match s.fw.serves.at? sid with
  | none => s
  | some x =>
    let pkt := s.flockPacket x.req.flock x.req.tc 0 x.req.addr 0x13 .plain (x.notice s.now) false true 16 0
    let s := s.multicast 96 65 pkt
    s.updServe sid (fun v =>
      if v.round < v.req.rounds then { v with round := v.round + 1, pos := 0 } else { v with live := false })
/-- BOOT_SERVE_SEND (R364, R265): the next packet of a running service, cut where the poison changes. -/
def execBootServeSend (sid : Nat) (s : State) : Host.Outcome State Fault Refusal :=
  settled (match s.serving.find? (fun v => v.1 == sid) with
    | none => s
    | some (_, x) =>
      let (ok, bs, st, s) := s.serveBytes sid x
      if !ok then s
      else
        let (ps, s) := s.flockWrites x.req.flock x.req.tc 0 (x.req.addr + x.pos) bs
        let s := ps.foldl (fun s p => s.multicast 96 65 p) s
        let s := s.updServe sid (fun v => { v with
          pos := v.pos + bs.length
          sent := v.sent + bs.length
          status := worse v.status st })
        if x.pos + bs.length < x.req.total then s else s.roundEnd sid)
/-- BOOT_SERVE_QUERY (R363). -/
def execBootServeQuery (m sid : Nat) (s : State) : Host.Outcome State Fault Refusal :=
  settled (s.command m { fm := true, query := true } [bad (s.fw.serves.at? sid).isNone 0]
    (fun s =>
      match s.fw.serves.at? sid with
      | none => s
      | some x => s.respond m (okBody [(2, x.round), (8, x.sent), (2, x.status.code)])))
/-- BOOT_SERVE_STOP (R363). -/
def execBootServeStop (m sid : Nat) (s : State) : Host.Outcome State Fault Refusal :=
  settled (s.command m { fm := true } [bad (s.fw.serves.at? sid).isNone 0]
    (fun s =>
      if (s.fw.serves.at? sid).any (·.live) then (s.updServe sid (fun v => { v with live := false })).respond m okResp
      else s.respond m { status := .okEmpty }))

end Sys2Proof.Machine
end

