-- ==== Sys2Proof/Machine/Flags.lean ====
section
/-! DEFINITION. Every status, flag and capability word that software reads in a register: mailbox, doorbell page, event
queue, direct registers, configuration space and TAP identity (Tables 04-1, 13-2, 16-2, 18-1, 18-3, 18-4, 19-10). -/

namespace Sys2Proof.Machine

/-! Capability words (R396, Table 18-4). -/

/-- A word with bit `i` set for each `i < n` that `f` accepts. -/
def flagBits (n : Nat) (f : Nat → Bool) : Nat := ((List.range n).map (fun i => at_ (b2n (f i)) 1 i)).sum
/-- `CAP_GIB`: the installed DIMMs on the DDR5 channels that are present. -/
def State.capGib (s : State) : Nat :=
  ((s.boot.dimms.filter (fun d => s.unitPresent (0x8000 + d.dc))).map (·.gib)).sum
/-- `SPARE_USED`: the spares that serve a remap (R253, R274). -/
def State.spareUsed (s : State) : Nat :=
  flagBits 24 (fun i => s.pool.units.any (fun u => u.1 / 64 == i / 2 && u.2.spare == some (i % 2)))
/-- Capability word `w`. -/
def State.capWord (s : State) (w : Nat) : Nat :=
  let v := s.variant
  match w with
  | 0 => at_ v.ports 8 56 + at_ v.stackCount 8 48 + at_ (b2n (v == .v9612M || v == .v4806M)) 1 47 + at_ v.mhz 13 34
      + at_ v.watts 12 22 + at_ (b2n (v.dcs != 0)) 1 21 + at_ (b2n (v.mirror && !s.mirror.absent)) 1 20
      + at_ (flagBits v.hubs (fun i => !s.boot.noDies.contains (.hub i))) 2 18
      + at_ (flagBits v.iods (fun i => !s.boot.noDies.contains (.iod i))) 4 14 + at_ s.capGib 14 0
  | 1 => flagBits 64 s.portPresent
  | 2 => at_ (flagBits 16 (fun i => s.unitPresent (0x8000 + i))) 16 44 + at_ (flagBits 12 s.stackPresent) 12 32
      + flagBits 32 (fun i => s.portPresent (64 + i))
  | 3 => at_ (flagBits 32 (fun i => s.enginePresent (0x100 + i))) 32 32 + flagBits 24 s.enginePresent
  | 4 => at_ s.spareUsed 24 16 + flagBits 16 (fun i => s.enginePresent (0x120 + i))
  | w => if w ≤ 16 then flagBits 64 (fun i => s.unitPresent (64 * (w - 5) + i)) else 0

/-! Mailboxes (Table 16-2, R356, R368). -/

/-- The code of a mailbox state (Table 16-2). -/
def MbState.code : MbState → Nat
  | .free => 0 | .held => 1 | .running => 2 | .done => 3
/-- Whether a mailbox grants no acquisition (R357, R368). -/
def State.mbClosed (s : State) (m : Nat) : Bool :=
  s.boot.held || s.boot.stopped
  || (if m = 0 then decide (s.boot.stage < 3) else s.boot.stage != 8 || (s.mb m).vfReset)
/-- Milliseconds that the current or last command has run. -/
def State.runMs (s : State) (m : Nat) : Nat :=
  let b := s.mb m
  if b.st == .running then sat 16 ((s.clock.aon - b.startAon) / 1000000) else b.runMs
/-- Whether the holder is a fabric source. -/
def Mailbox.heldByFabric (b : Mailbox) : Bool :=
  match b.holder with
  | some (.fabric _ _) => true
  | _ => false
/-- `MB_STATUS`. -/
def State.mbStatus (s : State) (m : Nat) : Nat :=
  let b := s.mb m
  at_ b.lastStatus 16 48 + at_ b.lastSeq 16 32 + at_ (s.runMs m) 16 16 + at_ (b2n (m == 0 && s.boot.stage == 15)) 1 4
  + at_ (b2n b.heldByFabric) 1 3 + at_ (b2n (s.mbClosed m)) 1 2 + at_ b.st.code 2 0

/-! Doorbell pages and event queues (Tables 04-1, 13-2, R386). -/

/-- `DB_STATE`. -/
def Queue.dbState (q : Queue) : Nat := at_ q.cause 8 8 + at_ q.st.code 3 0
/-- The register of a doorbell page at an offset; `DB_PI` reads as zero to a confidential partition's host (R386). -/
def Queue.page (q : Queue) (hidden : Bool) : Nat → Nat
  | 0x000 => if hidden then 0 else q.pi.toNat
  | 0x008 => q.ci.toNat
  | 0x010 => q.dbState
  | 0x018 => q.rejects
  | _ => 0
/-- `EQ_STATUS`. -/
def EventQ.status (e : EventQ) : Nat := at_ e.fails 8 8 + at_ (b2n e.armed) 1 1 + at_ (b2n e.overflow) 1 0
/-- The register of an event queue at an offset. -/
def EventQ.regs (e : EventQ) : Nat → Nat
  | 0x00 => e.ci.toNat
  | 0x08 => e.pi.toNat
  | 0x10 => e.status
  | 0x18 => e.dropped
  | _ => 0

/-! Direct registers (Table 18-3). -/

/-- `TIME_RATE`: signed parts per billion. -/
def State.timeRate (s : State) : Nat := (s.clock.rate % 4294967296).toNat
/-- The aligned 64 bits of the direct registers at an offset; reserved ones read as zero. -/
def State.directWord (s : State) (off : Nat) : Nat :=
  if off < 0x88 then s.capWord (off / 8)
  else
    match off with
    | 0x100 => s.now
    | 0x108 => s.timeRate
    | 0x110 => s.bootWord
    | _ => 0
/-- What function `fn` reads in the direct registers, 4 or 8 bytes at an offset (R8, R394); 4 bytes at 0x104 are the latched half of
the time base (R397). -/
def State.direct (s : State) (fn off n : Nat) : Nat :=
  if n = 4 && off = 0x104 then s.clock.latch.or fn (s.now / 2 ^ 32)
  else s.directWord (off / 8 * 8) / 2 ^ (8 * (off % 8)) % 2 ^ (8 * n)

/-! Configuration space (Table 18-1) and interrupts. -/

/-- Vendor, device, class and revision of the PF (0) or a VF. -/
def State.pciIdentity (s : State) (fn : Nat) : Nat × Nat × Nat × Nat :=
  (0x1F6E, if fn = 0 then 0x9600 else 0x9601, 0x058000, s.fuses.stepping.toNat)
/-- Whether `ALERT_N` is asserted (low). -/
def State.alertN (s : State) : Bool := !s.pins.alert.isEmpty

end Sys2Proof.Machine
end

