-- ==== Sys2Proof/Machine/Mailbox.lean ====
section
/-! DEFINITION. The mailbox transport: its registers, its state table, access lists, and the direct registers (R365 to R371,
R385, R386, R394, R395, R397, Tables 16-1 to 16-5). -/

namespace Sys2Proof.Machine

/-! Who may reach a mailbox (R366 to R368, R386, R387). -/

/-- The owner that an access counts as. -/
def srcOwner : Src → Owner
  | .func f => .func f
  | .fabric _ h => .fabric h.srcNode h.srcEp
/-- Whether a packet comes from a direct partner (R367). -/
def State.directPartner (s : State) (p : Nat) (h : Hdr) : Bool :=
  h.hops == 0 && (s.port p).partner.any (fun x => x.node == h.srcNode)
/-- Whether a mailbox's access list admits a packet. -/
def State.aclAdmits (s : State) (m p : Nat) (h : Hdr) : Bool :=
  (s.mb m).acl.contains (h.srcNode, h.srcEp) || ((s.mb m).direct && s.directPartner p h)
/-- Whether a packet to endpoint 0xFE is accepted at all: while the node id is unset, from a direct partner to node 0xFFFF
alone (R218); from a port whose partner changed, endpoint 0xFE alone (R180). -/
def State.mbHears (s : State) (p : Nat) (h : Hdr) : Bool :=
  if s.node = 0xFFFF then h.dstNode == 0xFFFF && h.dstEp == 0xFE && s.directPartner p h
  else h.dstNode == s.node && (h.dstEp == 0xFE || decide (96 ≤ p) || (s.port p).admOk)
/-- Whether a function has an established session that has carried no request yet (R385). -/
def State.freshSession (s : State) (fn : Nat) : Bool := s.fw.sessions.any (fun x => x.fn == fn && x.finished && x.fresh)
/-- Whether a host's function reaches mailbox `m`: its own, and not while its partition's host access is closed (R387). -/
def State.hostMailbox (s : State) (fn m : Nat) : Bool :=
  fn == m && m < 65 && (m == 0 || !(s.part? (m - 1)).any (·.hostClosed) || s.freshSession m)
/-- Whether the mailbox buffers are hidden from a source: a confidential partition's host (R386). -/
def State.buffersHidden (s : State) (src : Src) (m : Nat) : Bool :=
  match src with
  | .func f => f == m && m != 0 && (s.part? (m - 1)).any (·.bounce.isSome)
  | .fabric _ _ => false
/-- A packet for mailbox `m` (R217 to R219, R228, R367): it waits behind earlier packets and earlier requests of its flow; when it is let
in, `k` takes it, otherwise it is discarded or refused without effect. -/
def State.mbGate (s : State) (p : Nat) (h : Hdr) (m : Nat) (cmd : Instr) (k : State → State) : State :=
  if s.behind p h then s
  else if !s.mbHears p h then s.consume p h
  else if h.malformed then ((s.consume p h).updNet (fun n => { n with malformed := n.malformed + 1 })).refuseBad p h none
  else if s.flowOpen h s.coh.nextJoin then s.stall 0 cmd
  else if h.dstEp != 0xFE then (s.consume p h).refuse p 65 h .badArg none
  else if 64 < m then (s.consume p h).answerReg p h .badArg 0
  else if !s.aclAdmits m p h then (s.consume p h).answerReg p h .notPermitted 0
  else if h.msgLen = 0 then (s.consume p h).answerReg p h .okEmpty 0
  else k s
/-- An access to a register of mailbox `m` that is let in: `f` gives the value read and the effect. Over the fabric it is
answered with that value or a `CMP`. -/
def State.mbAccess (s : State) (src : Src) (m : Nat) (cmd : Instr) (f : State → Nat × State) : State :=
  match src with
  | .func fn =>
    let s := s.rouse
    if s.hostMailbox fn m then
      let (v, s) := f s
      { s with pins := { s.pins with readData := v } }
    else { s with pins := { s.pins with readData := 0 } }
  | .fabric p h =>
    s.mbGate p h m cmd (fun s =>
      let (v, s) := f (s.consume p h)
      ({ s with pins := { s.pins with readData := v } } : State).answerReg p h .ok v)
/-- A discarded access is counted in `MB_REJECTS`. -/
def State.mbReject (s : State) (m : Nat) : State := s.updMb m (fun b => { b with rejects := sat 32 (b.rejects + 1) })
/-- Whether a source holds mailbox `m` in HELD or DONE. -/
def State.holds (s : State) (src : Src) (m : Nat) : Bool :=
  (s.mb m).holder == some (srcOwner src) && ((s.mb m).st == .held || (s.mb m).st == .done)

/-! The state table (R369, Table 16-3). -/

/-- The next ticket: one more, skipping 0. -/
def nextTicket (t : Nat) : Nat := if (t + 1) % 65536 = 0 then 1 else (t + 1) % 65536
/-- A read of `MB_LOCK`. A holder's read while RUNNING has no row in Table 16-3: the value it returns is free. -/
def State.lockRead (s : State) (src : Src) (m : Nat) : Nat × State :=
  let b := s.mb m
  let mine := b.holder == some (srcOwner src)
  if s.mbClosed m then (0, s)
  else
    match b.st with
    | .free =>
      let t := nextTicket b.ticket
      (t, s.updMb m (fun b => { b with st := .held, holder := some (srcOwner src), ticket := t, gone := false }))
    | .held => (if mine then b.ticket else 0, s)
    | .done =>
      if mine then
        let t := nextTicket b.ticket
        (t, s.updMb m (fun b => { b with st := .held, ticket := t }))
      else (0, s)
    | .running =>
      if mine then
        let (v, s) := s.draw
        (v % 65536, s)
      else (0, s)
/-- MB_LOCK_READ. -/
def execMbLockRead (src : Src) (mbx : Nat) (s : State) : Host.Outcome State Fault Refusal :=
  settled (s.mbAccess src mbx (.mbLockRead src mbx) (fun s => s.lockRead src mbx))
/-- The mailbox is given up. -/
def State.mbFree (s : State) (m : Nat) : State :=
  s.updMb m (fun b => { b with st := .free, holder := none, gone := false, sealed := false })
/-- A write of the ticket releases the mailbox. -/
def State.lockWrite (s : State) (src : Src) (m val : Nat) : State :=
  if s.holds src m && val % 65536 = (s.mb m).ticket then s.mbFree m else s.mbReject m
/-- MB_LOCK_WRITE. -/
def execMbLockWrite (src : Src) (mbx val : Nat) (s : State) : Host.Outcome State Fault Refusal :=
  settled (s.mbAccess src mbx (.mbLockWrite src mbx val) (fun s => (0, s.lockWrite src mbx val)))
/-- The request in a buffer, captured (Table 16-4). -/
def capture (req : Memory) (order : Nat) : Captured :=
  let w := leNat (req.read 0 32)
  { opcode := fld w 15 0, bodyLen := fld w 31 16, seq := fld w 47 32, cookie := fld w 127 64, notify := bit w 48,
    vec := fld w 59 49, rsvd := if fld w 63 60 != 0 then 7 else if fld w 255 128 != 0 then 16 else 0, body := req.read 32 (min (fld w 31 16) 4064), order }
/-- A write of the ticket submits the request. -/
def State.mbSubmit (s : State) (src : Src) (m val : Nat) : State :=
  let b := s.mb m
  if s.holds src m && b.st == .held && val % 65536 = b.ticket then
    let cap := capture b.req s.mbOrder
    ({ s with mbOrder := s.mbOrder + 1 } : State).updMb m (fun b =>
      { b with st := .running, cap := some cap, cmd := none, started := false, result := none, startAon := s.clock.aon })
  else s.mbReject m
/-- MB_DOORBELL_WRITE. -/
def execMbDoorbellWrite (src : Src) (mbx val : Nat) (s : State) : Host.Outcome State Fault Refusal :=
  settled (s.mbAccess src mbx (.mbDoorbellWrite src mbx val) (fun s => (0, s.mbSubmit src mbx val)))
/-- Bytes written to the request buffer by its holder; the part beyond the buffer is discarded. -/
def State.requestWrite (s : State) (src : Src) (m off : Nat) (data : List Byte) : State :=
  if s.buffersHidden src m then s
  else if s.holds src m then
    s.updMb m (fun b => { b with req := b.req.write off (data.take (0x1000 - off)), sealed := false })
  else s.mbReject m
/-- Whether a host's access to a register is one that the controller serves: 4 or 8 bytes, naturally aligned; any other is an
Unsupported Request (R394). -/
def hostSized (off n : Nat) : Bool := (n == 4 || n == 8) && off % n == 0
/-- MB_REQUEST_WRITE; over the fabric its bytes count towards the write's message, which one `CMP` answers (R230). -/
def State.mbRequest (s : State) (src : Src) (m off : Nat) (data : List Byte) : State :=
  match src with
  | .func _ =>
    if hostSized off data.length then s.mbAccess src m (.mbRequestWrite src m off data) (fun s => (0, s.requestWrite src m off data))
    else s
  | .fabric p h =>
    s.mbGate p h m (.mbRequestWrite src m off data) (fun s =>
      if h.msgLen ≤ data.length then ((s.consume p h).requestWrite src m off data).answerReg p h .ok 0
      else
        match s.msgTake p h data.length (.mbRequestWrite src m off data) with
        | (.late, s) => s.consume p h
        | (.waits, s) => s
        | (.taken, s) =>
          match ((s.consume p h).requestWrite src m off data).msgDone h .ok with
          | (some (st, true), s) => s.answerReg p h st 0
          | (_, s) => s)
def execMbRequestWrite (src : Src) (mbx off : Nat) (data : List Byte) (s : State) : Host.Outcome State Fault Refusal :=
  settled (s.mbRequest src mbx off data)
/-- MB_REJECTS_READ (Table 16-1): the read clears the count. -/
def execMbRejectsRead (src : Src) (mbx : Nat) (s : State) : Host.Outcome State Fault Refusal :=
  settled (s.mbAccess src mbx (.mbRejectsRead src mbx) (fun s => ((s.mb mbx).rejects, s.updMb mbx (fun b => { b with rejects := 0 }))))
/-- MB_HOLDER_TIMEOUT. -/
def execMbHolderTimeout (mbx : Nat) (s : State) : Host.Outcome State Fault Refusal :=
  settled (if (s.mb mbx).st == .held || (s.mb mbx).st == .done then s.mbFree mbx else s)

/-! Reads that change nothing (Tables 16-1, 16-2). -/

/-- The bytes that a source reads in a mailbox block outside `MB_LOCK` and `MB_REJECTS`. -/
def State.mbBytes (s : State) (src : Src) (m off n : Nat) : List Byte :=
  let b := s.mb m
  let mine := b.holder == some (srcOwner src) && !s.buffersHidden src m
  if off < 0x1000 then if mine then b.req.read off n else leBytes n 0
  else if off < 0x2000 then if mine then b.resp.read (off - 0x1000) n else leBytes n 0
  else if 0x2010 ≤ off && off < 0x2018 then leBytes n (s.mbStatus m >>> (8 * (off - 0x2010)))
  else leBytes n 0

/-! The end of a command (R369 to R371, R386, R388). -/

/-- A response's body, packed (R372): each field at a multiple of the smaller of its width and 8. -/
def packBody (l : List (Nat × Nat)) : List Byte :=
  let bs := l.foldl (fun (b : List Byte) x =>
    let a := min (max x.1 1) 8
    b ++ List.replicate (roundUp b.length a - b.length) 0 ++ leBytes x.1 x.2) []
  bs ++ List.replicate (roundUp bs.length 8 - bs.length) 0
/-- The response envelope (Table 16-5). -/
def envelope (c : Captured) (r : Resp) (n : Nat) : List Byte :=
  leBytes 32 (at_ (b2n r.more) 1 144 + at_ r.failOff 16 128 + at_ c.cookie 64 64 + at_ r.status.code 16 48 + at_ c.seq 16 32
    + at_ n 16 16 + at_ c.opcode 16 0)
/-- Whether a mailbox's response goes to a confidential partition's host, and is sealed. -/
def State.sealedTo (s : State) (m : Nat) (b : Mailbox) : Bool :=
  m != 0 && b.holder == some (.func m) && (s.part? (m - 1)).any (·.bounce.isSome)
/-- The response of mailbox `m` is written, sealed for a confidential host, and `NOTIFY_VEC` is signalled; the response for a
removed holder is discarded, and the mailbox is free. -/
def State.endCommand (s : State) (m : Nat) : State :=
  let b := s.mb m
  match b.st, b.cap, b.result with
  | .running, some c, some r =>
    let body := packBody r.body
    let out := envelope c r body.length ++ body
    let ms := s.runMs m
    let hide := s.sealedTo m b
    let s := s.updMb m (fun b => { b with
      st := .done, cap := none, cmd := none, started := false, result := none, runMs := ms
      lastStatus := r.status.code, lastSeq := c.seq
      resp := if hide || b.gone then b.resp else b.resp.write 0 out, sealed := false })
    let s := { s with fw := { s.fw with sessions := s.fw.sessions.map (fun x =>
      if x.fn = m && m != 0 && x.finished then { x with fresh := false } else x) } }
    if b.gone then s.mbFree m
    else
      let s := if hide then s.sealOut (m - 1) (if c.opcode = 0x0508 then 5 else 2) out else s
      if c.notify then { s with pins := { s.pins with msix := (m, c.vec) :: s.pins.msix } } else s
  | _, _, _ => s
/-- MB_COMMAND_END. -/
def execMbCommandEnd (mbx : Nat) (s : State) : Host.Outcome State Fault Refusal := settled (s.endCommand mbx)

/-! Commands of the transport itself. -/

/-- MB_ACL_SET (R367). -/
def execMbAclSet (m mbx : Nat) (pairs : List (Nat × Nat)) (direct : Nat) (s : State) : Host.Outcome State Fault Refusal :=
  settled (s.command m { fm := true }
    [bad (64 < mbx) 0, bad (8 < pairs.length) 4, bad (pairs.any (fun x => decide (0xFFFF < x.1 || 0xFF < x.2))) 8,
     bad (1 < direct) (if pairs.isEmpty then 8 else 7 + 4 * pairs.length)]
    (fun s => (s.updMb mbx (fun b => { b with acl := pairs, direct := direct == 1 })).respond m okResp))
/-- DISCOVER (R144, R375): capability words, ordering code, `SERIAL`, mailbox index, the codes of the stock operators with a
version each. -/
def execDiscover (m : Nat) (s : State) : Host.Outcome State Fault Refusal :=
  settled (s.command m { query := true } [] (fun s =>
    s.respond m (okBody (recs 8 ((List.range 17).map s.capWord)
      ++ [(4, s.variant.code), (8, s.fuses.serial.toNat), (4, m)]
      ++ (List.range 10).flatMap (fun i => [(4, i + 1), (4, Config.stockVersion (i + 1) % 2 ^ 32)])))))

/-! Direct registers (R394, R395, R397). -/

/-- TIME_BASE_LOW_READ: the high half is latched for the same function. -/
def execTimeBaseLowRead (fn : Nat) (s : State) : Host.Outcome State Fault Refusal :=
  let c := { s.clock with latch := s.clock.latch.put fn (s.now / 2 ^ 32) }
  settled { s.rouse with pins := { s.pins with readData := s.now % 2 ^ 32 }, clock := c }
/-- REGISTER_WRITE_DISCARD: a write to a read-only register, a reserved offset or another partition's object changes
nothing; as any host access it ends STANDBY (R421). -/
def execRegisterWriteDiscard (_fn _bar _off _val : Nat) (s : State) : Host.Outcome State Fault Refusal := settled s.rouse
/-- TIME_STEER (R397): a positive step at once, a negative one to absorb at half rate; the rate from now on. -/
def execTimeSteer (m : Nat) (step rate : Int) (s : State) : Host.Outcome State Fault Refusal :=
  settled (s.command m { fm := true } [bad (decide (100000 < rate) || decide (rate < -100000)) 8]
    (fun s =>
      let c := s.clock
      let c := if 0 ≤ step then { c with base := c.base + BitVec.ofNat 64 step.toNat }
        else { c with absorb := c.absorb + (-step).toNat * 1000000000 }
      let s := { s with clock := { c with rate } }
      s.respond m (okBody [(8, s.now)])))
/-- The clock once the rest of a negative step has been absorbed: at half rate, the time this takes has passed. -/
def Clock.absorbed (c : Clock) : Clock :=
  let inc := ((1000000000 : Int) + c.rate).toNat
  let n := cdiv c.absorb (inc - inc / 2)
  let tot := c.frac + (n * inc - c.absorb)
  { c with aon := c.aon + n, base := c.base + BitVec.ofNat 64 (tot / 1000000000), frac := tot % 1000000000, absorb := 0 }
/-- TIME_STEP_ABSORBED (R397). -/
def execTimeStepAbsorbed (s : State) : Host.Outcome State Fault Refusal := settled { s with clock := s.clock.absorbed }

end Sys2Proof.Machine
end

