-- ==== Sys2Proof/Machine/Codec.lean ====
section
/-! DEFINITION. From a captured request to a command, and when the command starts: the packing of bodies, the opcodes of
Tables 16-6 to 16-17, the checks of the envelope, and the objects that a command claims (R371 to R375). -/

namespace Sys2Proof.Machine

/-! Unpacking (R372). -/

/-- The fields of widths `ws` (in bytes) of a body, from byte `o` on, and the byte after them. -/
def fields (b : List Byte) : Nat → List Nat → List Nat × Nat
  | o, [] => ([], o)
  | o, w :: ws =>
    let a := roundUp o (min (max w 1) 8)
    let r := fields b (a + w) ws
    (leNat ((b.drop a).take w) :: r.1, r.2)
/-- The body length that a layout of `n` bytes has. -/
def bodyLen (n : Nat) : Nat := roundUp n 8
/-- A command read from a body: its fields, and the body length it defines. -/
def read1 (b : List Byte) (ws : List Nat) (f : List Nat → Option Instr) : Option (Instr × Nat) :=
  let r := fields b 0 ws
  (f r.1).map (fun i => (i, bodyLen r.2))
/-- A command whose last field is a list: `ws` the widths before it, the last of them its count, `per` the widths of one
entry, `post` those after the list. -/
def readN (b : List Byte) (ws per post : List Nat) (f : List Nat → List Nat → List Nat → Option Instr) : Option (Instr × Nat) :=
  let n := min ((fields b 0 ws).1.getLastD 0) 4096
  let r := fields b 0 (ws ++ (List.replicate n per).flatten ++ post)
  let head := r.1.take ws.length
  let body := (r.1.drop ws.length).take (n * per.length)
  (f head body (r.1.drop (ws.length + n * per.length))).map (fun i => (i, bodyLen r.2))
/-- A 32-bit field as a signed number. -/
def signed32 (v : Nat) : Int := if v < 2 ^ 31 then v else (v : Int) - 2 ^ 32
/-- A 64-bit field as a signed number. -/
def signed64 (v : Nat) : Int := if v < 2 ^ 63 then v else (v : Int) - 2 ^ 64
/-- Pairs of a list. -/
def pairUp : List Nat → List (Nat × Nat)
  | a :: b :: r => (a, b) :: pairUp r
  | _ => []
/-- The bytes of a list of numbers. -/
def toBytes (l : List Nat) : List Byte := l.map (BitVec.ofNat 8)

/-- Discovery, partition, context and translation commands (Tables 16-6, 16-7). -/
def cmd1 (m op : Nat) (b : List Byte) : Option (Instr × Nat) :=
  match op with
  | 0x0001 => read1 b [] (fun _ => some (.discover m))
  | 0x0101 => read1 b [64] (fun | [w] => some (.partitionCreate m (BitVec.ofNat 512 w)) | _ => none)
  | 0x0102 => read1 b [64] (fun | [w] => some (.partitionResize m (BitVec.ofNat 512 w)) | _ => none)
  | 0x0103 => read1 b [1] (fun | [p] => some (.partitionQuery m p) | _ => none)
  | 0x0104 => read1 b [1] (fun | [p] => some (.partitionDestroy m p) | _ => none)
  | 0x0105 => read1 b [1] (fun | [p] => some (.partitionReset m p) | _ => none)
  | 0x0106 => read1 b [1, 2] (fun | [p, e] => some (.partEqSet m p e) | _ => none)
  | 0x0107 => read1 b [2, 2] (fun | [e, v] => some (.fmEqSet m e v) | _ => none)
  | 0x0108 => read1 b [1, 8, 8] (fun | [p, a, n] => some (.bounceSet m p a n) | _ => none)
  | 0x0201 => read1 b [1, 1, 2, 1, 4, 4] (fun
      | [part, mode, eq, mirror, window, timeout] => some (.ctxCreate m { part, mode, eq, mirror, window, timeout })
      | _ => none)
  | 0x0202 => read1 b [2] (fun | [t] => some (.ctxTeardown m t) | _ => none)
  | 0x0203 => read1 b [2] (fun | [t] => some (.ctxRevive m t) | _ => none)
  | 0x0204 => read1 b [2] (fun | [t] => some (.ctxDestroy m t) | _ => none)
  | 0x0205 => read1 b [2, 8, 4, 4] (fun | [t, a, l, f] => some (.ctxTableRead m t a l f) | _ => none)
  | 0x0206 => readN b [2, 4, 4] [4] [] (fun
      | [t, f, _], l, _ => some (.rankTableSet m t f l)
      | _, _, _ => none)
  | 0x0401 => read1 b [4, 1] (fun | [f, a] => some (.resolveFault m f a) | _ => none)
  | 0x0402 => read1 b [4] (fun | [f] => some (.faultQuery m f) | _ => none)
  | _ => none
/-- Region, queue and event-queue commands (Tables 16-8, 16-9). -/
def cmd2 (m op : Nat) (b : List Byte) : Option (Instr × Nat) :=
  match op with
  | 0x0301 => read1 b [1, 1, 1, 1, 2, 1, 2, 1, 1, 4, 8] (fun
      | [part, tier, policy, mirror, stkMask, qtrMask, dcMask, grain, xorHash, size, version] =>
        some (.regionCreate m { part, tier, policy, mirror, stkMask, qtrMask, dcMask, grain, xorHash, size, version })
      | _ => none)
  | 0x0302 => read1 b [4] (fun | [r] => some (.regionQuery m r) | _ => none)
  | 0x0303 => read1 b [4] (fun | [r] => some (.regionDestroy m r) | _ => none)
  | 0x0304 => read1 b [4, 4, 8, 8] (fun | [t, g, v, w] => some (.regionPublish m t g v w) | _ => none)
  | 0x0305 => read1 b [2, 8, 4, 8, 8, 1, 1] (fun
      | [t, a, r, o, n, rd, wr] => some (.regionMap m t a r o n rd wr)
      | _ => none)
  | 0x0306 => read1 b [2, 8, 8] (fun | [t, a, n] => some (.mapZero m t a n) | _ => none)
  | 0x0307 => read1 b [2, 8, 8, 1] (fun | [t, a, n, k] => some (.regionUnmap m t a n k) | _ => none)
  | 0x0501 => read1 b [2, 2, 4, 8, 8, 2, 1] (fun
      | [q, tag, log2, ring, comp, eq, mode] => some (.queueCreate m { q, tag, log2, ring, comp, eq, mode })
      | _ => none)
  | 0x0502 => read1 b [2] (fun | [q] => some (.queueDestroy m q) | _ => none)
  | 0x0503 => read1 b [2] (fun | [q] => some (.queueEnable m q) | _ => none)
  | 0x0504 => read1 b [2] (fun | [q] => some (.queueDisable m q) | _ => none)
  | 0x0505 => read1 b [2] (fun | [q] => some (.queueReset m q) | _ => none)
  | 0x0506 => read1 b [2] (fun | [q] => some (.queueQuery m q) | _ => none)
  | 0x0507 => read1 b [2, 4, 1] (fun | [q, p, a] => some (.queueSetWatchdog m q p a) | _ => none)
  | 0x0508 => read1 b [2] (fun | [q] => some (.queueSamples m q) | _ => none)
  | 0x0509 => read1 b [2, 4, 8, 1, 4, 2, 1, 8, 1, 4, 4] (fun
      | [eq, log2, ring, notify, vector, node, ep, addr, tc, modCount, modTime] =>
        some (.eqCreate m { eq, log2, ring, notify, vector, node, ep, addr, tc, modCount, modTime })
      | _ => none)
  | 0x050A => read1 b [2] (fun | [e] => some (.eqDestroy m e) | _ => none)
  | _ => none
/-- Service, operator, collective, coherence and mirror commands (Tables 16-10 to 16-12). -/
def cmd3 (m op : Nat) (b : List Byte) : Option (Instr × Nat) :=
  match op with
  | 0x0601 => readN b [4, 4, 4] [1] [] (fun
      | [g, f, _], l, _ => some (.memSlotSet m g f l)
      | _, _, _ => none)
  | 0x0602 => read1 b [8] (fun | [g] => some (.memSlotCommit m g) | _ => none)
  | 0x0603 => read1 b [4, 1] (fun | [g, c] => some (.memSlotQuery m g c) | _ => none)
  | 0x0604 => read1 b [1, 8] (fun | [p, w] => some (.shaperAlloc m p (BitVec.ofNat 64 w)) | _ => none)
  | 0x0605 => read1 b [4] (fun | [x] => some (.shaperFree m x) | _ => none)
  | 0x0606 => read1 b [4, 8] (fun | [x, w] => some (.shaperSet m x (BitVec.ofNat 64 w)) | _ => none)
  | 0x0607 => read1 b [2, 4] (fun | [q, x] => some (.shaperAttach m q x) | _ => none)
  | 0x0608 => read1 b [1, 1] (fun | [p, x] => some (.portDedicate m p x) | _ => none)
  | 0x0701 => read1 b [2, 4, 4, 1, 1, 1, 1, 1, 1, 1, 4, 4, 4, 1, 8, 8, 1, 2, 1, 8, 2, 4] (fun
      | [tag, cid, n, op, inFmt, inScaled, outFmt, outScaled, round, ovf, seed, chunkElems, chunks, accum, result, status,
         deliver, flock, tc, addr, eq, timeout] =>
        some (.collCreate m { tag, cid, n, op, inFmt, inScaled, outFmt, outScaled, round, ovf, seed, chunkElems, chunks,
                              accum, result, status, deliver, flock, tc, addr, eq, timeout })
      | _ => none)
  | 0x0702 => read1 b [2, 4] (fun | [t, c] => some (.collDestroy m t c) | _ => none)
  | 0x0703 => read1 b [2, 4, 4] (fun | [t, c, f] => some (.collQuery m t c f) | _ => none)
  | 0x0704 => read1 b [16, 4] (fun | [k, p] => some (.engineWdSet m k p) | _ => none)
  | 0x0705 => read1 b [1, 4] (fun | [k, n] => some (.engineReset m k n) | _ => none)
  | 0x0801 => read1 b [2, 2, 1] (fun | [a, n, e] => some (.cohAgentAdd m a n e) | _ => none)
  | 0x0802 => read1 b [2] (fun | [a] => some (.cohAgentRemove m a) | _ => none)
  | 0x0803 => read1 b [4, 4] (fun | [l, i] => some (.cohLeaseSet m l i) | _ => none)
  | 0x0804 => read1 b [1] (fun | [f] => some (.cohDirConfig m f) | _ => none)
  | 0x0805 => read1 b [4, 4, 4] (fun | [h, f, n] => some (.cohDirRead m h f n) | _ => none)
  | 0x0806 => read1 b [4] (fun | [h] => some (.cohStats m h) | _ => none)
  | 0x0901 => read1 b [2, 2, 16, 1, 4, 4] (fun
      | [set, partner, ports, role, claim, rate] => some (.mirrorPairSet m { set, partner, ports, role, claim, rate })
      | _ => none)
  | 0x0902 => read1 b [] (fun _ => some (.mirrorUnpair m))
  | 0x0903 => read1 b [] (fun _ => some (.mirrorBreak m))
  | 0x0904 => read1 b [] (fun _ => some (.mirrorQuery m))
  | _ => none
/-- Port and routing commands (Table 16-13). -/
def cmd4 (m op : Nat) (b : List Byte) : Option (Instr × Nat) :=
  match op with
  | 0x0A01 => read1 b [16] (fun | [k] => some (.portQuery m k) | _ => none)
  | 0x0A02 => read1 b [16, 1, 1] (fun | [k, r, w] => some (.portSetModes m k r w) | _ => none)
  | 0x0A03 => read1 b [16, 1] (fun | [k, f] => some (.portTrain m k f) | _ => none)
  | 0x0A04 => read1 b [16] (fun | [k] => some (.portDisable m k) | _ => none)
  | 0x0A05 => read1 b [16] (fun | [k] => some (.portAdmit m k) | _ => none)
  | 0x0A06 => read1 b [16] (fun | [k] => some (.portMarkAbsent m k) | _ => none)
  | 0x0A07 => read1 b [16, 1, 4, 4] (fun | [k, e, a, c] => some (.portSetPower m k e a c) | _ => none)
  | 0x0A08 => read1 b [16, 8] (fun | [k, w] => some (.portSetLink m k (BitVec.ofNat 64 w)) | _ => none)
  | 0x0A09 => read1 b [16, 1] (fun | [k, c] => some (.portLinkStats m k c) | _ => none)
  | 0x0A0A => read1 b [8] (fun | [w] => some (.nodeConfig m (BitVec.ofNat 64 w)) | _ => none)
  | 0x0A0B => readN b [2, 4] [8] [] (fun
      | [f, _], l, _ => some (.routeSet m f l)
      | _, _, _ => none)
  | 0x0A0C => readN b [1, 4] [2] [] (fun
      | [v, _], l, _ => some (.vsetSet m v l)
      | _, _, _ => none)
  | 0x0A0D => read1 b [2] (fun | [n] => some (.routeUnpin m n) | _ => none)
  | 0x0A0E => read1 b [2, 16] (fun | [f, e] => some (.flockSet m f (BitVec.ofNat 128 e)) | _ => none)
  | 0x0A0F => read1 b [1, 4, 4] (fun | [k, f, n] => some (.routeQuery m k f n) | _ => none)
  | 0x0A10 => readN b [4, 4] [2, 1] [1] (fun
      | [x, _], l, [d] => some (.mbAclSet m x (pairUp l) d)
      | _, _, _ => none)
  | _ => none
/-- Memory maintenance, log, reset and power commands (Tables 16-14, 16-15). -/
def cmd5 (m op : Nat) (b : List Byte) : Option (Instr × Nat) :=
  match op with
  | 0x0B01 => read1 b [4, 8] (fun | [g, w] => some (.memSchedSet m g (BitVec.ofNat 64 w)) | _ => none)
  | 0x0B02 => read1 b [4] (fun | [g] => some (.memConfigQuery m g) | _ => none)
  | 0x0B03 => read1 b [8] (fun | [a] => some (.memAddrDecode m a) | _ => none)
  | 0x0B04 => read1 b [2] (fun | [u] => some (.memPcSnapshot m u) | _ => none)
  | 0x0B05 => read1 b [2] (fun | [u] => some (.memPcUnfreeze m u) | _ => none)
  | 0x0B06 => read1 b [2, 1] (fun | [u, k] => some (.memPcSpare m u k) | _ => none)
  | 0x0B07 => read1 b [1, 4, 1] (fun | [k, n, i] => some (.memUnitMarkAbsent m k n i) | _ => none)
  | 0x0B08 => read1 b [8] (fun | [w] => some (.memScrubSet m (BitVec.ofNat 64 w)) | _ => none)
  | 0x0B09 => read1 b [8] (fun | [a] => some (.memRetirePage m a) | _ => none)
  | 0x0B0A => read1 b [2, 1, 1, 1, 1] (fun | [u, i, g, k, d] => some (.memRetireBank m u i g k d) | _ => none)
  | 0x0B0B => read1 b [4] (fun | [f] => some (.memRetireQuery m f) | _ => none)
  | 0x0B0C => read1 b [4] (fun | [i] => some (.memRetireClear m i) | _ => none)
  | 0x0C01 => read1 b [4, 4, 4] (fun | [h, f, n] => some (.logRead m h f n) | _ => none)
  | 0x0C02 => read1 b [4, 4] (fun | [o, n] => some (.dumpRead m o n) | _ => none)
  | 0x0D01 => read1 b [1, 1] (fun | [k, r] => some (.chipReset m k r) | _ => none)
  | 0x0D02 => read1 b [2, 2] (fun | [w, f] => some (.powerLimitSet m w f) | _ => none)
  | 0x0D03 => read1 b [8, 4] (fun | [t, r] => some (.timeSteer m (signed64 t) (signed32 r)) | _ => none)
  | _ => none
/-- Bring-up, firmware and test commands (Tables 16-16, 16-17). -/
def cmd6 (m op : Nat) (b : List Byte) : Option (Instr × Nat) :=
  match op with
  | 0x0E01 => read1 b [] (fun _ => some (.bootQuery m))
  | 0x0E02 => read1 b [] (fun _ => some (.bootProceed m))
  | 0x0E03 =>
    let n := fld (leNat ((b.drop 8).take 8)) 15 8
    read1 b ([1, 8] ++ List.replicate 96 4 ++ List.replicate n 8) (fun l =>
      match l with
      | store :: policy :: rest => some (.topoExpectSet m store
          { policy := BitVec.ofNat 64 policy, ports := (rest.take 96).map (BitVec.ofNat 32),
            neighbours := (rest.drop 96).map (BitVec.ofNat 64) })
      | _ => none)
  | 0x0E04 => read1 b [] (fun _ => some (.topoExpectQuery m))
  | 0x0E05 => read1 b [8, 8, 2, 8, 1, 2, 4] (fun
      | [handle, len, flock, addr, tc, rounds, rate] => some (.bootServe m { handle, len, flock, addr, tc, rounds, rate })
      | _ => none)
  | 0x0E06 => read1 b [4] (fun | [i] => some (.bootServeQuery m i) | _ => none)
  | 0x0E07 => read1 b [4] (fun | [i] => some (.bootServeStop m i) | _ => none)
  | 0x0E10 => read1 b [] (fun _ => some (.fwQuery m))
  | 0x0E11 => readN b [4, 4] [1] [] (fun
      | [o, _], l, _ => some (.fwWrite m o (toBytes l))
      | _, _, _ => none)
  | 0x0E12 => read1 b [4] (fun | [n] => some (.fwCommit m n) | _ => none)
  | 0x0E13 => read1 b [] (fun _ => some (.fwSvnRaise m))
  | 0x0F01 => read1 b [2, 72] (fun | [u, k] => some (.testFlipArm m u k) | _ => none)
  | 0x0F02 => read1 b [] (fun _ => some (.testFlipDisarm m))
  | 0x0F03 => read1 b [1, 1, 4] (fun | [p, k, n] => some (.testPortInject m p k n) | _ => none)
  | _ => none
/-- The command of mailbox `m` that an opcode and a body spell, and the body length it defines; none for an unassigned
opcode. -/
def cmdOf (m op : Nat) (b : List Byte) : Option (Instr × Nat) :=
  match op / 256 with
  | 0x00 | 0x01 | 0x02 | 0x04 => cmd1 m op b
  | 0x03 | 0x05 => cmd2 m op b
  | 0x06 | 0x07 | 0x08 | 0x09 => cmd3 m op b
  | 0x0A => cmd4 m op b
  | 0x0B | 0x0C | 0x0D => cmd5 m op b
  | 0x0E | 0x0F => cmd6 m op b
  | _ => none

/-! The envelope's checks (R373 item 1). -/

/-- The command of a captured request, or the byte offset of the first field that makes it `ST_BAD_ARG` (R371, R373). -/
def Captured.decode (c : Captured) (m : Nat) (fabric : Bool) : Instr ⊕ Nat :=
  match cmdOf m c.opcode c.body with
  | none => .inr 0
  | some (i, n) =>
    if 4064 < c.bodyLen || c.bodyLen != n then .inr 2
    else if c.notify && m != 0 && 31 < c.vec then .inr 6
    else if c.notify && fabric then .inr 6
    else if c.rsvd != 0 then .inr c.rsvd
    else .inl i

/-! Claims (R374). -/

/-- An object that a command may claim: kind and number. Kinds: 1 partition, 2 context, 3 region, 4 queue, 5 event queue,
6 collective, 7 shaper, 8 port, 9 memory unit, 10 channel group, 11 flock, 12 route entry, 13 agent. -/
abbrev Claim := Nat × Nat
/-- The objects of one kind that a mask names. -/
def claimMask (kind mask n : Nat) : List Claim := (bitsOf mask n).map (fun i => (kind, i))
/-- A collective as a number: its context and `COLL_ID`. -/
def collNum (tag cid : Nat) : Nat := tagNum tag * 2 ^ 32 + cid
/-- What a command claims when it starts; a query claims nothing. -/
def claimsOf (i : Instr) : List Claim :=
  match i with
  | .partitionCreate _ b | .partitionResize _ b => [(1, bfld b 5 0)]
  | .partitionDestroy _ p | .partitionReset _ p | .bounceSet _ p _ _ => [(1, p)]
  | .partEqSet _ p e => [(1, p), (5, e)]
  | .fmEqSet _ e _ => [(5, e)]
  | .ctxCreate _ r => [(1, r.part), (5, r.eq)]
  | .ctxTeardown _ t | .ctxRevive _ t | .ctxDestroy _ t | .rankTableSet _ t _ _ | .mapZero _ t _ _
  | .regionUnmap _ t _ _ _ => [(2, tagNum t)]
  | .regionCreate _ r => [(1, r.part)]
  | .regionDestroy _ r => [(3, r)]
  | .regionPublish _ t g _ _ => [(3, t), (3, g)]
  | .regionMap _ t _ r _ _ _ _ => [(2, tagNum t), (3, r)]
  | .queueCreate _ r => [(4, r.q), (2, tagNum r.tag), (5, r.eq)]
  | .queueDestroy _ q | .queueEnable _ q | .queueDisable _ q | .queueReset _ q | .queueSetWatchdog _ q _ _ => [(4, q)]
  | .eqCreate _ r => [(5, r.eq), (3, r.ring / 2 ^ 44)]
  | .eqDestroy _ e => [(5, e)]
  | .memSlotSet _ g _ _ | .memSchedSet _ g _ => [(10, g)]
  | .memSlotCommit _ k => claimMask 10 k 64
  | .shaperAlloc _ p _ => [(1, p)]
  | .shaperFree _ x | .shaperSet _ x _ => [(7, x)]
  | .shaperAttach _ q x => if x = 0xFFFFFFFF then [(4, q)] else [(4, q), (7, x)]
  | .portDedicate _ p x => if x = 0xFF then [(8, p)] else [(8, p), (1, x)]
  | .collCreate _ r => [(6, collNum r.tag r.cid), (2, tagNum r.tag), (5, r.eq), (11, r.flock)]
  | .collDestroy _ t c => [(6, collNum t c), (2, tagNum t)]
  | .cohAgentAdd _ a _ _ | .cohAgentRemove _ a => [(13, a)]
  | .mirrorPairSet _ r => claimMask 8 r.ports 96
  | .portSetModes _ k _ _ | .portTrain _ k _ | .portDisable _ k | .portAdmit _ k | .portMarkAbsent _ k
  | .portSetPower _ k _ _ _ | .portSetLink _ k _ | .portLinkStats _ k _ => claimMask 8 k 96
  | .routeSet _ f l => (List.range l.length).map (fun i => (12, f + i))
  | .flockSet _ f _ => [(11, f)]
  | .memPcUnfreeze _ u | .memPcSpare _ u _ | .memRetireBank _ u _ _ _ _ | .testFlipArm _ u _ => [(9, u)]
  | .memUnitMarkAbsent _ k n _ =>
    if k = 1 then (List.range 64).map (fun i => (9, 64 * n + i)) else [(9, if k = 2 then 0x8000 + n else n)]
  | .bootServe _ r => [(3, r.handle / 2 ^ 44), (11, r.flock)]
  | .testPortInject _ p _ _ => [(8, p)]
  | _ => []
/-- The claims of a submitted request, started or not. -/
def Mailbox.claims (b : Mailbox) (m : Nat) : List Claim :=
  match b.cmd, b.cap with
  | some i, _ => claimsOf i
  | none, some c =>
    match c.decode m b.heldByFabric with
    | .inl i => claimsOf i
    | .inr _ => []
  | none, none => []
/-- Mailboxes whose command has started and not ended. -/
def State.runningMbs (s : State) : List (Nat × Mailbox) := s.mbs.filter (fun b => b.2.st == .running && b.2.started)
/-- Mailboxes whose command waits to start, with its place in the order of doorbells. -/
def State.waitingMbs (s : State) : List (Nat × Mailbox) := s.mbs.filter (fun b => b.2.st == .running && !b.2.started && b.2.cap.isSome)
/-- The order of a waiting request. -/
def Mailbox.order (b : Mailbox) : Nat := (b.cap.map (·.order)).getD 0
/-- Whether two lists of claims meet. -/
def claimsMeet (a b : List Claim) : Bool := a.any (fun x => b.contains x)
/-- Whether no running command, and no command submitted earlier, claims an object of a waiting request. -/
def State.unclaimed (s : State) (m : Nat) (b : Mailbox) : Bool :=
  let mine := b.claims m
  !(s.runningMbs.any (fun r => claimsMeet mine (r.2.claims r.1)))
  && !(s.waitingMbs.any (fun w => decide (w.2.order < b.order) && claimsMeet mine (w.2.claims w.1)))
/-- Whether a submitted command starts now: a slot of the 16 is free, its objects are unclaimed, and no earlier command could
start. -/
def State.cmdMayStart (s : State) (m : Nat) (b : Mailbox) : Bool :=
  decide (s.runningMbs.length < 16) && s.unclaimed m b
  && !(s.waitingMbs.any (fun w => decide (w.2.order < b.order) && s.unclaimed w.1 w.2))
/-- MB_COMMAND_START (R373, R374): the request is read and its objects are claimed; the row of its command then runs. A request
that fails the envelope's checks has its response at once. -/
def execMbCommandStart (mbx : Nat) (s : State) : Host.Outcome State Fault Refusal :=
  let b := s.mb mbx
  settled (match if b.st == .running && !b.started then b.cap else none with
    | none => s
    | some c =>
      if !s.cmdMayStart mbx b then s
      else
        match c.decode mbx b.heldByFabric with
        | .inl i => s.updMb mbx (fun b => { b with started := true, cmd := some i })
        | .inr off => (s.updMb mbx (fun b => { b with started := true })).respond mbx { status := .badArg, failOff := off })

end Sys2Proof.Machine
end

