-- ==== Sys2Proof/Machine/Schedule.lean ====
section
/-! DEFINITION. Memory slots, the scheduling policies, refresh and what exposes a freeze (R240 to R249, R286 to R293, R423). -/

namespace Sys2Proof.Machine

/-! Slots and guards (R286 to R291). -/

/-- The owner of a slot of a table: a partition that exists, or none for an OPEN slot. -/
def State.slotOwner (s : State) (g i : Nat) : Option Nat :=
  let e := (s.group g).active.or (i % 1024) 0
  if e / 64 = 1 && (s.part? (e % 64)).isSome then some (e % 64) else none
/-- Whether a run of a strict partition begins at a slot (R291). -/
def State.runStarts (s : State) (g i : Nat) : Bool :=
  match s.slotOwner g i with
  | some p => s.strictNow p && s.slotOwner g (i + 1023) != some p
  | none => false
/-- Whether a slot is a guard slot (R291). -/
def State.guardSlot (s : State) (g i : Nat) : Bool :=
  (List.range 12).any (fun d => s.runStarts g (i + d + 1))
  || (1012 ≤ i && s.strictGroup g && !(List.range 1024).any (fun k => s.runStarts g k))
/-- The units of a group that may be commanded: assembled, present, not frozen, awake. -/
def State.groupLive (s : State) (g : Nat) : List Nat :=
  (groupUnits g).filter (fun u => s.unitPresent u && (s.unit u).frozen.isNone && (s.unit u).power = 0)
/-- Whether a member of a group's round has a request queued in it: a partition, or 64 the controller. -/
def State.groupWants (s : State) (g p : Nat) : Bool :=
  (s.groupLive g).any (fun u => (s.unit u).rq.any (fun e => e.part == p) || (s.unit u).wq.any (fun e => e.part == p))
/-- The members of an open slot's round, ascending, with their weights (R290). -/
def State.groupRound (s : State) (g : Nat) : List (Nat × Nat) :=
  (((s.parts.filter (fun (p : Nat × Partition) => p.2.mode == 0)).map (fun (p : Nat × Partition) => (p.1, p.2.weight))) ++ [(64, 16)]).filter (fun x => s.groupWants g x.1)
/-- The weighted round-robin pick: the member whose turn it is while it has turns left, else the next one. -/
def roundPick (turn : Nat × Nat) (l : List (Nat × Nat)) : Option (Nat × (Nat × Nat)) :=
  match l.find? (fun x => x.1 == turn.1 && turn.2 < x.2) with
  | some x => some (x.1, (x.1, turn.2 + 1))
  | none =>
    match l.find? (fun x => turn.1 < x.1) with
    | some x => some (x.1, (x.1, 1))
    | none => l.head?.map (fun x => (x.1, (x.1, 1)))
/-- The partition whose requests are eligible in a slot (R290), and the state after the round has moved. -/
def State.eligible (s : State) (g i : Nat) : Option Nat × State :=
  let open_ := match roundPick (s.group g).turn (s.groupRound g) with
    | some (p, t) => (some p, s.updGroup g (fun x => { x with turn := t }))
    | none => (none, s)
  match s.slotOwner g i with
  | some p => if s.strictNow p || s.groupWants g p then (some p, s) else open_
  | none => open_

/-! Policies (R242, R292). -/

/-- A queued request that may issue: writes to one sector go in arrival order (R243). -/
def MemUnit.firstWrites (m : MemUnit) : List QEntry :=
  m.wq.foldl (fun l e => if l.any (fun x => x.sector == e.sector) then l else l ++ [e]) []
/-- The first element of a list with the least measure. -/
def leastBy (f : QEntry → Nat) (l : List QEntry) : Option QEntry :=
  l.foldl (fun r e => match r with
    | none => some e
    | some x => if f e < f x then some e else some x) none
/-- Whether a request hits the open row of its bank. -/
def State.rowHit (s : State) (u : Nat) (e : QEntry) : Bool :=
  let l := s.locate e.sector
  (s.unit u).openRow.at? l.bankKey == some l.row
/-- Rules 1 to 4 of R242; `classes` false leaves rule 2 out. Of two requests of one nanosecond a read counts as older (log 13). -/
def State.byAge (s : State) (u age : Nat) (classes : Bool) (l : List QEntry) : Option QEntry :=
  match l.filter (fun e => age < s.clock.aon - e.aon) with
  | [] =>
    let top := l.foldl (fun r e => max r e.cls) 0
    let l := if classes then l.filter (fun e => e.cls == top) else l
    let hits := l.filter (s.rowHit u)
    leastBy (·.aon) (if hits.isEmpty then l else hits)
  | old => leastBy (·.aon) old
/-- The request that a unit issues for the eligible partition `p` (R242, R292): the request, and whether the part of the write
queue it uses is being drained. -/
def State.pick (s : State) (u p : Nat) (ok : QEntry → Bool) : Option QEntry × Bool :=
  let m := s.unit u
  let w := (s.group (unitGroup u)).word
  let age := 8 * bfld w 61 48
  let key := s.queuePart u p
  let div := if key < 64 then 4 else 1
  let hi := if key < 64 then max 1 (bfld w 47 41 / div) else bfld w 47 41
  let lo := bfld w 40 34 / div
  let own := m.wq.filter (fun e => s.queuePart u e.part == key)
  let rs := m.rq.filter (fun e => e.part == p && ok e)
  let ws := m.firstWrites.filter (fun e => e.part == p && ok e)
  if bfld w 62 62 = 0 then (s.byAge u age true (rs ++ ws), false)
  else
    let draining := (m.drain.contains key && decide (lo < own.length)) || decide (hi ≤ own.length)
      || own.any (fun e => 8 * age < s.clock.aon - e.aon)
    if draining then
      let hits := ws.filter (s.rowHit u)
      (leastBy (·.aon) (if hits.isEmpty then ws else hits), true)
    else (s.byAge u age false rs, false)
/-- What a hot stack or DIMM keeps a unit from issuing in a slot (R423). -/
def State.heatAllows (s : State) (u i : Nat) (e : QEntry) : Bool :=
  if u < 768 then !s.power.hotUnits.contains (0x4100 + u / 64) || i % 2 = 0 || s.rowHit u e
  else !s.power.hotUnits.contains u || i % 4 = 0
/-- A unit's scheduling decision in a slot; `owned` says whether the eligible partition owns the slot (R290). -/
def State.slotUnit (s : State) (u p i : Nat) (owned : Bool) : State :=
  let (e, drain) := s.pick u p (s.heatAllows u i)
  let key := s.queuePart u p
  let s := s.updUnit u (fun m => { m with drain := if drain then addSorted m.drain key else dropVal m.drain key })
  match e with
  | none => s
  | some e =>
    let s := s.updUnit u (fun m => if e.write then { m with wq := m.wq.erase e } else { m with rq := m.rq.erase e })
    let s := match e.desc, owned with
      | some (q, j), false => s.modDesc q j (fun d => if d.wait = 0 then { d with wait := 1 } else d)
      | _, _ => s
    s.issue u e

/-! Guards and neighbour refreshes (R246, R291). -/

/-- A unit makes the neighbour refreshes that are due, at most one of each bank in a guard. -/
def State.refreshDue (s : State) (u : Nat) : State :=
  (s.unit u).due.foldl (fun s x =>
    if (s.unit u).guarded.contains x.1 then s
    else
      let s := s.updUnit u (fun m => { m with
        due := m.due.erase x
        guarded := x.1 :: m.guarded
        act := m.act.mod x.1 (fun t => t.map (fun e => if e.1 = x.2 then (e.1, 0) else e)) })
      s.neighbourRefresh u x.1 x.2) s
/-- Every bank of a unit is precharged. -/
def MemUnit.precharge (m : MemUnit) (aon : Nat) : MemUnit :=
  let m' := m.openRow.foldl (fun m x => m.cmd 4 (keyCode x.1) x.2 aon) m
  { m' with openRow := [] }
/-- MEM_SLOT_TICK (R242, R290 to R292): one scheduling decision of each unit of a group in the present slot. -/
def execMemSlotTick (g : Nat) (s : State) : Host.Outcome State Fault Refusal :=
  settled (
    if 64 ≤ g || s.boot.held || s.boot.stopped then s
    else
      let i := s.slotNow
      let us := s.groupLive g
      if s.guardSlot g i then
        us.foldl (fun s u => (s.updUnit u (fun m => m.precharge s.clock.aon)).refreshDue u) s
      else
        let s := us.foldl (fun s u => s.updUnit u (fun m => { m with guarded := [] })) s
        let s := if s.strictGroup g then s else us.foldl (fun s u => s.refreshDue u) s
        match s.eligible g i with
        | (none, s) => s
        | (some p, s) => us.foldl (fun s u => s.slotUnit u p i (s.slotOwner g i == some p)) s)
/-- SLOT_TABLE_WRAP (R283, R288): marked groups switch, modes and weights come into force, and the commands that waited for the
wrap end; a commit reports the time base of the wrap. -/
def execSlotTableWrap (s : State) : Host.Outcome State Fault Refusal :=
  settled (
    let groups := s.pool.groups.map (fun g =>
      (g.1, if g.2.commit then { g.2 with active := g.2.shadow, commit := false } else g.2))
    let waits := s.pool.commitMbs
    let s := { s with parts := s.parts.map (fun p => (p.1, p.2.inForce)),
                      pool := { s.pool with groups, commitMbs := [] } }
    waits.foldl (fun s w => s.respond w.1 (if w.2 then okBody [(8, s.now)] else okResp)) s)

/-! Refresh (R244 to R247). -/

/-- A refresh closes the rows that `f` accepts by bank key. -/
def MemUnit.refresh (m : MemUnit) (f : Nat → Bool) (code aon : Nat) : MemUnit :=
  ({ m with openRow := m.openRow.filter (fun x => !f x.1), refreshes := m.refreshes + 1 } : MemUnit).cmd 5 code 0 aon
/-- Whether a unit refreshes by command: present, its contents kept, not in self-refresh (R244, R249, R420). -/
def State.refreshing (s : State) (u : Nat) : Bool :=
  s.unitPresent u && !((s.unit u).frozen.any (·.contentsLost)) && (s.unit u).power != 2 && !s.boot.held
/-- REFRESH_TICK (R244). -/
def execRefreshTick (u : Nat) (s : State) : Host.Outcome State Fault Refusal :=
  settled (if u < 768 && s.refreshing u then s.updUnit u (fun m => m.refresh (fun _ => true) 0 s.clock.aon) else s)
/-- The logical ranks of a DDR5 channel, slot 0's first (R237, R245): DIMM slot and rank in it. -/
def State.ranksOf (s : State) (dc : Nat) : List (Nat × Nat) :=
  [0, 1].flatMap (fun k => match s.dimm? dc k with
    | some d => (List.range d.ranks).map (fun r => (k, r))
    | none => [])
/-- DDR5_REFRESH_TICK (R245): all banks of one rank of the channel. -/
def execDdr5RefreshTick (dc rank : Nat) (s : State) : Host.Outcome State Fault Refusal :=
  let u := 0x8000 + dc
  settled (match if dc < 16 && s.refreshing u then (s.ranksOf dc)[rank]? else none with
    | some (k, r) => s.updUnit u (fun m => m.refresh (fun b => b / 256 == 16 * k + r) (at_ r 4 4) s.clock.aon)
    | none => s)
/-- REFRESH_WINDOW_START (R246, R247, R249): tables and counts start afresh. -/
def execRefreshWindowStart (u : Nat) (s : State) : Host.Outcome State Fault Refusal :=
  settled (if s.assembled u then
      s.updUnit u (fun m => { m with
        act := []
        neigh := []
        storm := []
        frozen := m.frozen.map (fun f => { f with refreshErrs := 0 }) })
    else s)
/-- The partitions with work on units: those with a region that has a member there (R307, log 14). -/
def State.memWork (s : State) (us : List Nat) : List Nat := (s.partsOf (us.flatMap s.regionsOn).dedup)
/-- TEMPERATURE_BAND_CHANGE (R244, R245, R307): the interval of a whole stack, or of a DDR5 channel. -/
def execTemperatureBandChange (u hot : Nat) (s : State) : Host.Outcome State Fault Refusal :=
  let us := if u < 768 then (List.range 64).map (fun i => u / 64 * 64 + i) else [u]
  let unit := if u < 768 then 0x4100 + u / 64 else u
  settled (
    if !s.assembled u || (s.unit u).hot == (hot == 1) then s
    else
      let s := us.foldl (fun s x => s.updUnit x (fun m => { m with hot := hot == 1 })) s
      s.postParts (s.memWork us) (fun _ => throttleEv unit 2 (hot != 1) s.now))

/-! What the memory interfaces report (R248, R249, R262). -/

/-- SECTOR_READ_DECODE (R262): a read of a sector, issued at once. -/
def execSectorReadDecode (u ppa : Nat) (s : State) : Host.Outcome State Fault Refusal :=
  let sec := ppa / 64 * 64
  settled (
    if s.unitOf sec != some u then s
    else
      let (x, s) := s.fetch u sec {}
      s.updPool (fun p => { p with lastRead := x.data }))
/-- The access in flight when an interface error is found at `ppa`: the request issued last, if it is one of that sector (R248, R250,
log 90). -/
def State.inFlight (s : State) (u ppa : Nat) : Option QEntry :=
  (s.unit u).last.filter (fun e => e.sector == ppa / 64 * 64)
/-- CA_PARITY_ERROR (R248, R249): the fourth in a refresh window on a frozen unit stops its refresh. -/
def execCaParityError (u ppa : Nat) (s : State) : Host.Outcome State Fault Refusal :=
  settled (
    if !s.unitPresent u then s
    else
      let was := (s.unit u).frozen
      let s := s.freeze u 2 ppa [0, 0, 0] (s.inFlight u ppa) none
      match was, (s.unit u).frozen with
      | some _, some f =>
        let n := f.refreshErrs + 1
        let lost := f.contentsLost || decide (4 ≤ n)
        let s := s.updUnit u (fun m => { m with frozen := some { f with refreshErrs := n, contentsLost := lost } })
        if lost && !f.contentsLost then s.log 9 u ppa 1 0 [] none else s
      | _, _ => s)
/-- LOCK_LOST (R248). -/
def execLockLost (u ppa : Nat) (s : State) : Host.Outcome State Fault Refusal :=
  settled (if s.unitPresent u then s.freeze u 3 ppa [0, 0, 0] (s.inFlight u ppa) none else s)

end Sys2Proof.Machine
end

