-- ==== Sys2Proof/Machine/MemUnits.lean ====
section
/-! DEFINITION. Commands on memory units: scheduling words, address decoding, freezes and how they end, spares, absence (R237,
R240, R250 to R255, R258). -/

namespace Sys2Proof.Machine

/-! Queries and words (Table 16-15). -/

/-- Whether a scheduling word breaks a range of Table 10-2 (R240). -/
def schedBad (w : BitVec 64) : Bool :=
  let f := bfld w
  f 63 63 != 0 || f 18 0 != 0 || f 61 48 < 32 || 8000 < f 61 48 || f 47 41 < 2 || 64 < f 47 41 || f 47 41 ≤ f 40 34
  || f 33 19 < 256
/-- MEM_SCHED_SET (R240). -/
def execMemSchedSet (m g : Nat) (word : BitVec 64) (s : State) : Host.Outcome State Fault Refusal :=
  settled (s.command m { fm := true, need := 1 }
    [chk (decide (g < 64) && !s.groupPresent g) .absentUnit, bad (64 ≤ g) 0, bad (schedBad word) 8]
    (fun s => (s.updGroup g (fun x => { x with word })).respond m okResp))
/-- MEM_CONFIG_QUERY (Table 16-15). -/
def execMemConfigQuery (m g : Nat) (s : State) : Host.Outcome State Fault Refusal :=
  settled (s.command m { fm := true, query := true, need := 1 }
    [chk (decide (g < 64) && !s.groupPresent g) .absentUnit, bad (64 ≤ g) 0]
    (fun s => s.respond m (okBody [(8, (s.group g).word.toNat), (8, s.pool.scrubWord.toNat)])))
/-- The physical pseudo-channel that serves a unit (R253, R255). -/
def State.physical (s : State) (u : Nat) : Nat :=
  match (s.unit u).spare with
  | some k => u / 64 * 64 + k
  | none => u
/-- MEM_ADDR_DECODE (R237). -/
def execMemAddrDecode (m ppa : Nat) (s : State) : Host.Outcome State Fault Refusal :=
  let l := s.locate ppa
  settled (s.command m { fm := true, query := true, need := 1 } [bad (s.unitOf ppa).isNone 0]
    (fun s =>
      let u := (s.unitOf ppa).getD 0
      s.respond m (okBody [(2, u), (2, s.physical u), (1, l.sid), (1, l.bg), (1, l.bank), (4, l.row), (4, l.col)])))

/-! The snapshot (R250, Table 10-4). -/

/-- A queue entry of the snapshot. -/
def QEntry.snap (e : QEntry) : Nat :=
  at_ e.sector 44 20 + at_ e.cls 2 18 + at_ (b2n e.write) 1 17 + at_ (if e.tag < 65536 then e.tag else 0) 16 0
    + at_ e.time.toNat 64 64
/-- A command of `LAST_CMDS`. -/
def lastCmd (c : Nat) : Nat := at_ (c % 2 ^ 32) 32 32 + sat 32 (c / 2 ^ 32)
/-- The snapshot header. -/
def Snapshot.header (f : Snapshot) (u : Nat) : Nat :=
  let lo := fun i => f.synd.getD i 0 % 65536
  let hi := fun i => f.synd.getD i 0 / 65536
  let ch := 768 ≤ u
  at_ (if ch then hi 0 + hi 1 * 2 ^ 16 + hi 2 * 2 ^ 32 else 0) 48 512 + at_ f.time.toNat 64 448 + at_ f.failPpa 44 404
    + at_ f.cause 4 400 + at_ u 16 384 + at_ (lo 0 + lo 1 * 2 ^ 16 + lo 2 * 2 ^ 32) 48 336 + at_ f.rq.length 8 328
    + at_ f.wq.length 8 320 + at_ f.later 16 304 + at_ f.temp 8 296 + at_ (b2n f.contentsLost) 1 295
    + ((f.cmds.zipIdx).map (fun c => at_ (lastCmd c.1) 64 (64 * c.2))).sum
/-- The check of R251 and R254 that a unit is present. -/
def State.unitGone (s : State) (u : Nat) : Check := chk (!s.unitPresent u) .absentUnit
/-- MEM_PC_SNAPSHOT (R250, R254). -/
def execMemPcSnapshot (m u : Nat) (s : State) : Host.Outcome State Fault Refusal :=
  settled (s.command m { fm := true, query := true, need := 1 } [s.unitGone u, bad (s.unit u).frozen.isNone 0]
    (fun s =>
      match (s.unit u).frozen with
      | some f => s.respond m (okBody ((128, f.header u) :: recs 16 ((f.rq ++ f.wq).map QEntry.snap)))
      | none => s))

/-! The end of a freeze (R22, R251 to R255, R258). -/

/-- Clears `DEGRADED` on the regions of a unit that no other member degrades (R253). -/
def State.undegrade (s : State) (u : Nat) : State :=
  (s.regionsOn u).foldl (fun s r => s.modRegion r (fun x => { x with degraded := s.regionBad x })) s
/-- The lines of a DDR5 channel in the tier cache. -/
def State.linesOf (s : State) (u : Nat) : List TierLine := s.pool.tier.filter (fun l => ppaWindow (l.line * 1024) == some u)
/-- Writes back the dirty lines of a channel that has been unfrozen (R258). -/
def State.writeBackUnit (s : State) (u : Nat) : State :=
  let ls := (s.linesOf u).filter (fun l => l.dirty != 0)
  let s := ls.foldl (fun s l => s.writeBackLine l) s
  s.updPool (fun p => { p with tier := p.tier.map (fun l => if ls.contains l then { l with dirty := 0 } else l) })
/-- A unit's strainer pass starts afresh (R270, R272). -/
def MemUnit.restartPass (m : MemUnit) : MemUnit :=
  { m with scrub := 0, pageCe := [], bankRows := [], advised := [], ceBanks := [] }
/-- MEM_PC_UNFREEZE (R251): a sector at `FAIL_PPA` is written with poison; its data bits are free values (log 5). -/
def execMemPcUnfreeze (m u : Nat) (s : State) : Host.Outcome State Fault Refusal :=
  let f := (s.unit u).frozen
  settled (s.command m { fm := true, need := 1 }
    [s.unitGone u, bad (f.isNone || (s.unit u).sparing.isSome) 0, chk (f.any (·.contentsLost)) .notPermitted]
    (fun s =>
      match f with
      | none => s
      | some f =>
        let s := s.updUnit u (fun m => ({ m with frozen := none } : MemUnit).restartPass)
        let s :=
          if s.unitOf f.failPpa == some u && !(f.cause != 1 && f.failPpa == 0) then
            let e : QEntry := { s.entry f.failPpa {} with write := true, bytes := (deniedSector f.failPpa .poison).data, poison := true }
            (s.store u e { poison := true, remote := s.remoteBit f.failPpa }).log 6 u f.failPpa 1 1 [] none
          else s
        ((s.writeBackUnit u).undegrade u).respond m okResp))

/-! Spares (R252, R253, R274). -/

/-- Whether spare `k` of a unit's stack is free for it: present, unfrozen, serving or being written for no unit. -/
def State.spareFree (s : State) (u k : Nat) : Bool :=
  let base := u / 64 * 64
  s.isSpare (base + k) && base + k != u && s.unitPresent (base + k) && (s.unit (base + k)).frozen.isNone
  && !s.pool.units.any (fun x => x.1 / 64 == u / 64 &&
    (x.2.spare == some k || (x.2.sparing.map (·.1)) == some k || (x.2.bankMove.map (·.1)) == some k))
/-- The free spares of a unit's stack. -/
def State.freeSpares (s : State) (u : Nat) : List Nat := [0, 1].filter (s.spareFree u)
/-- MEM_PC_SPARE (R251, R253): mode 0 COPY, 1 POISON; it completes at SPARE_COPY_DONE. -/
def execMemPcSpare (m u mode : Nat) (s : State) : Host.Outcome State Fault Refusal :=
  let f := (s.unit u).frozen
  settled (s.command m { fm := true, need := 1 }
    [s.unitGone u, bad (768 ≤ u || f.isNone || (s.unit u).sparing.isSome) 0, bad (1 < mode) 2,
     chk (s.freeSpares u).isEmpty .noResource]
    (fun s =>
      let (k, s) := s.choose (s.freeSpares u) 0
      let lost := f.any (·.contentsLost)
      s.updUnit u (fun x => { x with sparing := some (k, mode == 1 || lost, m) })))
/-- The sectors of a unit's slice whose stored word differs from a code word: only they are not clean. -/
def State.dirtySectors (s : State) (u : Nat) : List Nat :=
  (s.pool.smeta.filter (fun x => x.2.flip != 0 && ppaWindow x.1 == some u)).map (·.1)
/-- Copies a unit's slice into a spare on the BKG class, its requests issued at once (R241, R253, R262; log 31): the spare takes the slice's place, so a corrected sector holds the corrected
data, and one that reads uncorrectable is poisoned when `go`, else it stops the copy. The first such sector, and the state. -/
def State.copySlice (s : State) (u : Nat) (go : Bool) : Option (Nat × List Nat) × State :=
  (s.dirtySectors u).foldl (fun (r : Option (Nat × List Nat) × State) sec =>
    let d := r.2.decodeAt u sec
    if r.1.isSome then r
    else if d.out = 2 then
      if go then
        let bytes := (deniedSector sec .poison).data
        let s := r.2.updPool (fun p => { p with mem := (p.mem.clear sec 64).write sec bytes })
        (none, ((s.setMeta sec { poison := true, remote := s.remoteBit sec }).log 3 u sec 1 0 d.synd none).log 6 u sec 1 2 [] none)
      else (some (sec, d.synd), r.2)
    else
      let s := if d.out = 1 then r.2.corrected u sec d.sym d.synd none else r.2
      let s := s.updPool (fun p => { p with mem := (p.mem.clear sec 64).write sec d.sec.data })
      (none, s.setMeta sec { poison := d.sec.poison, remote := d.sec.remote })) (none, s)
/-- Writes every sector of a unit's spare as poisoned (R253); granules with a directory entry keep their remote-copy bit. One log
record stands for all of them (log 15). -/
def State.poisonSlice (s : State) (u : Nat) : State :=
  let lo := sliceBase u
  let hi := lo + 0x48000000
  let s := s.updPool (fun p => { p with
    mem := p.mem.clear lo 0x48000000
    smeta := p.smeta.filter (fun x => !(lo ≤ x.1 && x.1 < hi)) })
  let s := s.updUnit u (fun m => { m with poisonAll := true })
  let s := (s.coh.dir.filter (fun e => lo ≤ e.gran * 128 && e.gran * 128 < hi)).foldl (fun s e =>
    [e.gran * 128, e.gran * 128 + 64].foldl (fun s a =>
      (s.updPool (fun p => { p with mem := p.mem.write a (deniedSector a .poison).data })).setMeta a
        { poison := true, remote := true }) s) s
  s.log 6 u lo 1 2 [] none
/-- The logical pseudo-channel points at the spare and serves from empty queues; `DEGRADED` is cleared, the partitions are told
(R253 steps 3 and 4, R306). -/
def State.pointAt (s : State) (u k : Nat) : State :=
  let s := s.updUnit u (fun m => ({ m with
    frozen := none, sparing := none, bankMove := none, spare := some k, rq := [], wq := [], drain := [], openRow := [],
    act := [], neigh := [], storm := [], due := [], cmds := [] } : MemUnit).restartPass)
  (s.undegrade u).outside u 3 (s.regionsOn u)
/-- SPARE_COPY_DONE (R253). -/
def execSpareCopyDone (u : Nat) (s : State) : Host.Outcome State Fault Refusal :=
  settled (match (s.unit u).sparing with
    | none => s
    | some (k, poison, m) =>
      let lost := (s.unit u).frozen.any (·.contentsLost)
      let s := if poison || lost then s.poisonSlice u else (s.copySlice u true).2
      ((s.fireFlip (u / 64 * 64 + k) (sliceBase u) none).pointAt u k).respond m okResp)

/-! Absence (R254, R258). -/

/-- The queued requests of a unit whose bytes have just become absent leave its queues, answered `ST_POISON` (R254, R274). -/
def State.dropAbsent (s : State) (u : Nat) : State :=
  let gone := fun (e : QEntry) => s.absentAt u e.sector
  (s.updUnit u (fun m => { m with rq := m.rq.filter (fun e => !gone e), wq := m.wq.filter (fun e => !gone e) })).answerDenied .poison
    ((s.unit u).wq.filter gone)
/-- A unit, or a stack id of it, becomes absent: queued requests are answered, a freeze ends, a copy in progress ends. -/
def State.markUnit (s : State) (u : Nat) (sid : Option Nat) : State :=
  let x := s.unit u
  let s := match sid with
    | some i => (s.updUnit u (fun m => { m with absentIds := addSorted m.absentIds i })).dropAbsent u
    | none =>
      let s := (s.respond? (x.sparing.map (fun (y : Nat × Bool × Nat) => y.2.2)) { status := .absentUnit }).respond? (x.bankMove.map (fun (y : Nat × Nat) => y.2)) { status := .absentUnit }
      let s := (s.updUnit u (fun m => { m with
        absent := true
        frozen := none
        sparing := none
        bankMove := none })).dropAbsent u
      s.updPool (fun p => { p with tier := p.tier.filter (fun l => ppaWindow (l.line * 1024) != some u) })
  let rs := s.regionsOn u
  let base := if u < 768 then sliceBase u + (sid.getD 0) * 16384 else slotBase (u - 0x8000) 0
  ((s.degrade rs).log 6 u base 1 3 [] none).outside u 2 rs
/-- The units that `MEM_UNIT_MARK_ABSENT` names: kind 0 PC, 1 STACK, 2 DC, 3 STACK_ID. -/
def markTargets (kind num : Nat) : List Nat :=
  match kind with
  | 1 => (List.range 64).map (fun i => 64 * num + i)
  | 2 => [0x8000 + num]
  | _ => [num]
/-- Whether a target is absent already. -/
def State.markedAlready (s : State) (kind sid u : Nat) : Bool :=
  !s.unitPresent u || (kind == 3 && (s.unit u).absentIds.contains sid)
/-- MEM_UNIT_MARK_ABSENT (R254). -/
def execMemUnitMarkAbsent (m kind num sid : Nat) (s : State) : Host.Outcome State Fault Refusal :=
  let ts := markTargets kind num
  let pcs := kind != 2 && ts.any (fun u => 768 ≤ u)
  settled (s.command m { fm := true, need := 1 }
    [chk (decide (kind < 4) && (pcs || ts.all (s.markedAlready kind sid))) .absentUnit, bad (3 < kind) 0,
     bad (kind == 3 && 3 < sid) 8]
    (fun s =>
      let s := (ts.filter (fun u => !s.markedAlready kind sid u)).foldl (fun s u =>
        s.markUnit u (if kind = 3 then some sid else none)) s
      s.respond m okResp))

end Sys2Proof.Machine
end

