-- ==== Sys2Proof/Machine/Retire.lean ====
section
/-! DEFINITION. The strainer, the kettle's timer, the flip mask, the error log and retirement (R263, R268, R270 to R278). -/

namespace Sys2Proof.Machine

/-! The strainer (R270 to R272). -/

/-- The sectors of a unit, as ranges: first PPA and number (R270). -/
def State.unitSectors (s : State) (u : Nat) : List (Nat × Nat) :=
  (s.unitChunks u).map (fun r => (r.1 * 65536, (r.2 - r.1) * 1024))
/-- The PPA of sector `n` of a pass; none past its end. -/
def passSector : List (Nat × Nat) → Nat → Option Nat
  | [], _ => none
  | (base, k) :: r, n => if n < k then some (base + 64 * n) else passSector r (n - k)
/-- The next sector of a pass, or the next pass. -/
def State.advancePass (s : State) (u : Nat) : State :=
  s.updUnit u (fun m =>
    if (passSector (s.unitSectors u) (m.scrub + 1)).isSome then { m with scrub := m.scrub + 1 } else m.restartPass)
/-- `MEM_RETIRE_RECOMMEND` for a page or a bank, once in a pass (R272, R276). -/
def State.recommend (s : State) (u sec : Nat) (bank : Bool) : State :=
  let l := s.locate sec
  let key := if bank then l.bankKey * 2 + 1 else sec / 65536 * 2
  if (s.unit u).advised.contains key then s
  else
    let s := s.updUnit u (fun m => { m with advised := key :: m.advised })
    let s := s.log 7 u (if bank then sec else sec / 65536 * 65536) 1 (b2n bank) [] none
    s.postFm { typ := 0x1A, obj := u, body := b2n bank + at_ l.bankCode 8 8
                                              + (if bank then 0 else at_ (sec / 65536 * 65536) 64 64) }
/-- A sector that the strainer found corrected is counted and written back; the write-back keeps the stored metadata (R271, R272). -/
def State.scrubCorrected (s : State) (u sec : Nat) (d : Decoded) : State :=
  let l := s.locate sec
  let s := s.corrected u sec d.sym d.synd none
  let s := s.updUnit u (fun m => { m with
    pageCe := m.pageCe.upd (sec / 65536) 0 (· + 1)
    bankRows := if m.bankRows.contains (l.bankKey, l.row) then m.bankRows else (l.bankKey, l.row) :: m.bankRows })
  let m := s.unit u
  let w := s.pool.scrubWord
  let s := if bfld w 52 45 ≤ m.pageCe.or (sec / 65536) 0 then s.recommend u sec false else s
  let s := if bfld w 44 37 ≤ (m.bankRows.filter (fun x => x.1 == l.bankKey)).length then s.recommend u sec true else s
  if (s.kettleAt sec).isSome then s
  else
    let e : QEntry := { s.entry sec { cls := 0, part := 65, tag := 0x10000 } with
      write := true, bytes := d.sec.data, poison := d.sec.poison }
    (s.command_ u e).store u e { poison := d.sec.poison, remote := d.sec.remote }
/-- STRAINER_TICK (R270, R271): the read takes a place in the queue on the BKG class and is issued in the same step (R241; log 31); a
sector with a queued write reads clean (R243), and one that the unit does not serve is passed over. -/
def execStrainerTick (u : Nat) (s : State) : Host.Outcome State Fault Refusal :=
  let m := s.unit u
  settled (
    if !s.unitPresent u || m.frozen.isSome || m.power = 2 || bfld s.pool.scrubWord 53 53 = 0 || s.boot.held then s
    else
      match passSector (s.unitSectors u) m.scrub with
      | none => s.advancePass u
      | some sec =>
        if s.absentAt u sec || m.wq.any (fun e => e.sector == sec) then s.advancePass u
        else
          let e := s.entry sec { cls := 0, part := 65, tag := 0x10000 }
          let s := s.makeRoom u false 65
          if (s.unit u).frozen.isSome then s
          else
            let s := s.command_ u e
            let d := s.decodeAt u sec
            if d.out = 2 then s.freeze u 1 sec d.synd (some e) none
            else (if d.out = 1 then s.scrubCorrected u sec d else s).advancePass u)
/-- Whether a strainer word breaks a range of Table 11-4 (R272). -/
def scrubBad (w : BitVec 64) : Bool :=
  bfld w 36 0 != 0 || bfld w 63 54 == 0 || 720 < bfld w 63 54 || bfld w 52 45 == 0 || bfld w 44 37 == 0
/-- MEM_SCRUB_SET (R272): on re-enable, passes restart. -/
def execMemScrubSet (m : Nat) (word : BitVec 64) (s : State) : Host.Outcome State Fault Refusal :=
  settled (s.command m { fm := true, need := 1 } [bad (scrubBad word) 0]
    (fun s =>
      let again := bfld s.pool.scrubWord 53 53 == 0 && bfld word 53 53 == 1
      let s := s.updPool (fun p => { p with
        scrubWord := word
        units := if again then p.units.map (fun u => (u.1, u.2.restartPass)) else p.units })
      s.respond m okResp))

/-! Timers. -/

/-- KETTLE_TIMEOUT (R268). -/
def execKettleTimeout (sector : Nat) (s : State) : Host.Outcome State Fault Refusal :=
  settled (s.kettleForce (sector / 64 * 64))
/-- CAP_INIT_CHUNK_DONE (R263, R357): after readiness; a unit that is frozen or absent is not initialised. -/
def execCapInitChunkDone (chunk : Nat) (s : State) : Host.Outcome State Fault Refusal :=
  settled (match s.unitOf (chunk * 65536) with
    | none => s
    | some u =>
      if u < 768 || s.boot.stage != 8 || (s.denied u (chunk * 65536)).isSome then s
      else (s.updPool (fun p => { p with capInit := addSorted p.capInit chunk })).fireFlip u (chunk * 65536) none)

/-! The flip mask (R277, R278). -/

/-- TEST_FLIP_ARM (R277). -/
def execTestFlipArm (m u mask : Nat) (s : State) : Host.Outcome State Fault Refusal :=
  settled (s.command m { fm := true, need := 1 }
    [s.unitGone u, bad (mask % 2 ^ 576 == 0) 8, chk s.pool.flip.isSome .busy]
    (fun s => (s.updPool (fun p => { p with flip := some (u, BitVec.ofNat 576 mask) })).respond m okResp))
/-- TEST_FLIP_DISARM (R277). -/
def execTestFlipDisarm (m : Nat) (s : State) : Host.Outcome State Fault Refusal :=
  settled (s.command m { fm := true } []
    (fun s =>
      if s.pool.flip.isSome then (s.updPool (fun p => { p with flip := none })).respond m okResp
      else s.respond m { status := .okEmpty }))

/-! The error log (R276, R400). -/

/-- LOG_READ (R276): records oldest first from place `first` on, and the overwrite count. -/
def execLogRead (m hub first count : Nat) (s : State) : Host.Outcome State Fault Refusal :=
  settled (s.command m { fm := true, query := true } [chk (s.hubs ≤ hub) .absentUnit, bad (count = 0 || 63 < count) 8]
    (fun s =>
      let all := (s.pool.log.or hub []).reverse
      let l := (all.drop first).take count
      let next := first + l.length
      let body := l.map (fun r => (64, r.toNat)) ++ [(4, sat 32 (s.pool.logLost.or hub 0))]
      let more := decide (next < all.length)
      s.respond m { status := .ok, body := if more then body ++ [(4, next)] else body, more }))

/-! Retiring a page (R273). -/

/-- Whether the region of a chunk's extent migrates, from or to it. -/
def State.chunkMigrates (s : State) (c : Nat) : Bool :=
  match s.chunks.at? c with
  | some (.extent id) => s.regions.any (fun r => r.2.mig.any (fun g => r.2.extent == id || g.ext == id))
  | _ => false
/-- Pages retired on a hub. -/
def State.retiredOn (s : State) (hub : Nat) : Nat :=
  (s.pool.retired.filter (fun r => match r with
    | .page c => (ppaWindow (c * 65536)).any (fun u => unitHub u == hub)
    | .bank _ _ _ _ => false)).length
/-- The range of chunks that holds a chunk: its slice or its DIMM slot. -/
def State.nearChunks (s : State) (u c : Nat) : List (Nat × Nat) := (s.unitChunks u).filter (fun r => r.1 ≤ c && c < r.2)
/-- Whether a chunk holds something that a page move must copy. -/
def State.chunkHeld (s : State) (c : Nat) : Bool :=
  match s.chunks.at? c with
  | none | some (.zeroing _) | some .withdrawn => false
  | some _ => true
/-- MEM_RETIRE_PAGE (R273, Table 11-5): an allocated page is moved first and RETIRE_COPY_DONE completes the command. -/
def execMemRetirePage (m ppa : Nat) (s : State) : Host.Outcome State Fault Refusal :=
  let u := (s.unitOf ppa).getD 0
  let c := ppa / 65536
  let spot := (s.nearChunks u c).findSome? (fun r => firstFree (fun x => !s.chunkFree x || x == c) r.1 r.2 (s.draw.1))
  settled (s.command m { fm := true, need := 1 }
    [bad ((s.unitOf ppa).isNone || ppa % 65536 != 0) 0, s.unitGone u,
     chk (s.inCaddy ppa || s.inDir ppa || s.isSpare u) .notPermitted,
     chk ((s.unit u).frozen.isSome || s.chunkMigrates c || s.pool.moves.any (fun x => x.1 == c)) .busy,
     chk (s.pool.retired.contains (.page c)) .okEmpty,
     chk (16384 ≤ s.retiredOn (unitHub u) || (s.chunkHeld c && spot.isNone)) .noResource]
    (fun s =>
      match s.chunkHeld c, spot, s.chunks.at? c with
      | true, some n, some use_ =>
        let s := { s.draw.2 with chunks := s.chunks.put n use_ }
        s.updPool (fun p => { p with moves := p.moves ++ [(c, n, m)] })
      | _, _, _ => (s.updPool (fun p => { p with retired := p.retired ++ [.page c] })).respond m okResp))
/-- A frame number in another chunk, if it lay in the old one. -/
def moveFrame (old new f : Nat) : Nat := if f / 16 = old then new * 16 + f % 16 else f
/-- A table pointer to a frame of the old chunk points to the same frame of the new one. -/
def movePtr (old new : Nat) (e : BitVec 64) : BitVec 64 :=
  if entType e = 1 && ptrFrame e / 16 = old then ptrEntry (moveFrame old new (ptrFrame e)) else e
/-- What lay in chunk `old` lies in chunk `new`: chunk lists, page tables and their pointers, collectives' areas (R239, R273). -/
def State.rechunk (s : State) (old new : Nat) : State :=
  let sub := fun (l : List Nat) => l.map (fun c => if c = old then new else c)
  { s with
    extents := s.extents.map (fun e => (e.1, { e.2 with chunks := sub e.2.chunks }))
    tables := (s.tables.map (fun (t : Nat × PageTable) => (moveFrame old new t.1, ({ t.2 with
        ents := t.2.ents.map (fun (x : Nat × BitVec 64) => (x.1, movePtr old new x.2)) } : PageTable)))).foldl
      (fun (r : Tab PageTable) t => r.put t.1 t.2) []
    ctxs := s.ctxs.map (fun c => (c.1, { c.2 with root := moveFrame old new c.2.root }))
    colls := s.colls.map (fun c => { c with area := sub c.area })
    chunks := s.chunks.del old }
/-- Copies a page sector by sector, until a read freezes its unit. -/
def State.copyPage (s : State) (old new : Nat) : State :=
  (List.range 1024).foldl (fun s k =>
    let sec := old * 65536 + 64 * k
    if (s.unitOf sec).any (fun u => (s.unit u).frozen.isSome) then s
    else s.copySector sec (new * 65536 + 64 * k) { cls := 0, tag := 0x10000 }) s
/-- Whether a transaction or a request that waits for one works on a chunk. -/
def State.chunkOpen (s : State) (c : Nat) : Bool :=
  s.coh.txns.any (fun t => t.gran / 512 == c) || s.coh.waiting.any (fun r => r.ppa / 65536 == c)
/-- RETIRE_COPY_DONE (R273): copies are recalled and open requests end first; a page freed meanwhile is retired without a copy. -/
def execRetireCopyDone (ppa : Nat) (s : State) : Host.Outcome State Fault Refusal :=
  let c := ppa / 65536
  settled (match s.pool.moves.find? (fun x => x.1 == c) with
    | none => s
    | some (_, n, m) =>
      let fin := fun (s : State) => s.updPool (fun p => { p with moves := p.moves.filter (fun x => x.1 != c) })
      let retire := fun (s : State) => s.updPool (fun p => { p with retired := p.retired ++ [.page c] })
      if !s.chunkHeld c then ((retire (fin s)).zeroLater [n] 0).respond m okResp
      else
        let (ok, s) := s.recallAll (s.chunkCopies c) true
        if !ok || s.chunkOpen c then s
        else
          let s := s.copyPage c n
          if (s.unitOf ppa).any (fun u => (s.unit u).frozen.isSome) then
            ((fin s).zeroLater [n] 0).respond m { status := .pcFrozen }
          else
            (retire (fin ((s.rechunk c n).zeroChunk c))).respond m okResp)

/-! Fencing or sparing a bank (R274). -/

/-- Whether a unit has a bank. -/
def State.bankThere (s : State) (u sid bg bank : Nat) : Bool :=
  if u < 768 then sid < 4 && bg < 4 && bank < 4
  else s.boot.dimms.any (fun d => d.dc == u - 0x8000 && d.gib != 0 && sid < d.ranks && bg < d.bg && bank < d.ba)
/-- The PPA of the first byte of a bank. -/
def State.bankBase (s : State) (u sid bg bank : Nat) : Nat :=
  if u < 768 then sliceBase u + sid * 16384 + bank * 4096 + bg * 1024
  else
    match s.boot.dimms.find? (fun d => d.dc == u - 0x8000 && d.gib != 0 && sid < d.ranks) with
    | some d => slotBase (u - 0x8000) d.slot + ((bank * 2 ^ Nat.log2 d.bg + bg) * d.ranks + sid) * 4096
    | none => 0
/-- The regions with an allocated chunk that holds a byte of a fenced bank of a unit. -/
def State.fencedRegions (s : State) (u : Nat) : List Nat :=
  (s.regions.filter (fun r => ((s.extents.at? r.2.extent).map (·.chunks)).any (fun cs =>
    cs.any (fun c => s.unitOf (c * 65536) == some u && s.chunkFenced u c)))).map (·.1)
/-- MEM_RETIRE_BANK (R274): mode 0 SPARE, 1 FENCE; a spare copy completes at BANK_SPARE_DONE. -/
def execMemRetireBank (m u sid bg bank mode : Nat) (s : State) : Host.Outcome State Fault Refusal :=
  settled (s.command m { fm := true, need := 1 }
    [chk (!s.unitPresent u || (mode == 0 && !s.variant.spares)) .absentUnit, bad (!s.bankThere u sid bg bank) 2,
     bad (1 < mode || (mode == 0 && 768 ≤ u)) 5, chk (s.unit u).frozen.isSome .busy,
     chk (mode == 0 && (s.freeSpares u).isEmpty) .noResource]
    (fun s =>
      if mode = 0 then
        let (k, s) := s.choose (s.freeSpares u) 0
        s.updUnit u (fun x => { x with bankMove := some (k, m) })
      else
        let b : Retired := .bank u sid bg bank
        let s := if s.pool.retired.contains b then s else
          (s.updPool (fun p => { p with retired := p.retired ++ [b] })).log 6 u (s.bankBase u sid bg bank) 1 3 [] none
        ((s.dropAbsent u).degrade (s.fencedRegions u)).respond m okResp))
/-- BANK_SPARE_DONE (R274): queued writes are made first; an uncorrectable sector freezes the unit, and the spare stays free. -/
def execBankSpareDone (u : Nat) (s : State) : Host.Outcome State Fault Refusal :=
  settled (match (s.unit u).bankMove with
    | none => s
    | some (k, m) =>
      match (s.drainUnit u).copySlice u false with
      | (some (sec, synd), s) => s.freeze u 1 sec synd (some (s.entry sec { cls := 0, tag := 0x10000 })) none
      | (none, s) => ((s.fireFlip (u / 64 * 64 + k) (sliceBase u) none).pointAt u k).respond m okResp)

/-! The list of what is retired (R275). -/

/-- An entry of `MEM_RETIRE_QUERY` in 8 bytes (log 16): a page's PPA; or bit 63, and a bank's unit [31:16], stack id or rank
[15:8], bank group [7:4] and bank [3:0]. -/
def Retired.word : Retired → Nat
  | .page c => c * 65536
  | .bank u sid bg bk => 2 ^ 63 + at_ u 16 16 + at_ sid 8 8 + at_ bg 4 4 + at_ bk 4 0
/-- MEM_RETIRE_QUERY (R275). -/
def execMemRetireQuery (m first : Nat) (s : State) : Host.Outcome State Fault Refusal :=
  settled (s.command m { fm := true, query := true } []
    (fun s =>
      let l := (s.pool.retired.drop first).take 256
      let next := first + l.length
      let more := decide (next < s.pool.retired.length)
      let body := recs 8 (l.map Retired.word)
      s.respond m { status := .ok, body := if more then body ++ [(4, next)] else body, more }))
/-- MEM_RETIRE_CLEAR (R275): the entry goes at the next cold reset. -/
def execMemRetireClear (m idx : Nat) (s : State) : Host.Outcome State Fault Refusal :=
  settled (s.command m { fm := true } []
    (fun s =>
      match s.pool.retired[idx]? with
      | none => s.respond m { status := .okEmpty }
      | some r =>
        (s.updPool (fun p => { p with unretire := if p.unretire.contains r then p.unretire else p.unretire ++ [r] })).respond m okResp))
/-- RETIRE_FLASH_COPY (R255, R275). -/
def execRetireFlashCopy (s : State) : Host.Outcome State Fault Refusal := settled { s with flash := s.flashUnits }

end Sys2Proof.Machine
end

