-- ==== Sys2Proof/Machine/Mirror.lean ====
section
/-! DEFINITION. The mirror pair: pairing, beats, fencing and takeover, forwards, resynchronisation (R334 to R350). -/

namespace Sys2Proof.Machine

/-- The code of a role (Table 14-2). -/
def Role.code : Role → Nat
  | .unpaired => 0 | .active => 1 | .solo => 2 | .standby => 3 | .standbySync => 4 | .fenced => 5
/-- Changes the mirror function. -/
def State.updMirror (s : State) (f : Mirror → Mirror) : State := { s with mirror := f s.mirror }
/-- Whether the part has no mirror function. -/
def State.noMirror (s : State) : Bool := !s.variant.mirror || s.mirror.absent
/-- A mirror event (Table 18-8). -/
def State.mirrorEv (s : State) (typ status body : Nat) : State := s.postFm { typ, obj := s.mirror.setId, status, body }
/-- `MIRROR_FENCED`: the claim and the requests completed with `ST_STALE_CLAIM`. -/
def State.fencedEv (s : State) (n : Nat) : State :=
  s.mirrorEv 0x22 Status.staleClaim.code (at_ s.mirror.claim 32 0 + at_ (sat 32 n) 32 32)
/-- Whether a region is mirrored. -/
def State.mirrored (s : State) (rid : Nat) : Bool := (s.region? rid).any (·.mirror)
/-- Whether a context tag or number's context is mirrored. -/
def State.mirrorCtx (s : State) (c : Nat) : Bool := (s.ctx? c).any (·.mirror)

/-! Mailbox commands (Table 16-13). -/

/-- Whether a port cannot be a pair port towards a node (R334). -/
def State.pairBad (s : State) (node p : Nat) : Bool :=
  let q := s.port p
  !q.isUp || !bit q.feat 2 || (q.partner.map (·.node)) != some node
/-- MIRROR_PAIR_SET (R334, R349): role 0 ACTIVE, 1 STANDBY. -/
def execMirrorPairSet (m : Nat) (r : MirrorReq) (s : State) : Host.Outcome State Fault Refusal :=
  let ps := bitsOf r.ports 96
  settled (s.command m { fm := true, need := 2 }
    [chk (s.noMirror || ps.any (fun p => !s.portPresent p)) .absentUnit,
     bad (ps.isEmpty || 4 < ps.length || 2 ^ 96 ≤ r.ports || ps.any (s.pairBad r.partner)) 8, bad (1 < r.role) 24,
     bad (r.rate == 0 || 360 < r.rate) 32, bad (s.mirror.role != .unpaired) 0]
    (fun s =>
      let role := if r.role = 0 then Role.active else Role.standby
      let new : Mirror := { s.mirror with
        role
        setId := r.set
        partner := r.partner
        ports := ps
        claim := r.claim
        highest := r.claim
        rate := r.rate }
      ({ s with mirror := new } : State).respond m okResp))
/-- What awaits `MIR_ACK` completes without it: nothing is forwarded any more, or the copy will carry it (R335, R349). -/
def State.dropForwards (s : State) : State :=
  s.mirror.forwards.foldl (fun s f =>
    let s := (s.updCoh (fun c => { c with joins := c.joins.mod f.join (fun j => { j with fwd := j.fwd - 1 }) })).closeJoin f.join
    let s := (s.pubs.filter (fun b => b.swapped && b.target == f.pub)).foldl (fun s b => s.endPub b .ok) s
    match f.desc with
    | some (q, i) => s.finishIf q i
    | none => s) (s.updMirror (fun x => { x with forwards := [] }))
/-- MIRROR_UNPAIR (R335). -/
def execMirrorUnpair (m : Nat) (s : State) : Host.Outcome State Fault Refusal :=
  settled (s.command m { fm := true } [chk s.noMirror .absentUnit, chk (s.ctxs.any (fun c => c.2.mirror)) .busy]
    (fun s =>
      let st := if s.mirror.role == .unpaired then Status.okEmpty else .ok
      ((s.dropForwards).updMirror (fun x => ({ absent := x.absent } : Mirror))).respond m { status := st }))
/-- MIRROR_QUERY (Table 16-13). -/
def execMirrorQuery (m : Nat) (s : State) : Host.Outcome State Fault Refusal :=
  settled (s.command m { fm := true, query := true } [chk s.noMirror .absentUnit]
    (fun s =>
      let x := s.mirror
      s.respond m (okBody [(2, x.setId), (1, x.role.code), (4, x.claim), (4, x.highest), (1, b2n x.hbxOk), (1, b2n x.ppOk)])))

/-! Changes of role (R346). -/

/-- A descriptor of a mirrored context ends with `ST_STALE_CLAIM`. -/
def State.staleDesc (s : State) (d : Desc) : State :=
  match d.phase with
  | .finished => s
  | .started => s.endDesc d.q d.i .staleClaim true
  | .stalled =>
    let s := s.updFaults (fun f => { f with
      entries := f.entries.map (fun e => { e with waiters := e.waiters.filter (fun w => w != (d.q, d.i)) })
      waiting := f.waiting.filter (fun e => !e.waiters.contains (d.q, d.i)) })
    s.admitted d.q d.i .finished .staleClaim
  | .held => s.admitted d.q d.i .finished .staleClaim
  | .ready => s.endDesc d.q d.i .staleClaim false
/-- Whether a request at the home draws its own response, and has no join that answers for it. -/
def HomeReq.answers (r : HomeReq) : Bool :=
  match r.op with
  | .rdShared | .rdOwn | .upgrade => true
  | _ => false
/-- The requests on mirrored regions that the home has open end with `ST_STALE_CLAIM`. -/
def State.staleHome (s : State) : State :=
  let cl := some s.mirror.highest
  let mine := s.coh.txns.filter (fun t => s.mirrored t.req.region && t.req.answers)
  let s := mine.foldl (fun s t => s.refuse t.req.port t.req.part t.req.hdr .staleClaim cl) s
  let ids := mine.map (·.id)
  let s := ids.foldl (fun s i => s.modTxn i (fun t => { t with req := { t.req with op := .recall } })) s
  let wait := (s.coh.waiting ++ s.coh.held).filter (fun r => s.mirrored r.region)
  let s := s.updCoh (fun c => { c with
    waiting := c.waiting.filter (fun r => !wait.contains r)
    held := c.held.filter (fun r => !wait.contains r) })
  let s := wait.foldl (fun s r =>
    if r.answers then s.refuse r.port r.part r.hdr .staleClaim cl
    else if r.join = 0 then s
    else s.pieceDone r.join .staleClaim id) s
  (s.coh.joins.filter (fun j => s.mirrored j.2.region)).foldl (fun s j =>
    (s.updCoh (fun c => { c with joins := c.joins.mod j.1 (fun x => { x with status := .staleClaim, fwd := 0 }) })).closeJoin j.1) s
/-- What waits on the partner, and every open mirrored request, ends with `ST_STALE_CLAIM`; how many, and the state (R346). -/
def State.stopServing (s : State) : Nat × State :=
  let ds := s.descs.filter (fun d => d.phase != Phase.finished && s.mirrorCtx (tagNum d.tag))
  let ps := s.pubs.filter (fun b => s.mirrored b.target || s.mirrored b.staging)
  let js := (s.coh.joins.filter (fun j => s.mirrored j.2.region)).length
    + (s.coh.txns.filter (fun t => s.mirrored t.req.region && t.req.answers)).length
    + (s.coh.waiting.filter (fun r => s.mirrored r.region && r.answers)).length
  let s := s.updMirror (fun x => { x with forwards := [], syncing := false })
  let s := ds.foldl (fun s d => s.staleDesc d) s
  let s := ps.foldl (fun s b => s.endPub b .staleClaim) s
  (ds.length + ps.length + js, s.staleHome)
/-- Mirrored contents are discarded: no directory entry of a mirrored region stays (R346). -/
def State.discardMirrored (s : State) : State :=
  (s.coh.dir.filter (fun e => s.mirrored e.region)).foldl (fun s e => s.freeDir e.gran) s
/-- The controller turns to `STANDBY_SYNC` and asks for resynchronisation, which its beats do by their role. -/
def State.toSync (s : State) : State :=
  let (_, s) := s.stopServing
  (s.discardMirrored).updMirror (fun x => { x with role := .standbySync, copied := 0, syncing := false })
/-- The serving controller begins to resynchronise its partner: what awaits `MIR_ACK` lies above the cursor (R349). -/
def State.startSync (s : State) : State :=
  if s.mirror.syncing then s
  else
    (s.updMirror (fun x => { x with syncing := true, curRegion := 0, curOff := 0, copied := 0 })).dropForwards
/-- The mirrored contexts are served alone. -/
def State.toSolo (s : State) (claim : Nat) : State :=
  s.updMirror (fun x => { x with role := .solo, claim, highest := max x.highest claim, syncing := false })
/-- MIRROR_BREAK (R346, R347); a claim that would pass 0xFFFF_FFFF is refused (R344, log 19). -/
def execMirrorBreak (m : Nat) (s : State) : Host.Outcome State Fault Refusal :=
  let c := s.mirror.highest + 2
  settled (s.command m { fm := true } [chk s.noMirror .absentUnit, bad (s.mirror.role != .fenced || 2 ^ 32 ≤ c) 0]
    (fun s => (s.toSolo c).respond m (okBody [(4, c)])))
/-- PAIR_FENCE (R346): an ACTIVE controller has had both paths silent for 16 beats. -/
def execPairFence (s : State) : Host.Outcome State Fault Refusal :=
  settled (
    if s.mirror.role != .active then s
    else
      let (n, s) := s.stopServing
      let s := s.updMirror (fun x => { x with role := .fenced, ppOk := false, hbxOk := false, stale := x.stale + n })
      s.fencedEv n)
/-- PAIR_TAKEOVER (R344, R346): both paths have been silent for 20 beats. -/
def execPairTakeover (s : State) : Host.Outcome State Fault Refusal :=
  let s := if s.mirror.role == .standby || s.mirror.role == .standbySync then
      s.updMirror (fun x => { x with ppOk := false, hbxOk := false }) else s
  settled (
    if s.mirror.role == .standbySync then s.fencedEv 0
    else if s.mirror.role != .standby then s
    else
      let old := s.mirror.claim
      let new := s.mirror.highest + 1
      if 2 ^ 32 ≤ new then s.fencedEv 0
      else
        let s := s.toSolo new
        let s := s.updCoh (fun c => { c with agents := c.agents.map (fun a => (a.1, { a.2 with lease := .reclaimed })) })
        let s := s.mirrorEv 0x21 0 (at_ old 32 0 + at_ new 32 32)
        let rs := (s.regions.filter (fun r => r.2.mirror)).map (·.1)
        s.outside s.mirror.setId 7 rs)
/-- PATH_SILENT (R346): path 0 the pair ports, 1 HBX, silent for 20 beats; the alarm once in an episode. -/
def execPathSilent (path : Nat) (s : State) : Host.Outcome State Fault Refusal :=
  let pp := path == 0
  settled (
    if s.mirror.role == .unpaired || 1 < path then s
    else
      let other := if pp then s.mirror.hbxOk else s.mirror.ppOk
      let alarmed := if pp then s.mirror.ppAlarm else s.mirror.hbxAlarm
      let s := s.updMirror (fun x => if pp then { x with ppOk := false } else { x with hbxOk := false })
      if (s.mirror.role == .active || s.mirror.role == .standby) && other && !alarmed then
        (s.updMirror (fun x => if pp then { x with ppAlarm := true } else { x with hbxAlarm := true })).mirrorEv 0x20 0 path
      else s)

/-! Beats (R345, R346). -/

/-- The beat that this controller sends (Table 14-2). -/
def State.beatWord (s : State) : BitVec 256 :=
  let x := s.mirror
  BitVec.ofNat 256 (at_ s.now 64 192 + at_ x.claim 32 160 + at_ x.setId 16 144 + at_ s.node 16 128 + at_ x.seq 32 96
    + at_ x.role.code 4 92 + at_ (b2n x.hbxOk) 1 91 + at_ (b2n x.ppOk) 1 90
    + at_ (if x.role == .standbySync then x.copied else 0) 64 0)
/-- Whether heartbeats are sent: paired, and neither in reset nor stopped (R424). -/
def State.beats (s : State) : Bool := s.mirror.role != .unpaired && !s.boot.held && !s.boot.stopped && !s.power.trip
/-- MIR_BEAT_TICK (R345). -/
def execMirBeatTick (s : State) : Host.Outcome State Fault Refusal :=
  settled (
    if !s.beats then s
    else
      let w := s.beatWord
      let data := leBytes 32 w.toNat
      let h : Hdr := { incClaim := s.mirror.claim, dstNode := s.mirror.partner, srcNode := s.node, opcode := 0x74,
                       msgLen := 32, ordered := s.ordClass 0, last := true }
      let s := s.pairPorts.foldl (fun s p => s.egress p 65 { hdr := { h.sized 32 with vc := 7 }, data }) s
      let s := s.updMirror (fun x => { x with seq := (x.seq + 1) % 2 ^ 32 })
      { s with pins := { s.pins with hbx := w } })
/-- The `SERIAL` of the partner, from a pair port's capability block, the last one where the port is not up. -/
def State.partnerSerial (s : State) : Nat :=
  ((s.mirror.ports.findSome? (fun p => (s.port p).partner.or (s.port p).lastUp)).map (·.serial)).getD 0
/-- Whether a beat is valid: of this set, from the partner, with an assigned role. -/
def State.beatOk (s : State) (w : BitVec 256) : Bool :=
  s.beats && bfld w 159 144 == s.mirror.setId && bfld w 143 128 == s.mirror.partner && bfld w 95 92 ≤ 5
/-- The first beat after a reset decides the role (R342, R346): `prev` the role before the reset. -/
def State.firstBeat (s : State) (prev : Role) (claim role : Nat) : State :=
  let own := s.mirror.claim
  let s := s.updMirror (fun x => { x with returning := none, claim := max own claim })
  if role = 1 || role = 2 then s
  else if claim < own || (claim = own && (prev == .active || prev == .solo)) then s.toSolo s.mirror.claim
  else s
/-- What a valid beat with a claim and a role does (Table 14-3). -/
def State.beatRole (s : State) (claim role : Nat) : State :=
  let x := s.mirror
  match x.returning with
  | some prev => s.firstBeat prev claim role
  | none =>
    match x.role with
    | .active | .solo =>
      if x.claim < claim || (x.claim = claim && (role = 1 || role = 2) && s.partnerSerial < s.fuses.serial.toNat) then s.toSync
      else if role = 4 then s.startSync
      else s
    | .fenced =>
      if x.claim < claim then s.toSync
      else if x.claim = claim && role = 3 then (s.toSolo x.claim).startSync
      else s
    | .standby => if role = 2 then s.updMirror (fun x => { x with role := .standbySync, copied := 0 }) else s
    | .standbySync | .unpaired => s
/-- A valid beat on a path (0 a pair port, 1 HBX). -/
def State.beat (s : State) (path : Nat) (w : BitVec 256) : State :=
  let claim := bfld w 191 160
  let role := bfld w 95 92
  let s := s.beatRole claim role
  s.updMirror (fun x =>
    let x := { x with partnerRole := role, partnerClaim := claim, highest := max x.highest claim }
    if path = 0 then { x with ppOk := true, ppAlarm := false } else { x with hbxOk := true, hbxAlarm := false })
/-- MIR_BEAT (R345, R346): taken from the receive buffer if it waits there; only a pair port with MIRROR in use delivers beats
(R173). -/
def execMirBeat (p : Nat) (payload : BitVec 256) (s : State) : Host.Outcome State Fault Refusal :=
  let take := fun (s : State) => if s.pairPorts.contains p && s.beatOk payload then s.beat 0 payload else s
  settled (match (s.port p).link.inbox.find? (fun q => q.hdr.opcode == 0x74 && leNat q.data == payload.toNat) with
    | some q => s.arrive p q.hdr (fun s => take (s.consume p q.hdr))
    | none => take s)
/-- HBX_BEAT (R345): a beat whose CRC32C does not match is no valid beat. -/
def execHbxBeat (payload : BitVec 256) (crc : Nat) (s : State) : Host.Outcome State Fault Refusal :=
  settled (if crc == crc32c (leBytes 32 payload.toNat) && s.beatOk payload then s.beat 1 payload else s)

/-! Forwards and resynchronisation (R340, R341, R349). -/

/-- Takes a pair message that has arrived: one from the partner on a pair port with MIRROR in use is let in (R173, R217, R340). -/
def State.pairTake (s : State) (p : Nat) (h : Hdr) (k : State → State) : State :=
  s.arrive p h (fun s =>
    let s := s.consume p h
    if s.pairPorts.contains p && h.srcNode == s.mirror.partner && s.mirror.role != .unpaired then k s else s)
/-- Sends `MIR_ACK` of a forward. -/
def State.mirAck (s : State) (p : Nat) (h : Hdr) (st : Status) : State :=
  let r : Hdr := { addr := h.addr, incClaim := s.mirror.claim, dstNode := s.mirror.partner, srcNode := s.node, tag := h.tag,
                   opcode := 0x77, vc := 5, ordered := s.ordClass 0, last := true }
  s.egress p 65 { hdr := r, msg := .mirAck h.tag st.code }
/-- Writes pair data to a mirrored region from offset `off` on; a packet with `POISON` poisons every sector it touches (R265). -/
def State.pairWrite (s : State) (rid off : Nat) (data : List Byte) (poison : Bool) (cls : Nat) : Status × State :=
  match s.region? rid with
  | none => (.badArg, s)
  | some r =>
    if !r.mirror || r.size * 65536 < off + data.length then (.badArg, s)
    else
      (s.granPieces rid r.extent off data.length).foldl (fun (x : Status × State) g =>
        let bs := ((data.drop (g.1 - off)).take g.2.2).map (fun b => (b, poison))
        let (st, s) := x.2.writeBytes g.2.1 bs { cls, part := r.part, tag := 0x10000 }
        (worse x.1 st, s)) (.ok, s)
/-- MIR_FWD (R340, R341): a standby applies the change and acknowledges it; one with a claim below the highest seen is discarded. -/
def execMirFwd (p : Nat) (h : Hdr) (publish : Nat) (data : List Byte) (s : State) : Host.Outcome State Fault Refusal :=
  settled (s.pairTake p h (fun s =>
    if !s.standby || h.incClaim < s.mirror.highest then s
    else
      let s := s.updMirror (fun x => { x with highest := max x.highest h.incClaim })
      if publish = 1 then
        let w := fun (i : Nat) => leNat ((data.drop (8 * i)).take 8)
        let b : Pub := { target := w 0 / 2 ^ 44, staging := w 1 / 2 ^ 44, v := BitVec.ofNat 64 (w 2), w := BitVec.ofNat 64 (w 3),
                         asker := .mailbox 0 }
        match s.region? b.target, s.region? b.staging with
        | some t, some g => if t.mirror && g.mirror then (s.pubSwap b t g).mirAck p h .ok else s.mirAck p h .badArg
        | _, _ => s.mirAck p h .badArg
      else
        let (st, s) := s.pairWrite (h.addr / 2 ^ 44) (h.addr % 2 ^ 44) data h.poison 2
        s.mirAck p h st))
/-- MIR_ACK (R340, R341): the original request completes, with the partner's status where that is not `ST_OK`. -/
def execMirAck (p : Nat) (h : Hdr) (status : Nat) (s : State) : Host.Outcome State Fault Refusal :=
  let st := Status.ofCode status
  settled (s.pairTake p h (fun s =>
      match s.mirror.forwards.find? (fun f => f.tag == h.tag) with
      | none => s
      | some f =>
        let s := s.updMirror (fun x => { x with forwards := x.forwards.erase f })
        let s := if f.join = 0 then s else
          (s.updCoh (fun c => { c with joins := c.joins.mod f.join (fun j =>
            { j with fwd := j.fwd - 1, status := if st == .ok then j.status else worse j.status st }) })).closeJoin f.join
        let s := if f.pub = 0 then s else
          (s.pubs.filter (fun b => b.swapped && b.target == f.pub)).foldl (fun s b => s.endPub b st) s
        match f.desc with
        | some (q, i) => (s.modDesc q i (fun d => { d with status := worse d.status st })).finishIf q i
        | none => s))
/-- MIR_SYNC (R349). -/
def execMirSync (p : Nat) (h : Hdr) (data : List Byte) (s : State) : Host.Outcome State Fault Refusal :=
  settled (s.pairTake p h (fun s =>
    if s.mirror.role != .standbySync || h.incClaim < s.mirror.highest then s
    else
      let (_, s) := s.pairWrite (h.addr / 2 ^ 44) (h.addr % 2 ^ 44) data h.poison 0
      s.updMirror (fun x => { x with copied := x.copied + data.length })))
/-- The next chunk to copy: region and offset; none when every mirrored region lies below the cursor. -/
def State.syncNext (s : State) : Option (Nat × Nat) :=
  let x := s.mirror
  match s.region? x.curRegion with
  | some r =>
    if r.mirror && x.curOff < r.size * 65536 then some (x.curRegion, x.curOff)
    else ((s.regions.find? (fun r => r.2.mirror && decide (x.curRegion < r.1))).map (fun r => (r.1, 0)))
  | none => (s.regions.find? (fun r => r.2.mirror && decide (x.curRegion < r.1))).map (fun r => (r.1, 0))
/-- RESYNC_CURSOR_ADVANCE (R349): the copies of the chunk are recalled first, as R55 has it. -/
def execResyncCursorAdvance (s : State) : Host.Outcome State Fault Refusal :=
  settled (
    if !s.mirror.syncing || s.pairPorts.isEmpty then s
    else
      match s.syncNext with
      | none => s
      | some (rid, off) =>
        let s := s.updMirror (fun x => { x with curRegion := rid, curOff := off })
        match s.region? rid with
        | none => s
        | some r =>
          let (ok, s) := s.recallAll (s.granulesOf rid r.extent off 65536) false
          if !ok then s
          else
            let (bs, s) := (s.granPieces rid r.extent off 65536).foldl (fun (x : List (Byte × Bool) × State) g =>
              let (b, _, s) := x.2.readBytes g.2.1 g.2.2 { cls := 0, tag := 0x10000 }
              (x.1 ++ b, s)) ([], s)
            let s := (cutRun off bs).foldl (fun s c =>
              s.pairSend (rid * 2 ^ 44 + off + c.1) 0x78 0 .plain c.2.1 c.2.2) s
            s.updMirror (fun x => { x with curOff := off + 65536, copied := x.copied + 65536 }))
/-- RESYNC_DONE (R346, R349): on the serving side ACTIVE with `MIRROR_RESYNC_DONE`, on the other STANDBY. -/
def execResyncDone (s : State) : Host.Outcome State Fault Refusal :=
  settled (
    if s.mirror.syncing && s.syncNext.isNone then
      let n := s.mirror.copied
      (s.updMirror (fun x => { x with role := .active, syncing := false, partnerRole := 3 })).mirrorEv 0x23 0 (at_ n 64 0)
    else if s.mirror.role == .standbySync && s.mirror.returning.isNone && (s.mirror.partnerRole = 1 || s.mirror.partnerRole = 2) then
      s.updMirror (fun x => { x with role := .standby })
    else s)
/-- CLAIM_FLASH_COPY (R342). -/
def execClaimFlashCopy (s : State) : Host.Outcome State Fault Refusal :=
  settled ({ s with flash := { s.flash with claim := s.mirror.claim } })

end Sys2Proof.Machine
end

