-- ==== Sys2Proof/Machine/Package.lean ====
section
/-! DEFINITION. The package: what each ball carries, which balls a variant connects, and the boundary register (R401 to R410, R427, Tables
19-1 to 19-4). A ball is named by its row, 1 to 108, and its column, 1 to 92. -/

namespace Sys2Proof.Machine

/-- The supply rails (Table 19-6). -/
inductive Rail where
  | vddHub (h : Nat)
  | vddIod | avddSd | avddhSd | vddcStk | vddqStk | vppStk | vddDdr | vddAon | vddio33
  deriving DecidableEq, Repr
/-- The signals of one DDR5 subchannel, and the common ones of a channel (R405). -/
inductive DdrPin where
  | dq (n : Nat)
  | dqsT (n : Nat)
  | dqsC (n : Nat)
  | ca (n : Nat)
  | par
  | cs (n : Nat)
  | ckT | ckC
  | alert | reset | sbScl | sbSda
  deriving DecidableEq, Repr
/-- The signals of the miscellaneous regions (Table 19-4); `neg` is the N ball of a pair. -/
inductive MiscPin where
  | pcieTx (n : Nat) (neg : Bool)
  | pcieRx (n : Nat) (neg : Bool)
  | refclkPcie (neg : Bool)
  | perst
  | refclkFab (i : Nat) (neg : Bool)
  | spiClk | spiCs | spiDqs
  | spiIo (n : Nat)
  | i3cScl | i3cSda
  | tck | tms | tdi | tdo | trst
  | sysRst | alert | therm | throttle | clkAon
  | strap (n : Nat)
  | avsClk (h : Nat)
  | avsMdata (h : Nat)
  | avsSdata (h : Nat)
  | vsense (h : Nat) (neg : Bool)
  | hbx (rx neg : Bool)
  | gpio (n : Nat)
  deriving DecidableEq, Repr
/-- What a ball carries. -/
inductive Ball where
  | empty
  | gnd
  | supply (r : Rail)
  | port (p lane : Nat) (rx neg : Bool)
  | ddr (ch : Nat) (subB : Bool) (pin : DdrPin)
  | misc (m : MiscPin)
  deriving DecidableEq, Repr

/-- The centre of a ball in tenths of a millimetre along the 96 mm and the 112 mm edge (R401). -/
def ballCentre (row col : Nat) : Nat × Nat := (15 + 10 * col, 15 + 10 * row)
/-- A rail's limits (Table 19-6): nominal mV, tolerance in tenths of a percent, absolute maximum mV, maximum mA (for each die, stack or hub
where the table says so), and group. The hub rails' tolerance is about the requested value. -/
structure RailLimits where
  nominal : Nat
  tol : Nat
  absMax : Nat
  maxMa : Nat
  group : Nat
  deriving DecidableEq, Repr
/-- Table 19-6. -/
def Rail.limits : Rail → RailLimits
  | .vddHub _ => { nominal := 750, tol := 20, absMax := 950, maxMa := 300000, group := 4 }
  | .vddIod => { nominal := 750, tol := 30, absMax := 850, maxMa := 40000, group := 4 }
  | .avddSd => { nominal := 750, tol := 20, absMax := 850, maxMa := 80000, group := 4 }
  | .avddhSd => { nominal := 1200, tol := 30, absMax := 1350, maxMa := 20000, group := 5 }
  | .vddcStk => { nominal := 1050, tol := 30, absMax := 1200, maxMa := 20000, group := 3 }
  | .vddqStk => { nominal := 700, tol := 30, absMax := 800, maxMa := 20000, group := 4 }
  | .vppStk => { nominal := 1800, tol := 50, absMax := 2000, maxMa := 1000, group := 2 }
  | .vddDdr => { nominal := 1100, tol := 30, absMax := 1250, maxMa := 56000, group := 3 }
  | .vddAon => { nominal := 750, tol := 30, absMax := 850, maxMa := 8500, group := 1 }
  | .vddio33 => { nominal := 3300, tol := 50, absMax := 3800, maxMa := 1000, group := 1 }
/-- A die of the package: an I/O die, a hub or a stack. -/
inductive Die where
  | iod (i : Nat)
  | hub (h : Nat)
  | stk (s : Nat)
  deriving DecidableEq, Repr
/-- The ball block of a die: first and last row, first and last column (R402, Tables 19-1, 19-3). -/
def Die.block : Die → (Nat × Nat) × (Nat × Nat)
  | .iod i => (if i < 2 then (1, 24) else (85, 108), if i % 2 = 0 then (2, 46) else (47, 91))
  | .hub h => ((35, 74), (26 + 21 * h, 46 + 21 * h))
  | .stk s =>
    let r := 25 + 50 * (s % 6 / 3)
    let c := 26 + 21 * (s / 6) + 7 * (s % 3)
    ((r, r + 9), (c, c + 6))
/-- Whether a die is assembled on a variant (R402, Table 00-4). -/
def Variant.assembles (v : Variant) : Die → Bool
  | .iod i => i < v.iods
  | .hub h => h < v.hubs
  | .stk s => v.stack s

/-- Port tiles (R404): `i`, `j` the place in the tile. -/
def portBall (p i j : Nat) : Ball :=
  if j = 1 then .gnd else .port p (i / 2) (j == 2) (i % 2 == 1)
/-- The position-th signal of a subchannel (R405). -/
def ddrPin (k : Nat) : DdrPin :=
  if k < 60 then
    let n := k / 6
    if k % 6 < 4 then .dq (4 * n + k % 6) else if k % 6 = 4 then .dqsT n else .dqsC n
  else if k < 67 then .ca (k - 60)
  else if k = 67 then .par
  else if k < 70 then .cs (k - 68)
  else if k = 70 then .ckT else .ckC
/-- Whether a position of a subchannel block is GND (R405). -/
def ddrGnd (i j : Nat) : Bool := (i + j) % 7 == 0
/-- DDR5 tiles (R405). -/
def ddrBall (ch i j : Nat) : Ball :=
  if i = 7 then
    match j with
    | 0 => .ddr ch false .alert
    | 1 => .ddr ch false .reset
    | 2 => .ddr ch false .sbScl
    | 3 => .ddr ch false .sbSda
    | _ => .gnd
  else
    let r := if i < 7 then i else i - 8
    if ddrGnd r j then .gnd
    else .ddr ch (decide (7 < i)) (ddrPin ((List.range (12 * r + j)).filter (fun k => !ddrGnd (k / 12) (k % 12))).length)
/-- Stack tiles (R406). -/
def stackBall (i j : Nat) : Ball :=
  if (i + j) % 7 = 0 || (i + j) % 7 = 4 then .gnd
  else if (i = 4 || i = 9) && j = 6 then .supply .vppStk
  else .supply (if i < 5 then .vddcStk else .vddqStk)
/-- Hub cores (R407). -/
def hubBall (row col : Nat) : Ball :=
  if (row + col) % 2 = 1 then .gnd
  else if col < 28 || 66 ≤ col then .supply .vddDdr
  else .supply (.vddHub (if col < 47 then 0 else 1))
/-- Power bands (R408). -/
def bandBall (row col : Nat) : Ball :=
  if (row + col) % 2 = 1 then .gnd
  else
    let d := if row < 25 then row - 17 else 92 - row
    .supply (if d < 4 then .avddSd else if d < 6 then .avddhSd else .vddIod)
/-- The member of a list of signals at consecutive columns from `c0` on, in steps of `step`. -/
def pinAt (c0 step col : Nat) (l : List MiscPin) : Option MiscPin :=
  if col < c0 || (col - c0) % step != 0 then none else l[(col - c0) / step]?
/-- The signals of a row of the miscellaneous regions (Table 19-4). -/
def miscPin (row col : Nat) : Option MiscPin :=
  let n := col - 39
  let avs := fun (h : Nat) => ([.avsClk h, .avsMdata h, .avsSdata h] : List MiscPin)
  match row with
  | 1 | 2 => if 39 ≤ col && col < 55 then some (.pcieTx n (row == 2)) else none
  | 4 | 5 => if 39 ≤ col && col < 55 then some (.pcieRx n (row == 5)) else none
  | 7 => if col = 42 then some .perst
    else (pinAt 39 1 col [.refclkPcie false, .refclkPcie true]).or
      ((pinAt 44 1 col [.refclkFab 0 false, .refclkFab 0 true]).or (pinAt 52 1 col [.refclkFab 1 false, .refclkFab 1 true]))
  | 9 => (pinAt 39 1 col ([.spiClk, .spiCs, .spiDqs] ++ (List.range 8).map .spiIo)).or (pinAt 51 1 col [.i3cScl, .i3cSda])
  | 11 => (pinAt 39 1 col [.tck, .tms, .tdi, .tdo, .trst]).or ((pinAt 45 1 col [.sysRst, .alert, .therm, .throttle]).or
      ((pinAt 50 1 col [.clkAon]).or (pinAt 51 1 col ((List.range 4).map .strap))))
  | 13 => (pinAt 39 1 col (avs 0)).or (pinAt 43 1 col [.vsense 0 false, .vsense 0 true])
  | 100 => (pinAt 39 1 col [.refclkFab 2 false, .refclkFab 2 true]).or (pinAt 52 1 col [.refclkFab 3 false, .refclkFab 3 true])
  | 102 => (pinAt 44 1 col [.hbx false false, .hbx false true]).or (pinAt 47 1 col [.hbx true false, .hbx true true])
  | 104 => if 39 ≤ col && col < 55 then some (.gpio n) else none
  | 106 => (pinAt 39 1 col (avs 1)).or (pinAt 43 1 col [.vsense 1 false, .vsense 1 true])
  | _ => none
/-- The miscellaneous regions (R409). -/
def miscBall (row col : Nat) : Ball :=
  match miscPin row col with
  | some m => .misc m
  | none =>
    if row = 13 && [47, 49, 51, 53].contains col then .supply .vddio33
    else if (row = 15 || row = 16) && [39, 41, 43, 45, 47].contains col then .supply .vddAon
    else .gnd
/-- What ball `row`-`col` carries (R403, Tables 19-2, 19-3). -/
def ballAt (row col : Nat) : Ball :=
  let top := decide (row < 17)
  if row = 0 || 108 < row || col = 0 || 92 < col then .empty
  else if col = 1 || col = 92 then (if row = 54 || row = 55 then .gnd else .empty)
  else if top || 93 ≤ row then
    let r := if top then row - 1 else row - 93
    let side := decide (56 ≤ col)
    let c := if side then col - 56 else col - 2
    if 38 ≤ col && col < 56 then miscBall row col
    else portBall (24 * ((if top then 0 else 2) + (if side then 1 else 0)) + 12 * (r / 8) + c / 3) (r % 8) (c % 3)
  else if row < 25 || 85 ≤ row then bandBall row col
  else if col < 26 || 68 ≤ col then
    let c := if col < 26 then col - 2 else col - 68
    ddrBall ((if col < 26 then 0 else 8) + 4 * (c / 12) + (row - 25) / 15) ((row - 25) % 15) (c % 12)
  else if row < 35 then stackBall (row - 25) ((col - 26) % 7)
  else if 75 ≤ row then stackBall (row - 75) ((col - 26) % 7)
  else hubBall row col
/-- Whether a signal ball is connected inside the package of a variant (R410). -/
def Variant.connects (v : Variant) : Ball → Bool
  | .port p _ _ _ => p < v.ports
  | .ddr ch _ _ => ch < v.dcs
  | .misc m =>
    match m with
    | .refclkFab i _ => i < v.iods
    | .avsClk h | .avsMdata h | .avsSdata h | .vsense h _ => h < v.hubs
    | .hbx _ _ => v.mirror
    | _ => true
  | _ => false
/-- Whether a ball has a cell in the boundary register (R427). -/
def Variant.scanned (v : Variant) (b : Ball) : Bool :=
  v.connects b && (match b with
    | .misc m => (match m with
      | .tck | .tms | .tdi | .tdo | .trst | .vsense _ _ => false
      | _ => true)
    | _ => true)
/-- The balls of the boundary register's cells, cell 0 first (R427). -/
def Variant.boundary (v : Variant) : List (Nat × Nat) :=
  (List.range (108 * 92)).filterMap (fun k =>
    let b := (k / 92 + 1, k % 92 + 1)
    if v.scanned (ballAt b.1 b.2) then some b else none)

end Sys2Proof.Machine
end

