-- ==== Sys2Proof/Machine/Security.lean ====
section
/-! DEFINITION. SPDM sessions, sealed records and bounce buffers (R383 to R388). An SPDM message's bytes are the DMTF standard's,
which the manual does not repeat, so requests and responses stand typed (log 6); signatures, keys and tags are uninterpreted (log 4). -/

namespace Sys2Proof.Machine

/-! The responder (R384). -/

/-- A function's DOE response. -/
def State.doe (s : State) (fn : Nat) (r : Spdm) : State := { s with pins := { s.pins with doe := s.pins.doe.put fn r } }
/-- How far a function's requester has come: 0 nothing, 1 version, 2 capabilities, 3 algorithms (log 20). -/
def State.spdmPhase (s : State) (fn : Nat) : Nat := s.fw.spdm.or fn 0
/-- A function answers an SPDM request: the PF and the 64 VFs do, unless the controller is in reset. -/
def State.spdmOn (s : State) (fn : Nat) (f : State → State) : State :=
  if 64 < fn || s.boot.held || s.boot.stopped then s else f s
/-- An SPDM request that needs a phase; another order draws an error. -/
def State.spdmAt (s : State) (fn : Nat) (phase : Nat) (f : State → State) : State :=
  s.spdmOn fn (fun s => if s.spdmPhase fn = phase then f s else s.doe fn .error)
/-- Sets a function's phase. -/
def State.setPhase (s : State) (fn n : Nat) : State := { s with fw := { s.fw with spdm := s.fw.spdm.put fn n } }
/-- GET_VERSION (R384). -/
def execGetVersion (fn : Nat) (s : State) : Host.Outcome State Fault Refusal :=
  settled (s.spdmOn fn (fun s => (s.setPhase fn 1).doe fn .version))
/-- GET_CAPABILITIES (R384). -/
def execGetCapabilities (fn : Nat) (s : State) : Host.Outcome State Fault Refusal :=
  settled (s.spdmAt fn 1 (fun s => (s.setPhase fn 2).doe fn .capabilities))
/-- NEGOTIATE_ALGORITHMS (R384). -/
def execNegotiateAlgorithms (fn : Nat) (s : State) : Host.Outcome State Fault Refusal :=
  settled (s.spdmAt fn 2 (fun s => (s.setPhase fn 3).doe fn .algorithms))
/-- The digest of slot 0's certificate chain. -/
def slot0 : BitVec 384 := Config.sha384 Config.certChain
/-- GET_DIGESTS (R384). -/
def execGetDigests (fn : Nat) (s : State) : Host.Outcome State Fault Refusal :=
  settled (s.spdmAt fn 3 (fun s => s.doe fn (.digests slot0)))
/-- GET_CERTIFICATE (R384): the chain is held in slot 0 alone. -/
def execGetCertificate (fn slot off len : Nat) (s : State) : Host.Outcome State Fault Refusal :=
  settled (s.spdmAt fn 3 (fun s =>
    let part := (Config.certChain.drop off).take len
    if slot != 0 then s.doe fn .error
    else s.doe fn (.certificate part (Config.certChain.length - off - part.length))))
/-- CHALLENGE (R384). -/
def execChallenge (fn nonce : Nat) (s : State) : Host.Outcome State Fault Refusal :=
  settled (s.spdmAt fn 3 (fun s => s.doe fn (.challengeAuth slot0 (Config.spdmSign (leBytes 32 nonce ++ leBytes 48 slot0.toNat)))))
/-- The measurements that an index asks for: 0 none but their number, 1 to 5 one, 0xFF all (Table 17-3). -/
def State.measurements (s : State) (index : Nat) : List (Nat × BitVec 384) :=
  ((List.range' 1 5).filter (fun i => index == 0xFF || index == i)).map (fun i => (i, s.fw.measure.or i 0))
/-- GET_MEASUREMENTS (R383, R384). -/
def execGetMeasurements (fn index nonce : Nat) (s : State) : Host.Outcome State Fault Refusal :=
  settled (s.spdmAt fn 3 (fun s =>
    if 5 < index && index != 0xFF then s.doe fn .error
    else
      let l := s.measurements index
      s.doe fn (.measurements l (Config.spdmSign (leBytes 32 nonce ++ l.flatMap (fun x => leBytes 48 x.2.toNat))))))

/-! Sessions (R384, R388). -/

/-- The sessions of a function. -/
def State.sessionsOf (s : State) (fn : Nat) : List Session := s.fw.sessions.filter (fun x => x.fn == fn)
/-- A session of a function by its id. -/
def State.session? (s : State) (fn id : Nat) : Option Session := s.fw.sessions.find? (fun x => x.fn == fn && x.id == id)
/-- A session ends: a confidential partition's host access closes, and the response of a mailbox command that runs for it will be
discarded (R387, R388). -/
def State.dropSession (s : State) (fn id : Nat) : State :=
  let conf := fn != 0 && (s.part? (fn - 1)).any (·.bounce.isSome)
  let s := { s with fw := { s.fw with sessions := s.fw.sessions.filter (fun x => !(x.fn == fn && x.id == id)) } }
  let s := if conf then s.modPart (fn - 1) (fun p => { p with hostClosed := true }) else s
  if fn != 0 && (conf || (s.mb fn).sealed) && (s.mb fn).st == .running && (s.mb fn).holder == some (.func fn) then
    s.updMb fn (fun b => { b with gone := true })
  else s
/-- KEY_EXCHANGE (R384): a VF's older session ends first, the PF holds four; ids and keys are free values. -/
def execKeyExchange (fn share : Nat) (s : State) : Host.Outcome State Fault Refusal :=
  settled (s.spdmAt fn 3 (fun s =>
    let s := if fn = 0 then s else (s.sessionsOf fn).foldl (fun s x => s.dropSession fn x.id) s
    if 4 ≤ (s.sessionsOf fn).length then s.doe fn .error
    else
      let (v, s) := s.draw
      let (keyIn, s) := s.draw
      let (keyOut, s) := s.draw
      match firstFree (fun i => (s.session? fn i).isSome) 0 (2 ^ 32) v with
      | none => s.doe fn .error
      | some id =>
        let s := { s with fw := { s.fw with sessions := s.fw.sessions ++ [({ fn, id, keyIn, keyOut } : Session)] } }
        s.doe fn (.keyExchangeRsp id (Config.spdmSign (leBytes 96 share ++ leBytes 4 id)))))
/-- FINISH (R384, R387): records are numbered from 0. -/
def execFinish (fn sess : Nat) (mac : List Byte) (s : State) : Host.Outcome State Fault Refusal :=
  settled (s.spdmOn fn (fun s =>
    match s.session? fn sess with
    | none => s.doe fn .error
    | some x =>
      if x.finished then s.doe fn .error
      else if Config.finishVerifies x.keyIn mac then
        (s.updSession fn sess (fun x => { x with finished := true, fresh := true, seqIn := 0, seqOut := 0 })).doe fn .finishRsp
      else (s.dropSession fn sess).doe fn .error))
/-- A request within an established session. -/
def State.inSession (s : State) (fn sess : Nat) (f : Session → State → State) : State :=
  s.spdmOn fn (fun s =>
    match s.session? fn sess with
    | some x => if x.finished then f x s else s.doe fn .error
    | none => s.doe fn .error)
/-- KEY_UPDATE (R387, R388): direction 0 the requester's key, otherwise both; the numbers start from 0 again. -/
def execKeyUpdate (fn sess dir : Nat) (s : State) : Host.Outcome State Fault Refusal :=
  settled (s.inSession fn sess (fun _ s =>
    let (k, s) := s.draw
    let s := s.updSession fn sess (fun x => { x with keyIn := k, seqIn := 0 })
    if dir = 0 then s.doe fn .keyUpdateAck
    else
      let (k, s) := s.draw
      (s.updSession fn sess (fun x => { x with keyOut := k, seqOut := 0 })).doe fn .keyUpdateAck))
/-- HEARTBEAT (R384). -/
def execHeartbeat (fn sess : Nat) (s : State) : Host.Outcome State Fault Refusal :=
  settled (s.inSession fn sess (fun _ s => s.doe fn .heartbeatAck))
/-- END_SESSION (R384, R388). -/
def execEndSession (fn sess : Nat) (s : State) : Host.Outcome State Fault Refusal :=
  settled (s.inSession fn sess (fun _ s => (s.dropSession fn sess).doe fn .endSessionAck))

/-! Sealed records and the bounce buffer (R385 to R387). -/

/-- SEALED_RECORD (R387): a request fills the request buffer that the partition's VF holds; a record that fails ends the session. -/
def execSealedRecord (part seq kind : Nat) (body : List Byte) (tag : Nat) (s : State) : Host.Outcome State Fault Refusal :=
  let fn := part + 1
  settled (match s.partSession part with
    | none => s
    | some x =>
      let iv := sealNonce x.keyIn seq
      if seq = x.seqIn && Config.gcmVerifies x.keyIn iv (sealHeader seq body.length kind) body tag then
        let s := s.updSession fn x.id (fun x => { x with seqIn := x.seqIn + 1 })
        if kind != 1 then s
        else
          let plain := Config.gcmOpen x.keyIn iv body
          let s := { s with fw := { s.fw with opened := (part, plain) :: s.fw.opened } }
          if s.holds (.func fn) fn then
            s.updMb fn (fun b => { b with req := b.req.write 0 (plain.take 0x1000), sealed := true })
          else s.mbReject fn
      else s.dropSession fn x.id)
/-- Whether a base and length are such as R385 allows. -/
def bounceOk (base len : Nat) : Bool :=
  (len == 0 && base == 0) || (65536 ≤ len && len ≤ 67108864 && len % 4096 == 0 && base % 4096 == 0)
/-- BOUNCE_SET (R385, R387). -/
def execBounceSet (m part base len : Nat) (s : State) : Host.Outcome State Fault Refusal :=
  let p := s.part? part
  let sealed := (s.mb m).sealed && m == part + 1
  let first := sealed && s.freshSession m
  let again := sealed && p.any (·.bounce.isSome)
  settled (s.command m { own := [some part] }
    [bad (63 < part) 0, bad (!bounceOk base len) 8, chk p.isNone .busy,
     chk (!(again || (first && len != 0))) .authFail]
    (fun s => (s.modPart part (fun p => { p with
      bounce := if len = 0 then none else some (base, len)
      hostClosed := false })).respond m okResp))

end Sys2Proof.Machine
end

