-- ==== Sys2Proof/Machine/Power.lean ====
section
/-! DEFINITION. Power limits, throttling, low-power states, rails, thermal limits and the TAP (R1, R307, R353, R392, R412, R415 to
R427). -/

namespace Sys2Proof.Machine

/-- Changes the power state. -/
def State.updPower (s : State) (f : Power → Power) : State := { s with power := f s.power }

/-! Hub clocks (R1, R415, R418, R419, R423). -/

/-- The least of some caps and a clock. -/
def capped (l : List (Option Nat)) (mhz : Nat) : Nat := l.foldl (fun m c => min m (c.getD m)) mhz
/-- The clock of a hub in MHz: no more than the limit in force, the caps of the power average and of its temperature, half the
fused clock while `THROTTLE_N` is low, and 1200 MHz without its regulator. -/
def State.hubMhz (s : State) (h : Nat) : Nat :=
  capped [s.power.avgMhz, s.power.hotMhz.at? h, if s.pins.throttle then some (s.variant.mhz / 2) else none,
    if s.power.nack.contains h then some 1200 else none] s.power.limitMhz
/-- The target that the controller asks of a hub's regulator, in mV: the lowest of its voltage-frequency table that carries the clock
(R353), within 650 to 850 in steps of 5; 750 without an acknowledgement, or with no such entry (R415). -/
def State.hubMv (s : State) (h : Nat) : Nat :=
  if s.power.nack.contains h then 750
  else
    match (s.fuses.vf.filter (fun (x : Nat × Nat × Nat) => x.1 == h && decide (s.hubMhz h ≤ x.2.1))).map (·.2.2) with
    | [] => 750
    | v :: l => max 650 (min 850 (cdiv (l.foldl min v) 5 * 5))
/-- One step down: 50 MHz, to no lower than 600 (R418). -/
def stepDown (mhz : Nat) : Nat := min mhz (max 600 (mhz - 50))
/-- Number of a hub as R433 numbers units. -/
def hubUnit (h : Nat) : Nat := 0x4000 + h
/-- The partitions with work on a hub: an unfinished descriptor there (R307, log 14). -/
def State.hubWork (s : State) (h : Nat) : List Nat :=
  ((s.descs.filter (fun d => d.hub == h && d.phase != .finished)).filterMap (fun d => (s.queue? d.q).map (·.part))).dedup
/-- `THROTTLE` for some hubs (R307). -/
def State.hubEvents (s : State) (hs : List Nat) (cause : Nat) (fin : Bool) : State :=
  hs.foldl (fun s h => s.postParts (s.hubWork h) (fun _ => throttleEv (hubUnit h) cause fin s.now)) s
/-- Every hub. -/
def State.hubList (s : State) : List Nat := List.range s.hubs

/-- POWER_LIMIT_SET (R1, R353). -/
def execPowerLimitSet (m watts mhz : Nat) (s : State) : Host.Outcome State Fault Refusal :=
  settled (s.command m { fm := true }
    [chk (s.variant.watts < watts || s.variant.mhz < mhz) .notPermitted]
    (fun s => (s.updPower (fun p => { p with limitW := watts, limitMhz := mhz })).respond m okResp))
/-- The power average above the limit: a step down; the first opens an episode (R418). -/
def State.averageHigh (s : State) : State :=
  let s' := s.updPower (fun p => { p with avgMhz := some (stepDown (p.avgMhz.getD p.limitMhz)) })
  if s.power.avgMhz.isNone then s'.hubEvents s.hubList 1 false else s'
/-- The power average 5 % below the limit: a step up; the limit of R1 ends the episode. -/
def State.averageLow (s : State) : State :=
  match s.power.avgMhz with
  | none => s
  | some c =>
    if s.power.limitMhz ≤ c + 50 then (s.updPower (fun p => { p with avgMhz := none })).hubEvents s.hubList 1 true
    else s.updPower (fun p => { p with avgMhz := some (c + 50) })
/-- POWER_AVERAGE_TICK (R418, R423): the average of the last 1 ms; a hub too hot is lowered by another step. -/
def execPowerAverageTick (watts : Nat) (s : State) : Host.Outcome State Fault Refusal :=
  settled (
    if s.boot.held || s.boot.stopped then s
    else
      let s := s.updPower (fun p => { p with watts, hotMhz := p.hotMhz.map (fun (x : Nat × Nat) => (x.1, stepDown x.2)) })
      if s.power.limitW < watts then s.averageHigh
      else if watts * 100 ≤ s.power.limitW * 95 then s.averageLow
      else s)
/-- A change of `THROTTLE_N` (R419). -/
def State.throttlePin (s : State) (low : Bool) : State :=
  if s.pins.throttle == low then s
  else ({ s with pins := { s.pins with throttle := low } } : State).hubEvents s.hubList 1 (!low)
/-- THROTTLE_N_ASSERT. -/
def execThrottleNAssert (s : State) : Host.Outcome State Fault Refusal := settled (s.throttlePin true)
/-- THROTTLE_N_DEASSERT. -/
def execThrottleNDeassert (s : State) : Host.Outcome State Fault Refusal := settled (s.throttlePin false)
/-- REGULATOR_NACK (R415). -/
def execRegulatorNack (hub : Nat) (s : State) : Host.Outcome State Fault Refusal :=
  settled (if s.hubs ≤ hub || s.power.nack.contains hub then s
    else (s.updPower (fun p => { p with nack := addSorted p.nack hub })).hubEvents [hub] 1 false)

/-! Temperatures (Table 19-10). -/

/-- The temperatures in °C at which a sensor starts its throttle action and at which it ends it. -/
def throttlePoint (unit : Nat) : Option (Nat × Nat) :=
  if unit / 0x100 = 0x40 then some (100, 98)
  else if unit / 0x100 = 0x41 || (0x8000 ≤ unit && unit < 0x8010) then some (90, 90)
  else none
/-- The temperature at which a sensor trips. -/
def tripPoint (unit : Nat) : Nat := if unit / 0x100 = 0x41 then 100 else 110
/-- Whether the part has a sensor: of a hub, a stack, an I/O die (96 ports on four, 48 on two) or a DIMM's channel. -/
def State.hasSensor (s : State) (unit : Nat) : Bool :=
  if unit / 0x100 = 0x40 then decide (unit % 0x100 < s.hubs)
  else if unit / 0x100 = 0x41 then s.variant.stack (unit % 0x100)
  else if unit / 0x100 = 0x42 then decide (unit % 0x100 < s.variant.ports / 24)
  else 0x8000 ≤ unit && s.assembled unit
/-- The memory units of a stack or a channel. -/
def sensorUnits (unit : Nat) : List Nat :=
  if unit / 0x100 = 0x41 then (List.range 64).map (fun i => 64 * (unit % 0x100) + i)
  else if 0x8000 ≤ unit then [unit] else []
/-- The partitions with work on a throttled unit. -/
def State.sensorWork (s : State) (unit : Nat) : List Nat :=
  if unit / 0x100 = 0x40 then s.hubWork (unit % 0x100) else s.memWork (sensorUnits unit)
/-- A sensor's reading is kept. -/
def State.record (s : State) (unit temp : Nat) : State :=
  let s := s.updPower (fun p => { p with temps := p.temps.put unit temp })
  (sensorUnits unit).foldl (fun s u => s.updUnit u (fun m => { m with temp })) s
/-- The throttle action of a unit starts: a hub's clock goes down a step, a memory unit issues in fewer slots (R423). -/
def State.hotOn (s : State) (unit : Nat) : State :=
  let h := unit % 0x100
  let down := stepDown (s.hubMhz h)
  let s := s.updPower (fun p => { p with
    hotUnits := addSorted p.hotUnits unit
    hotMhz := if unit / 0x100 = 0x40 then p.hotMhz.put h down else p.hotMhz })
  s.postParts (s.sensorWork unit) (fun _ => throttleEv unit 2 false s.now)
/-- The throttle action of a unit ends. -/
def State.hotOff (s : State) (unit : Nat) : State :=
  let s := s.updPower (fun p => { p with
    hotUnits := dropVal p.hotUnits unit
    hotMhz := if unit / 0x100 = 0x40 then p.hotMhz.del (unit % 0x100) else p.hotMhz })
  s.postParts (s.sensorWork unit) (fun _ => throttleEv unit 2 true s.now)
/-- THERMAL_THROTTLE (R423): a sensor reads `temp` °C. -/
def execThermalThrottle (unit temp : Nat) (s : State) : Host.Outcome State Fault Refusal :=
  settled (
    if !s.hasSensor unit then s
    else
      let s := s.record unit temp
      match throttlePoint unit with
      | none => s
      | some (on, off) =>
        if s.boot.held || s.boot.stopped then s
        else if on ≤ temp && !s.power.hotUnits.contains unit then s.hotOn unit
        else if temp < off && s.power.hotUnits.contains unit then s.hotOff unit
        else s)

/-! Stops (R416, R424). -/

/-- The controller flushes what it can and holds itself in reset, until `SYS_RST_N` is asserted and released. -/
def State.halt (s : State) : State := (s.flushAll.coldReset 1 true false).updBoot (fun b => { b with stopped := true })
/-- THERMAL_TRIP (R424). -/
def execThermalTrip (sensor : Nat) (s : State) : Host.Outcome State Fault Refusal :=
  settled (if !s.hasSensor sensor || 0x8000 ≤ sensor then s
    else
      let n := (s.halt).updPower (fun p => { p with trip := true, temps := p.temps.put sensor (tripPoint sensor) })
      { n with pins := { n.pins with therm := true, alert := addSorted n.pins.alert 4 } })
/-- RAIL_FAULT (R416): of any rail but `VDD_AON` and `VDDIO_3V3`. -/
def execRailFault (_rail : Nat) (s : State) : Host.Outcome State Fault Refusal :=
  settled (
    let n := (s.halt).updPower (fun p => { p with rail := true })
    { n with pins := { n.pins with alert := addSorted n.pins.alert 3 } })
/-- AON_RAIL_FAULT (R416): a reset as at power-on. -/
def execAonRailFault (s : State) : Host.Outcome State Fault Refusal := settled (s.coldReset 0 true false)

/-! Low-power states (R420 to R422). -/

/-- Whether an engine is idle. -/
def Engine.idle (g : Engine) : Bool := g.job.isNone && !g.resetting
/-- ENGINE_CLOCK_GATE. -/
def execEngineClockGate (e : Nat) (s : State) : Host.Outcome State Fault Refusal :=
  settled (if s.enginePresent e && (s.engine e).idle && (s.engine e).gate = 0 then s.updEngine e (fun g => { g with gate := 1 })
    else s)
/-- ENGINE_POWER_GATE: of an operator engine. -/
def execEnginePowerGate (e : Nat) (s : State) : Host.Outcome State Fault Refusal :=
  settled (if e < 0x100 && s.enginePresent e && (s.engine e).idle then s.updEngine e (fun g => { g with gate := 2 }) else s)
/-- Whether no request waits at a unit. -/
def MemUnit.quiet (m : MemUnit) : Bool := m.rq.isEmpty && m.wq.isEmpty
/-- PC_POWER_DOWN (R420, R422). -/
def execPcPowerDown (u : Nat) (s : State) : Host.Outcome State Fault Refusal :=
  settled (if s.unitPresent u && (s.unit u).power = 0 && (s.unit u).quiet && !s.strictGroup (unitGroup u) then
      s.updUnit u (fun m => { m.precharge s.clock.aon with power := 1 })
    else s)
/-- Whether self-refresh may begin: no request waits, a stack serves no strict partition, a channel has no dirty line. -/
def State.maySelfRefresh (s : State) (u : Nat) : Bool :=
  (refreshUnits u).all (fun x => (s.unit x).quiet)
  && (if u < 768 then (List.range 4).all (fun i => !s.strictGroup (u / 64 * 4 + i))
      else (s.linesOf u).all (fun l => l.dirty == 0))
/-- SELF_REFRESH_ENTRY (R420, R422). -/
def execSelfRefreshEntry (u : Nat) (s : State) : Host.Outcome State Fault Refusal :=
  settled (if s.unitPresent u && s.maySelfRefresh u then
      (refreshUnits u).foldl (fun s x => s.updUnit x (fun m => { m.precharge s.clock.aon with power := 2 })) s
    else s)
/-- UNIT_WAKE (R420). -/
def execUnitWake (u : Nat) (s : State) : Host.Outcome State Fault Refusal :=
  settled (if s.unitPresent u then s.wakeUnit u else s)
/-- Whether an engine lets the package sleep: an operator engine power-gated, a transfer engine, which has no such state,
clock-gated. -/
def State.engineAsleep (s : State) (e : Nat) : Bool :=
  !s.enginePresent e || (if e < 0x100 then (s.engine e).gate = 2 else (s.engine e).gate != 0)
/-- Whether a port lets the package sleep. -/
def Port.asleep (q : Port) : Bool :=
  q.st == .down || q.st == .disabled || q.st == .absent || (q.isUp && q.pstate == 2 && q.lp == 0)
/-- The conditions of STANDBY (R421). -/
def State.mayStandby (s : State) : Bool :=
  s.portList.all (fun p => (s.port p).asleep)
  && (List.range s.variant.oes).all s.engineAsleep
  && (List.range s.variant.tes).all (fun e => s.engineAsleep (0x100 + e))
  && s.descs.all (·.waits)
  && s.mbs.all (fun (b : Nat × Mailbox) => b.2.st != .running)
  && (List.range 12).all (fun n => !s.stackPresent n ||
      (List.range 64).all (fun i => !s.unitPresent (64 * n + i) || (s.unit (64 * n + i)).power == 2))
/-- STANDBY_ENTRY (R421): kettle and tier cache are flushed, and the hub clocks stop. -/
def execStandbyEntry (s : State) : Host.Outcome State Fault Refusal :=
  settled (if !s.power.standby && !s.boot.held && !s.boot.stopped && s.mayStandby then
      (s.flushAll).updPower (fun p => { p with standby := true })
    else s)
/-- STANDBY_WAKE (R421). -/
def execStandbyWake (s : State) : Host.Outcome State Fault Refusal := settled s.rouse

/-! The TAP (R392, R425 to R427). -/

/-- A TAP instruction (Table 19-11). -/
inductive TapIr where
  | extest
  | idcode
  | sample
  | bypass
  | privateCode
  deriving DecidableEq, Repr
/-- The instruction of an 8-bit code; EXTEST_PULSE and EXTEST_TRAIN idle the ports as EXTEST does. -/
def tapIr (ir : Nat) : TapIr :=
  if ir = 0 || ir = 3 || ir = 4 then .extest
  else if ir = 1 then .idcode
  else if ir = 2 then .sample
  else if ir < 0x80 || ir = 0xFF then .bypass
  else .privateCode
/-- The boundary test isolates the package: ports to electrical idle, engines stopped (R392). -/
def State.tapIsolate (s : State) : State :=
  let s := s.updPower (fun p => { p with tapTest := true })
  s.portList.foldl (fun s p =>
    let q := s.port p
    if q.st == .absent || q.st == .disabled then s
    else
      let s := if q.isUp then s.loseLink p else s.silence p
      (s.updPort p (fun q => { q with st := .down })).windowOver p) s
/-- TAP_INSTRUCTION_LOAD (R383, R392): a private instruction is refused under the debug lock. -/
def execTapInstructionLoad (ir : Nat) (s : State) : Host.Outcome State Fault Refusal :=
  settled (
    let c := ir % 256
    if tapIr c == .privateCode && s.fuses.debugLock then s
    else
      let s := s.measure 5 (s.fuses.debugWord [c])
      let s : State := { s with fw := { s.fw with tapLog := s.fw.tapLog ++ [c] } }
      if tapIr c == .extest then s.tapIsolate else s)
/-- TAP_RESET (R392). -/
def execTapReset (s : State) : Host.Outcome State Fault Refusal :=
  settled (if s.power.tapTest then s.coldReset 2 false false else s)
/-- The device identification register (Table 19-12). -/
def State.idcode (s : State) : Nat :=
  let part := match s.variant with
    | .v9612H | .v9612M => 0x9612
    | .v9608H => 0x9608
    | .v4806M => 0x4806
  at_ s.fuses.stepping.toNat 4 28 + at_ part 16 12 + at_ 0x3B5 11 1 + 1
/-- The length of the boundary register (R427). -/
def State.boundaryLength (s : State) : Nat := s.variant.boundary.length

/-! The I3C target (R412). -/

/-- The static address of the I3C target: 0x30 + `STRAP2`:`STRAP1` (Table 19-5). -/
def State.i3cAddr (s : State) : Nat := 0x30 + fld s.boot.straps.toNat 2 1
/-- A temperature as the I3C target gives it: 0x80 marks an absent unit. -/
def State.i3cTemp (s : State) (unit : Nat) : Nat := if s.hasSensor unit then s.power.temps.or unit 25 % 256 else 0x80
/-- The byte at an I3C address of the baseboard controller's read-only registers. -/
def State.i3cByte (s : State) (bootStatus : Nat) (a : Nat) : Nat :=
  if a < 8 then at_ (bootStatus >>> (8 * a)) 8 0
  else if a < 0x0A then s.i3cTemp (0x4000 + (a - 8))
  else if a < 0x16 then s.i3cTemp (0x4100 + (a - 0x0A))
  else if a = 0x16 then (List.range 4).foldl (fun t i => max t (s.power.temps.or (0x4200 + i) 25)) 0 % 256
  else if a = 0x18 then at_ s.power.watts 8 0
  else if a = 0x19 then at_ (s.power.watts >>> 8) 8 0
  else 0

end Sys2Proof.Machine
end

