-- ==== Sys2Proof/Machine/Routing.lean ====
section
/-! DEFINITION. Routing tables, transit, multicast, notices, message trackers and pins (R91, R93, R217 to R235, R311, R324,
R357, R365, Tables 09-3 to 09-9, 16-13). -/

namespace Sys2Proof.Machine

/-! Routing commands (R218, R222, R224, R226, R233). -/

/-- NODE_CONFIG (R218). -/
def execNodeConfig (m : Nat) (word : BitVec 64) (s : State) : Host.Outcome State Fault Refusal :=
  settled (s.command m { fm := true }
    [bad (bfld word 39 30 == 0 || 1000 < bfld word 39 30 || bfld word 29 22 == 0 || bfld word 21 0 != 0) 0]
    (fun s => (s.updNet (fun n => { n with word })).respond m okResp))
/-- The ports that a route entry names. -/
def entryPorts (e : Nat) : List Nat :=
  (List.range 4).filterMap (fun i => if bit e (8 * i + 7) then some (fld e (8 * i + 6) (8 * i)) else none)
/-- Entries put in a table from key `k` on. -/
def putAll {α : Type} (t : Tab α) : Nat → List α → Tab α
  | _, [] => t
  | k, x :: r => putAll (t.put k x) (k + 1) r
/-- ROUTE_SET (R222): pins stay as they are (R226). -/
def execRouteSet (m first : Nat) (entries : List Nat) (s : State) : Host.Outcome State Fault Refusal :=
  let ports := entries.flatMap entryPorts
  settled (s.command m { fm := true }
    [chk (ports.any (fun p => decide (p < 96) && !s.portPresent p)) .absentUnit,
     bad (65536 ≤ first) 0, bad (entries.isEmpty || 500 < entries.length || 65536 < first + entries.length) 4,
     bad (ports.any (fun p => decide (95 < p)) || entries.any (fun e => fld e 53 32 != 0 || 2 ^ 64 ≤ e)) 8]
    (fun s => (s.updNet (fun n => { n with routes := putAll n.routes first (entries.map (BitVec.ofNat 64)) })).respond m okResp))
/-- VSET_SET (R224). -/
def execVsetSet (m set : Nat) (nodes : List Nat) (s : State) : Host.Outcome State Fault Refusal :=
  settled (s.command m { fm := true }
    [bad (255 < set) 0, bad (64 < nodes.length) 4, bad (nodes.any (fun n => decide (0xFFFF < n))) 8]
    (fun s => (s.updNet (fun n => { n with vsets := n.vsets.put set nodes })).respond m okResp))
/-- ROUTE_UNPIN (R226): the pins of the flows to a destination node; their number is returned. -/
def execRouteUnpin (m node : Nat) (s : State) : Host.Outcome State Fault Refusal :=
  settled (s.command m { fm := true } [bad (0xFFFF < node) 0]
    (fun s =>
      let gone := (s.net.pins.filter (fun x => x.key.dstNode == node)).length
      (s.updNet (fun n => { n with pins := n.pins.filter (fun x => x.key.dstNode != node) })).respond m (okBody [(4, gone)])))
/-- FLOCK_SET (R233). -/
def execFlockSet (m flock : Nat) (entry : BitVec 128) (s : State) : Host.Outcome State Fault Refusal :=
  settled (s.command m { fm := true }
    [chk ((bitsOf (bfld entry 95 0) 96).any (fun p => !s.portPresent p)) .absentUnit,
     bad (4095 < flock) 0, bad (bfld entry 125 112 != 0) 8]
    (fun s => (s.updNet (fun n => { n with flocks := n.flocks.put flock entry })).respond m okResp))
/-- The fields of entry `i` of a `ROUTE_QUERY`: a route entry, a Valiant set (its count and nodes) or a flock entry. -/
def State.queryEntry (s : State) (kind i : Nat) : List (Nat × Nat) :=
  match kind with
  | 0 => [(8, (s.net.routes.or i 0).toNat)]
  | 1 =>
    let l := s.net.vsets.or i []
    (4, l.length) :: recs 2 l
  | _ => [(16, (s.flockEnt i).toNat)]
/-- As many of the entries `first` to `first + n - 1` as fit a response beside the routing word, `PIN_FULL` and the cursor. -/
def State.queryEntries (s : State) (kind : Nat) : Nat → Nat → List (Nat × Nat) → List (Nat × Nat) × Nat
  | first, 0, acc => (acc, first)
  | first, n + 1, acc =>
    let l := acc ++ s.queryEntry kind first
    if 4064 < (packBody (l ++ [(8, 0), (4, 0), (4, 0)])).length then (acc, first) else s.queryEntries kind (first + 1) n l
/-- ROUTE_QUERY (R375). -/
def execRouteQuery (m kind first count : Nat) (s : State) : Host.Outcome State Fault Refusal :=
  let top := match kind with
    | 0 => 65536
    | 1 => 256
    | _ => 4096
  settled (s.command m { fm := true, query := true }
    [bad (2 < kind) 0, bad (top ≤ first) 4, bad (count == 0 || 250 < count) 8]
    (fun s =>
      let (l, next) := s.queryEntries kind first (min count (top - first)) []
      let body := l ++ [(8, s.net.word.toNat), (4, sat 32 s.net.pinFull)]
      let more := decide (next < top)
      s.respond m { status := .ok, body := if more then body ++ [(4, next)] else body, more }))

/-! Local delivery of packets without a row of their own (R91, R93, R219, R311, R357, R365). -/

end Sys2Proof.Machine

namespace Sys2Proof
/-- Whether a packet's opcode and endpoint have a row of their own, which takes it from the receive buffer. -/
def Hdr.ownRow (h : Hdr) : Bool :=
  let off := h.addr % 0x4000
  if h.dstEp = 0x00 then !(h.opcode == 0x01 || h.opcode == 0x02 || h.opcode == 0x13)
  else if h.dstEp = 0xFD then
    if h.opcode = 0x01 then (decide (h.addr < 0x10000000) && h.addr % 4096 == 0) || (decide (0x10000000 ≤ h.addr) && h.addr % 64 == 0)
    else h.opcode == 0x02 && ((decide (h.addr < 0x10000000) && h.addr % 4096 == 0x18) || (decide (0x10000000 ≤ h.addr) && h.addr % 64 == 0x18))
  else if h.dstEp = 0xFE then
    if h.opcode = 0x01 then decide (off < 0x1000) || off == 0x2000 || off == 0x2008
    else h.opcode == 0x02 && (off == 0x2000 || off == 0x2018)
  else false
end Sys2Proof

namespace Sys2Proof.Machine

/-- A read or write at endpoint 0xFD of a register that only answers: a doorbell page (R91, R93) or an event queue (R311). -/
def State.plainFd (s : State) (p : Nat) (pkt : Packet) : State :=
  let h := pkt.hdr
  let cmd := Instr.transitForward p pkt
  if h.addr < 0x10000000 then
    let q := s.queue? (h.addr / 4096)
    s.regAccess (.fabric p h) cmd (fun _ => false) (fun h => q.any (fun q => h.ctxTag == s.tagOf q.ctx))
      ((q.map (fun q => q.page false (h.addr % 4096))).getD 0) id
  else s.eqAccess (.fabric p h) cmd ((h.addr - 0x10000000) / 64) (fun e => e.regs (h.addr % 64)) id
/-- A packet delivered to this node (R219): registers that only answer, and what no endpoint serves. -/
def State.localDelivery (s : State) (p : Nat) (pkt : Packet) : State :=
  let h := pkt.hdr
  if h.ownRow then s
  else if h.dstEp = 0xFD && (h.opcode == 0x01 || h.opcode == 0x02) then s.plainFd p pkt
  else if h.dstEp = 0xFE && (h.opcode == 0x01 || h.opcode == 0x02) then
    let src := Src.fabric p h
    let m := h.addr / 0x4000
    s.mbAccess src m (.transitForward p pkt) (fun s => (leNat (s.mbBytes src m (h.addr % 0x4000) h.msgLen), s))
  else (s.consume p h).refuse p 65 h .badArg none

/-! Transit (R217, R218, R223 to R226, R228, R232). -/

/-- The node that a packet is next for, and the packet with `VIA_V` cleared once it has passed its intermediate (R224). -/
def State.target (s : State) (pkt : Packet) : Nat × Packet :=
  if pkt.hdr.viaV && pkt.hdr.viaNode != s.node then (pkt.hdr.viaNode, pkt)
  else (pkt.hdr.dstNode, { pkt with hdr := { pkt.hdr with viaV := false } })
/-- A packet that has no route: discarded, counted, and its request answered (R225). -/
def State.unrouted (s : State) (p : Nat) (h : Hdr) : State :=
  (s.updNet (fun n => { n with noRoute := n.noRoute + 1 })).refuse p 65 h .routeNone none
/-- The port that takes a packet on towards node `tgt`, and the packet as it goes out there; none without a route (R223 to R226). -/
def State.onward (s : State) (p tgt : Nat) (pkt : Packet) : Option (Nat × Packet) × State :=
  let h := pkt.hdr
  if h.hops = 15 then (none, s)
  else
    let iod := some (portIod p)
    let s := if h.ordered && h.repin then s.unpin iod h.flow else s
    let (out, s) := if h.ordered then s.pinnedPort 64 iod h.flow tgt none else (s.leastLoaded (s.usablePorts 64 tgt), s)
    (out.map (fun q =>
      let h := { h with hops := h.hops + 1 }
      (q, { pkt with hdr := { h with vc := (s.port q).input h } })), s)
/-- A whole packet forwarded towards node `tgt`. -/
def State.forwardPacket (s : State) (p tgt : Nat) (pkt : Packet) : State :=
  match s.onward p tgt pkt with
  | (some (q, out), s) => s.egress q 64 out
  | (none, s) => s.unrouted p pkt.hdr
/-- Whether a packet is still being received on a port (R211). -/
def State.coming (s : State) (p : Nat) (pkt : Packet) : Bool :=
  let l := (s.port p).link
  decide (p < 96) && l.rx.any (fun r => r.1 == pkt) && !(l.inbox ++ l.earlier).any (fun q => q.hdr == pkt.hdr)
/-- A transit packet whose header has arrived goes on as soon as it may: its copy waits at the egress and follows the units that come
in (R211). What is delivered here, copied to a flock, malformed or without a route waits for its last unit (DESIGN CHOICE, log 51). -/
def State.cutThrough (s : State) (p : Nat) (pkt : Packet) : State :=
  let l := (s.port p).link
  let (tgt, out) := s.target pkt
  if !l.rxOut.isEmpty || l.inHeader || pkt.hdr.malformed || s.node = 0xFFFF || !(s.port p).admOk || pkt.hdr.dstEp = 0xFF || tgt = s.node
      || s.boot.stage != 8 then s
  else
    match s.onward p tgt out with
    | (some (q, out), t) => (t.egress q 64 out).updLink p (fun l => { l with rxOut := [(q, out)] })
    | (none, _) => s
/-- A packet that arrives on port `p` (R211): left in the buffer behind earlier ones, forwarded on its header; once it is whole discarded
when malformed (R217) or when its port or the unset node id does not carry it (R180, R218), replicated when its destination is a
flock, delivered here, or forwarded from READY on (R357). -/
def State.transit (s : State) (p : Nat) (pkt : Packet) : State :=
  let h := pkt.hdr
  if s.behind p h then s
  else if s.coming p pkt then s.cutThrough p pkt
  else if h.malformed then
    ((s.consume p h).updNet (fun n => { n with malformed := n.malformed + 1 })).refuseBad p h (s.claimOf 0 h.ctxTag)
  else if s.node = 0xFFFF then if s.mbHears p h then s.localDelivery p pkt else s.consume p h
  else if p < 96 && !(s.port p).admOk then
    if h.dstEp = 0xFE && h.dstNode = s.node then s.localDelivery p pkt else s.consume p h
  else if h.dstEp = 0xFF then (s.consume p h).multicast p 64 pkt
  else
    let (tgt, out) := s.target pkt
    if tgt = s.node then s.localDelivery p pkt
    else if s.boot.stage != 8 then s.consume p h
    else (s.consume p h).forwardPacket p tgt out
/-- TRANSIT_FORWARD. -/
def execTransitForward (p : Nat) (pkt : Packet) (s : State) : Host.Outcome State Fault Refusal := settled (s.transit p pkt)
/-- MC_WR (R234, R235). -/
def execMcWr (p : Nat) (h : Hdr) (data : List Byte) (s : State) : Host.Outcome State Fault Refusal :=
  settled (s.transit p { hdr := h, data })
/-- CTX_ENDED (R324): counted and discarded. -/
def execCtxEnded (p : Nat) (h : Hdr) (_oldTag _newTag _inc _time : Nat) (s : State) : Host.Outcome State Fault Refusal :=
  settled (s.arrive p h (fun s => (s.consume p h).updNet (fun n => { n with ctxEnded := n.ctxEnded + 1 })))

/-! Packets that waited: for a tracker or for a transaction (R69, R231). -/

/-- The command of a packet that waited in its receive buffer is carried out again. -/
def State.rerun (s : State) (i : Instr) : State :=
  let out := match i with
    | .rdShared p h a => execRdShared p h a s
    | .rdOwn p h a => execRdOwn p h a s
    | .upgrade p h a => execUpgrade p h a s
    | .rdUncached p h => execRdUncached p h s
    | .cleanEvict p h a l => execCleanEvict p h a l s
    | .wrBack p h a d => execWrBack p h a d s
    | .wrThru p h a m d => execWrThru p h a m d s
    | .wrUncached p h d => execWrUncached p h d s
    | .wrStash p h t o d => execWrStash p h t o d s
    | .atomic p h o w l => execAtomic p h o w l s
    | .publish p h t g v w => execPublish p h t g v w s
    | .collWr p h st r c d => execCollWr p h st r c d s
    | .fabricDoorbell p h q v => execFabricDoorbell p h q v s
    | .dbRejectsRead src q => execDbRejectsRead src q s
    | .eqCiWrite src e v => execEqCiWrite src e v s
    | .eqDroppedRead src e => execEqDroppedRead src e s
    | .mbLockRead src m => execMbLockRead src m s
    | .mbLockWrite src m v => execMbLockWrite src m v s
    | .mbDoorbellWrite src m v => execMbDoorbellWrite src m v s
    | .mbRequestWrite src m o d => execMbRequestWrite src m o d s
    | .mbRejectsRead src m => execMbRejectsRead src m s
    | .transitForward p pkt => execTransitForward p pkt s
    | _ => .next s
  match out with
  | .next t => t
  | _ => s
/-- The first of some waiting packets that a hub's free transactions let go on (R69). -/
def State.takeFirst (s : State) (hub : Nat) : List Instr → State
  | [] => s
  | i :: r =>
    let t := (s.updCoh (fun c => { c with stalled := c.stalled.erase (hub, i) })).rerun i
    if t.coh.stalled.any (fun x => x.2 == i) then s.takeFirst hub r else t
/-- TRANSACTION_TAKE (R69, R228): the oldest packet that waits for a hub's transactions and can go on now does. -/
def execTransactionTake (hub : Nat) (s : State) : Host.Outcome State Fault Refusal :=
  settled (s.takeFirst hub ((s.coh.stalled.filter (fun x => x.1 == hub)).map (·.2)))
/-- MESSAGE_TRACKER_TAKE (R231): waiting first packets of an I/O die, in arrival order, take the trackers that are free. -/
def execMessageTrackerTake (iod : Nat) (s : State) : Host.Outcome State Fault Refusal :=
  let wait := s.net.msgWait.filter (fun w => w.1 == iod)
  settled (wait.foldl (fun s w => s.rerun w.2) (s.updNet (fun n => { n with msgWait := n.msgWait.filter (fun w => w.1 != iod) })))
/-- MSG_TIMEOUT (R231): the message, whose tracker is one of the I/O die, is closed, its bytes stay written, and its request is
answered. -/
def execMsgTimeout (iod : Nat) (key : MsgKey) (s : State) : Host.Outcome State Fault Refusal :=
  settled (match (s.msg? key).filter (fun x => x.iod == iod) with
    | none => s
    | some x =>
      let left := x.hdr.msgLen - x.got
      let s := (s.dropMsg key).updNet (fun n => { n with closed := if left = 0 then n.closed else n.closed ++ [(key, left)] })
      s.refuse x.port 65 x.hdr .timeout (s.claimOf 0 x.hdr.ctxTag))
/-- PIN_IDLE (R226). -/
def execPinIdle (iod : Nat) (key : FlowKey) (s : State) : Host.Outcome State Fault Refusal := settled (s.unpin (some iod) key)

end Sys2Proof.Machine
end

