-- ==== Sys2Proof/Machine/Dispatch.lean ====
section
/-! DEFINITION. The effect of each command: one arm per command. -/

namespace Sys2Proof.Machine

/-- The effect of a command on everything but the queue. -/
def exec (i : Instr) (s : State) : Host.Outcome State Fault Refusal :=
  match i with
  | .discover m => Sys2Proof.Machine.execDiscover m s
  | .partitionCreate m blk => Sys2Proof.Machine.execPartitionCreate m blk s
  | .partitionResize m blk => Sys2Proof.Machine.execPartitionResize m blk s
  | .partitionQuery m part => Sys2Proof.Machine.execPartitionQuery m part s
  | .partitionDestroy m part => Sys2Proof.Machine.execPartitionDestroy m part s
  | .partitionReset m part => Sys2Proof.Machine.execPartitionReset m part s
  | .partitionResetDone part => Sys2Proof.Machine.execPartitionResetDone part s
  | .partEqSet m part eq => Sys2Proof.Machine.execPartEqSet m part eq s
  | .fmEqSet m eq vec => Sys2Proof.Machine.execFmEqSet m eq vec s
  | .bounceSet m part base len => Sys2Proof.Machine.execBounceSet m part base len s
  | .ctxCreate m r => Sys2Proof.Machine.execCtxCreate m r s
  | .ctxTeardown m tag => Sys2Proof.Machine.execCtxTeardown m tag s
  | .teardownComplete ctx => Sys2Proof.Machine.execTeardownComplete ctx s
  | .quarantineExpiry ctx => Sys2Proof.Machine.execQuarantineExpiry ctx s
  | .ctxRevive m tag => Sys2Proof.Machine.execCtxRevive m tag s
  | .ctxDestroy m tag => Sys2Proof.Machine.execCtxDestroy m tag s
  | .ctxTableRead m tag cva level first => Sys2Proof.Machine.execCtxTableRead m tag cva level first s
  | .rankTableSet m tag first entries => Sys2Proof.Machine.execRankTableSet m tag first entries s
  | .resolveFault m fid action => Sys2Proof.Machine.execResolveFault m fid action s
  | .faultQuery m fid => Sys2Proof.Machine.execFaultQuery m fid s
  | .regionCreate m r => Sys2Proof.Machine.execRegionCreate m r s
  | .regionQuery m rid => Sys2Proof.Machine.execRegionQuery m rid s
  | .regionDestroy m rid => Sys2Proof.Machine.execRegionDestroy m rid s
  | .regionDrainDone rid => Sys2Proof.Machine.execRegionDrainDone rid s
  | .chunkZeroed chunk => Sys2Proof.Machine.execChunkZeroed chunk s
  | .regionPublish m target staging v w => Sys2Proof.Machine.execRegionPublish m target staging v w s
  | .publicationHead target => Sys2Proof.Machine.execPublicationHead target s
  | .publicationSwap target => Sys2Proof.Machine.execPublicationSwap target s
  | .writeHoldClear rid => Sys2Proof.Machine.execWriteHoldClear rid s
  | .regionMap m tag cva rid off len rd wr => Sys2Proof.Machine.execRegionMap m tag cva rid off len rd wr s
  | .mapZero m tag cva len => Sys2Proof.Machine.execMapZero m tag cva len s
  | .regionUnmap m tag cva len mode => Sys2Proof.Machine.execRegionUnmap m tag cva len mode s
  | .unmapDrainDone ctx cva => Sys2Proof.Machine.execUnmapDrainDone ctx cva s
  | .unmapWaitTimeout ctx cva => Sys2Proof.Machine.execUnmapWaitTimeout ctx cva s
  | .queueCreate m r => Sys2Proof.Machine.execQueueCreate m r s
  | .queueDestroy m q => Sys2Proof.Machine.execQueueDestroy m q s
  | .queueEnable m q => Sys2Proof.Machine.execQueueEnable m q s
  | .queueDisable m q => Sys2Proof.Machine.execQueueDisable m q s
  | .queueReset m q => Sys2Proof.Machine.execQueueReset m q s
  | .queueQuery m q => Sys2Proof.Machine.execQueueQuery m q s
  | .queueSetWatchdog m q period action => Sys2Proof.Machine.execQueueSetWatchdog m q period action s
  | .queueSamples m q => Sys2Proof.Machine.execQueueSamples m q s
  | .eqCreate m r => Sys2Proof.Machine.execEqCreate m r s
  | .eqDestroy m eq => Sys2Proof.Machine.execEqDestroy m eq s
  | .memSlotSet m g first entries => Sys2Proof.Machine.execMemSlotSet m g first entries s
  | .memSlotCommit m mask => Sys2Proof.Machine.execMemSlotCommit m mask s
  | .memSlotQuery m g copy => Sys2Proof.Machine.execMemSlotQuery m g copy s
  | .shaperAlloc m part word => Sys2Proof.Machine.execShaperAlloc m part word s
  | .shaperFree m sh => Sys2Proof.Machine.execShaperFree m sh s
  | .shaperSet m sh word => Sys2Proof.Machine.execShaperSet m sh word s
  | .shaperAttach m q sh => Sys2Proof.Machine.execShaperAttach m q sh s
  | .portDedicate m port part => Sys2Proof.Machine.execPortDedicate m port part s
  | .collCreate m r => Sys2Proof.Machine.execCollCreate m r s
  | .collDestroy m tag cid => Sys2Proof.Machine.execCollDestroy m tag cid s
  | .collQuery m tag cid first => Sys2Proof.Machine.execCollQuery m tag cid first s
  | .engineWdSet m mask period => Sys2Proof.Machine.execEngineWdSet m mask period s
  | .engineReset m kind num => Sys2Proof.Machine.execEngineReset m kind num s
  | .cohAgentAdd m agent node ep => Sys2Proof.Machine.execCohAgentAdd m agent node ep s
  | .cohAgentRemove m agent => Sys2Proof.Machine.execCohAgentRemove m agent s
  | .cohLeaseSet m lease interval => Sys2Proof.Machine.execCohLeaseSet m lease interval s
  | .cohDirConfig m frac => Sys2Proof.Machine.execCohDirConfig m frac s
  | .cohDirRead m hub first count => Sys2Proof.Machine.execCohDirRead m hub first count s
  | .cohStats m hub => Sys2Proof.Machine.execCohStats m hub s
  | .mirrorPairSet m r => Sys2Proof.Machine.execMirrorPairSet m r s
  | .mirrorUnpair m => Sys2Proof.Machine.execMirrorUnpair m s
  | .mirrorBreak m => Sys2Proof.Machine.execMirrorBreak m s
  | .mirrorQuery m => Sys2Proof.Machine.execMirrorQuery m s
  | .portQuery m mask => Sys2Proof.Machine.execPortQuery m mask s
  | .portSetModes m mask rates widths => Sys2Proof.Machine.execPortSetModes m mask rates widths s
  | .portTrain m mask full => Sys2Proof.Machine.execPortTrain m mask full s
  | .portDisable m mask => Sys2Proof.Machine.execPortDisable m mask s
  | .portAdmit m mask => Sys2Proof.Machine.execPortAdmit m mask s
  | .portMarkAbsent m mask => Sys2Proof.Machine.execPortMarkAbsent m mask s
  | .portSetPower m mask pl2 t1 t2 => Sys2Proof.Machine.execPortSetPower m mask pl2 t1 t2 s
  | .portSetLink m mask word => Sys2Proof.Machine.execPortSetLink m mask word s
  | .portLinkStats m mask clear => Sys2Proof.Machine.execPortLinkStats m mask clear s
  | .nodeConfig m word => Sys2Proof.Machine.execNodeConfig m word s
  | .routeSet m first entries => Sys2Proof.Machine.execRouteSet m first entries s
  | .vsetSet m set nodes => Sys2Proof.Machine.execVsetSet m set nodes s
  | .routeUnpin m node => Sys2Proof.Machine.execRouteUnpin m node s
  | .flockSet m flock entry => Sys2Proof.Machine.execFlockSet m flock entry s
  | .routeQuery m kind first count => Sys2Proof.Machine.execRouteQuery m kind first count s
  | .mbAclSet m mbx pairs direct => Sys2Proof.Machine.execMbAclSet m mbx pairs direct s
  | .memSchedSet m g word => Sys2Proof.Machine.execMemSchedSet m g word s
  | .memConfigQuery m g => Sys2Proof.Machine.execMemConfigQuery m g s
  | .memAddrDecode m ppa => Sys2Proof.Machine.execMemAddrDecode m ppa s
  | .memPcSnapshot m u => Sys2Proof.Machine.execMemPcSnapshot m u s
  | .memPcUnfreeze m u => Sys2Proof.Machine.execMemPcUnfreeze m u s
  | .memPcSpare m u mode => Sys2Proof.Machine.execMemPcSpare m u mode s
  | .spareCopyDone u => Sys2Proof.Machine.execSpareCopyDone u s
  | .memUnitMarkAbsent m kind num sid => Sys2Proof.Machine.execMemUnitMarkAbsent m kind num sid s
  | .memScrubSet m word => Sys2Proof.Machine.execMemScrubSet m word s
  | .memRetirePage m ppa => Sys2Proof.Machine.execMemRetirePage m ppa s
  | .retireCopyDone ppa => Sys2Proof.Machine.execRetireCopyDone ppa s
  | .memRetireBank m u sid bg bank mode => Sys2Proof.Machine.execMemRetireBank m u sid bg bank mode s
  | .bankSpareDone u => Sys2Proof.Machine.execBankSpareDone u s
  | .memRetireQuery m first => Sys2Proof.Machine.execMemRetireQuery m first s
  | .memRetireClear m idx => Sys2Proof.Machine.execMemRetireClear m idx s
  | .logRead m hub first count => Sys2Proof.Machine.execLogRead m hub first count s
  | .dumpRead m off len => Sys2Proof.Machine.execDumpRead m off len s
  | .chipReset m kind renumber => Sys2Proof.Machine.execChipReset m kind renumber s
  | .resetDelayExpiry => Sys2Proof.Machine.execResetDelayExpiry s
  | .powerLimitSet m watts mhz => Sys2Proof.Machine.execPowerLimitSet m watts mhz s
  | .timeSteer m step rate => Sys2Proof.Machine.execTimeSteer m step rate s
  | .timeStepAbsorbed => Sys2Proof.Machine.execTimeStepAbsorbed s
  | .bootQuery m => Sys2Proof.Machine.execBootQuery m s
  | .bootProceed m => Sys2Proof.Machine.execBootProceed m s
  | .topoExpectSet m store t => Sys2Proof.Machine.execTopoExpectSet m store t s
  | .topoExpectQuery m => Sys2Proof.Machine.execTopoExpectQuery m s
  | .bootServe m r => Sys2Proof.Machine.execBootServe m r s
  | .bootServeSend sid => Sys2Proof.Machine.execBootServeSend sid s
  | .bootServeQuery m sid => Sys2Proof.Machine.execBootServeQuery m sid s
  | .bootServeStop m sid => Sys2Proof.Machine.execBootServeStop m sid s
  | .fwQuery m => Sys2Proof.Machine.execFwQuery m s
  | .fwWrite m off data => Sys2Proof.Machine.execFwWrite m off data s
  | .fwCommit m len => Sys2Proof.Machine.execFwCommit m len s
  | .fwSvnRaise m => Sys2Proof.Machine.execFwSvnRaise m s
  | .testFlipArm m u mask => Sys2Proof.Machine.execTestFlipArm m u mask s
  | .testFlipDisarm m => Sys2Proof.Machine.execTestFlipDisarm m s
  | .testPortInject m port kind count => Sys2Proof.Machine.execTestPortInject m port kind count s
  | .mbLockRead src mbx => Sys2Proof.Machine.execMbLockRead src mbx s
  | .mbLockWrite src mbx val => Sys2Proof.Machine.execMbLockWrite src mbx val s
  | .mbDoorbellWrite src mbx val => Sys2Proof.Machine.execMbDoorbellWrite src mbx val s
  | .mbRequestWrite src mbx off data => Sys2Proof.Machine.execMbRequestWrite src mbx off data s
  | .mbRejectsRead src mbx => Sys2Proof.Machine.execMbRejectsRead src mbx s
  | .mbHolderTimeout mbx => Sys2Proof.Machine.execMbHolderTimeout mbx s
  | .mbCommandStart mbx => Sys2Proof.Machine.execMbCommandStart mbx s
  | .mbCommandEnd mbx => Sys2Proof.Machine.execMbCommandEnd mbx s
  | .dbPiWrite fn q val => Sys2Proof.Machine.execDbPiWrite fn q val s
  | .fabricDoorbell p h q val => Sys2Proof.Machine.execFabricDoorbell p h q val s
  | .dbRejectsRead src q => Sys2Proof.Machine.execDbRejectsRead src q s
  | .eqCiWrite src eq val => Sys2Proof.Machine.execEqCiWrite src eq val s
  | .eqDroppedRead src eq => Sys2Proof.Machine.execEqDroppedRead src eq s
  | .timeBaseLowRead fn => Sys2Proof.Machine.execTimeBaseLowRead fn s
  | .registerWriteDiscard fn bar off val => Sys2Proof.Machine.execRegisterWriteDiscard fn bar off val s
  | .descriptorAdmit q => Sys2Proof.Machine.execDescriptorAdmit q s
  | .heldQueueRetry part => Sys2Proof.Machine.execHeldQueueRetry part s
  | .shaperWheelVisit q => Sys2Proof.Machine.execShaperWheelVisit q s
  | .descriptorStart q ix => Sys2Proof.Machine.execDescriptorStart q ix s
  | .segmentDone q ix => Sys2Proof.Machine.execSegmentDone q ix s
  | .descriptorComplete q ix => Sys2Proof.Machine.execDescriptorComplete q ix s
  | .copy q ix => Sys2Proof.Machine.execCopy q ix s
  | .tile2d q ix => Sys2Proof.Machine.execTile2d q ix s
  | .tile3d q ix => Sys2Proof.Machine.execTile3d q ix s
  | .gather q ix => Sys2Proof.Machine.execGather q ix s
  | .scatter q ix => Sys2Proof.Machine.execScatter q ix s
  | .fill q ix => Sys2Proof.Machine.execFill q ix s
  | .operator q ix => Sys2Proof.Machine.execOperator q ix s
  | .fence q ix => Sys2Proof.Machine.execFence q ix s
  | .event q ix => Sys2Proof.Machine.execEvent q ix s
  | .advise q ix => Sys2Proof.Machine.execAdvise q ix s
  | .migrate q ix => Sys2Proof.Machine.execMigrate q ix s
  | .migrateChunkDone rid => Sys2Proof.Machine.execMigrateChunkDone rid s
  | .collContrib q ix => Sys2Proof.Machine.execCollContrib q ix s
  | .nop q ix => Sys2Proof.Machine.execNop q ix s
  | .reduceN q ix => Sys2Proof.Machine.execReduceN q ix s
  | .gatherRows q ix => Sys2Proof.Machine.execGatherRows q ix s
  | .scatterRows q ix => Sys2Proof.Machine.execScatterRows q ix s
  | .kvSelect q ix => Sys2Proof.Machine.execKvSelect q ix s
  | .ckptDelta q ix => Sys2Proof.Machine.execCkptDelta q ix s
  | .ckptRestore q ix => Sys2Proof.Machine.execCkptRestore q ix s
  | .convert q ix => Sys2Proof.Machine.execConvert q ix s
  | .ssbPack q ix => Sys2Proof.Machine.execSsbPack q ix s
  | .ssbUnpack q ix => Sys2Proof.Machine.execSsbUnpack q ix s
  | .fillPattern q ix => Sys2Proof.Machine.execFillPattern q ix s
  | .faultWindowExpiry hub slot => Sys2Proof.Machine.execFaultWindowExpiry hub slot s
  | .faultTimeout hub slot => Sys2Proof.Machine.execFaultTimeout hub slot s
  | .faultEntryTake hub => Sys2Proof.Machine.execFaultEntryTake hub s
  | .publish p h target staging v w => Sys2Proof.Machine.execPublish p h target staging v w s
  | .collWr p h step rank chunk data => Sys2Proof.Machine.execCollWr p h step rank chunk data s
  | .collStepTimeout ctx cid => Sys2Proof.Machine.execCollStepTimeout ctx cid s
  | .mcWr p h data => Sys2Proof.Machine.execMcWr p h data s
  | .ctxEnded p h oldTag newTag inc time => Sys2Proof.Machine.execCtxEnded p h oldTag newTag inc time s
  | .rdData p h status data => Sys2Proof.Machine.execRdData p h status data s
  | .cmp p h status result => Sys2Proof.Machine.execCmp p h status result s
  | .transitForward p pkt => Sys2Proof.Machine.execTransitForward p pkt s
  | .messageTrackerTake iod => Sys2Proof.Machine.execMessageTrackerTake iod s
  | .msgTimeout iod key => Sys2Proof.Machine.execMsgTimeout iod key s
  | .pinIdle iod key => Sys2Proof.Machine.execPinIdle iod key s
  | .rdShared p h agent => Sys2Proof.Machine.execRdShared p h agent s
  | .rdOwn p h agent => Sys2Proof.Machine.execRdOwn p h agent s
  | .upgrade p h agent => Sys2Proof.Machine.execUpgrade p h agent s
  | .rdUncached p h => Sys2Proof.Machine.execRdUncached p h s
  | .cleanEvict p h agent left => Sys2Proof.Machine.execCleanEvict p h agent left s
  | .wrBack p h agent data => Sys2Proof.Machine.execWrBack p h agent data s
  | .wrThru p h agent mask data => Sys2Proof.Machine.execWrThru p h agent mask data s
  | .wrUncached p h data => Sys2Proof.Machine.execWrUncached p h data s
  | .wrStash p h target offer data => Sys2Proof.Machine.execWrStash p h target offer data s
  | .atomic p h op width operands => Sys2Proof.Machine.execAtomic p h op width operands s
  | .invAck p h txn => Sys2Proof.Machine.execInvAck p h txn s
  | .snpRsp p h txn before data => Sys2Proof.Machine.execSnpRsp p h txn before data s
  | .fwdDone p h txn left => Sys2Proof.Machine.execFwdDone p h txn left s
  | .stashRsp p h txn answer => Sys2Proof.Machine.execStashRsp p h txn answer s
  | .stashOfferTimeout txn => Sys2Proof.Machine.execStashOfferTimeout txn s
  | .transactionTake hub => Sys2Proof.Machine.execTransactionTake hub s
  | .holdRelease granule => Sys2Proof.Machine.execHoldRelease granule s
  | .leaseBeat p h agent seq time join => Sys2Proof.Machine.execLeaseBeat p h agent seq time join s
  | .leaseExpiry agent => Sys2Proof.Machine.execLeaseExpiry agent s
  | .reclaimSweepCircle hub => Sys2Proof.Machine.execReclaimSweepCircle hub s
  | .flitReceive p f => Sys2Proof.Machine.execFlitReceive p f s
  | .initFlit p grants version rx => Sys2Proof.Machine.execInitFlit p grants version rx s
  | .linkInitTimeout p => Sys2Proof.Machine.execLinkInitTimeout p s
  | .flitSlot p => Sys2Proof.Machine.execFlitSlot p s
  | .burstLimitExpiry p => Sys2Proof.Machine.execBurstLimitExpiry p s
  | .replayTimerExpiry p => Sys2Proof.Machine.execReplayTimerExpiry p s
  | .replayExpiryLimit p => Sys2Proof.Machine.execReplayExpiryLimit p s
  | .ackTimerExpiry p => Sys2Proof.Machine.execAckTimerExpiry p s
  | .creditReturnDue p => Sys2Proof.Machine.execCreditReturnDue p s
  | .linkLossTimeout p => Sys2Proof.Machine.execLinkLossTimeout p s
  | .laneSignalLoss p lane => Sys2Proof.Machine.execLaneSignalLoss p lane s
  | .fecLockLoss p => Sys2Proof.Machine.execFecLockLoss p s
  | .uncorrectableBurst p => Sys2Proof.Machine.execUncorrectableBurst p s
  | .signalDetect p => Sys2Proof.Machine.execSignalDetect p s
  | .noSignalTimeout p => Sys2Proof.Machine.execNoSignalTimeout p s
  | .laneLock p lanes => Sys2Proof.Machine.execLaneLock p lanes s
  | .capabilityBlock p blk => Sys2Proof.Machine.execCapabilityBlock p blk s
  | .exchangeTimeout p => Sys2Proof.Machine.execExchangeTimeout p s
  | .savedRecordLockTimeout p => Sys2Proof.Machine.execSavedRecordLockTimeout p s
  | .equalisationDone p lanes => Sys2Proof.Machine.execEqualisationDone p lanes s
  | .trainingRetryTimer p => Sys2Proof.Machine.execTrainingRetryTimer p s
  | .pl1EntryTimer p => Sys2Proof.Machine.execPl1EntryTimer p s
  | .pl2Timer p => Sys2Proof.Machine.execPl2Timer p s
  | .lpReq p => Sys2Proof.Machine.execLpReq p s
  | .lpAck p => Sys2Proof.Machine.execLpAck p s
  | .lpNak p => Sys2Proof.Machine.execLpNak p s
  | .pl2Wake p => Sys2Proof.Machine.execPl2Wake p s
  | .pl2WakeTimeout p => Sys2Proof.Machine.execPl2WakeTimeout p s
  | .recordFlashCopy => Sys2Proof.Machine.execRecordFlashCopy s
  | .memSlotTick g => Sys2Proof.Machine.execMemSlotTick g s
  | .slotTableWrap => Sys2Proof.Machine.execSlotTableWrap s
  | .refreshTick u => Sys2Proof.Machine.execRefreshTick u s
  | .ddr5RefreshTick dc rank => Sys2Proof.Machine.execDdr5RefreshTick dc rank s
  | .refreshWindowStart u => Sys2Proof.Machine.execRefreshWindowStart u s
  | .temperatureBandChange u hot => Sys2Proof.Machine.execTemperatureBandChange u hot s
  | .sectorReadDecode u ppa => Sys2Proof.Machine.execSectorReadDecode u ppa s
  | .caParityError u ppa => Sys2Proof.Machine.execCaParityError u ppa s
  | .lockLost u ppa => Sys2Proof.Machine.execLockLost u ppa s
  | .kettleTimeout sector => Sys2Proof.Machine.execKettleTimeout sector s
  | .strainerTick u => Sys2Proof.Machine.execStrainerTick u s
  | .capInitChunkDone chunk => Sys2Proof.Machine.execCapInitChunkDone chunk s
  | .sheepdogExpiry q => Sys2Proof.Machine.execSheepdogExpiry q s
  | .engineWdExpiry e => Sys2Proof.Machine.execEngineWdExpiry e s
  | .engineSelfResetDone e ok => Sys2Proof.Machine.execEngineSelfResetDone e ok s
  | .mpcWatchdogKick => Sys2Proof.Machine.execMpcWatchdogKick s
  | .mpcWdExpiry state => Sys2Proof.Machine.execMpcWdExpiry state s
  | .mpcRestartDone => Sys2Proof.Machine.execMpcRestartDone s
  | .eqModTimeExpiry eq => Sys2Proof.Machine.execEqModTimeExpiry eq s
  | .queueSampleTick => Sys2Proof.Machine.execQueueSampleTick s
  | .powerAverageTick watts => Sys2Proof.Machine.execPowerAverageTick watts s
  | .throttleNAssert => Sys2Proof.Machine.execThrottleNAssert s
  | .throttleNDeassert => Sys2Proof.Machine.execThrottleNDeassert s
  | .thermalThrottle unit temp => Sys2Proof.Machine.execThermalThrottle unit temp s
  | .thermalTrip sensor => Sys2Proof.Machine.execThermalTrip sensor s
  | .railFault rail => Sys2Proof.Machine.execRailFault rail s
  | .aonRailFault => Sys2Proof.Machine.execAonRailFault s
  | .regulatorNack hub => Sys2Proof.Machine.execRegulatorNack hub s
  | .engineClockGate e => Sys2Proof.Machine.execEngineClockGate e s
  | .enginePowerGate e => Sys2Proof.Machine.execEnginePowerGate e s
  | .pcPowerDown u => Sys2Proof.Machine.execPcPowerDown u s
  | .selfRefreshEntry u => Sys2Proof.Machine.execSelfRefreshEntry u s
  | .unitWake u => Sys2Proof.Machine.execUnitWake u s
  | .standbyEntry => Sys2Proof.Machine.execStandbyEntry s
  | .standbyWake => Sys2Proof.Machine.execStandbyWake s
  | .powerOn => Sys2Proof.Machine.execPowerOn s
  | .sysRstNAssert => Sys2Proof.Machine.execSysRstNAssert s
  | .sysRstNRelease straps => Sys2Proof.Machine.execSysRstNRelease straps s
  | .bringUpStageDone r => Sys2Proof.Machine.execBringUpStageDone r s
  | .topoWaitExpiry => Sys2Proof.Machine.execTopoWaitExpiry s
  | .berWindowEnd p => Sys2Proof.Machine.execBerWindowEnd p s
  | .perstN => Sys2Proof.Machine.execPerstN s
  | .vfFlr vf => Sys2Proof.Machine.execVfFlr vf s
  | .pfFlr => Sys2Proof.Machine.execPfFlr s
  | .tapInstructionLoad ir => Sys2Proof.Machine.execTapInstructionLoad ir s
  | .tapReset => Sys2Proof.Machine.execTapReset s
  | .mirBeatTick => Sys2Proof.Machine.execMirBeatTick s
  | .mirBeat p payload => Sys2Proof.Machine.execMirBeat p payload s
  | .hbxBeat payload crc => Sys2Proof.Machine.execHbxBeat payload crc s
  | .pathSilent path => Sys2Proof.Machine.execPathSilent path s
  | .pairFence => Sys2Proof.Machine.execPairFence s
  | .pairTakeover => Sys2Proof.Machine.execPairTakeover s
  | .mirFwd p h publish data => Sys2Proof.Machine.execMirFwd p h publish data s
  | .mirAck p h status => Sys2Proof.Machine.execMirAck p h status s
  | .mirSync p h data => Sys2Proof.Machine.execMirSync p h data s
  | .resyncDone => Sys2Proof.Machine.execResyncDone s
  | .getVersion fn => Sys2Proof.Machine.execGetVersion fn s
  | .getCapabilities fn => Sys2Proof.Machine.execGetCapabilities fn s
  | .negotiateAlgorithms fn => Sys2Proof.Machine.execNegotiateAlgorithms fn s
  | .getDigests fn => Sys2Proof.Machine.execGetDigests fn s
  | .getCertificate fn slot off len => Sys2Proof.Machine.execGetCertificate fn slot off len s
  | .challenge fn nonce => Sys2Proof.Machine.execChallenge fn nonce s
  | .getMeasurements fn index nonce => Sys2Proof.Machine.execGetMeasurements fn index nonce s
  | .keyExchange fn share => Sys2Proof.Machine.execKeyExchange fn share s
  | .finish fn sess mac => Sys2Proof.Machine.execFinish fn sess mac s
  | .keyUpdate fn sess dir => Sys2Proof.Machine.execKeyUpdate fn sess dir s
  | .heartbeat fn sess => Sys2Proof.Machine.execHeartbeat fn sess s
  | .endSession fn sess => Sys2Proof.Machine.execEndSession fn sess s
  | .sealedRecord part seq kind body tag => Sys2Proof.Machine.execSealedRecord part seq kind body tag s
  | .reclaimSweepTick hub => Sys2Proof.Machine.execReclaimSweepTick hub s
  | .resyncCursorAdvance => Sys2Proof.Machine.execResyncCursorAdvance s
  | .claimFlashCopy => Sys2Proof.Machine.execClaimFlashCopy s
  | .retireFlashCopy => Sys2Proof.Machine.execRetireFlashCopy s

end Sys2Proof.Machine
end

