-- ==== Sys2Proof/Machine/Step.lean ====
section
/-! DEFINITION. One step of the block: the command at the front of the queue, or 1 ns of `CLK_AON` time (R286, R397). -/

namespace Sys2Proof.Machine

/-- One step: the front command acts on the state with the rest of the queue; with no command waiting, 1 ns passes (log 21). -/
def step (s : State) : Host.Outcome State Fault Refusal :=
  match s.pending with
  | [] => .next s.idleStep
  | c :: rest => Sys2Proof.Machine.exec c { s with pending := rest }

/-- The command that a word spells goes to the front of the queue; the table gives no row bits, so no word spells one. -/
def State.withFetchWord (s : State) (nbits w : Nat) : State :=
  match Sys2Proof.decodeTableWord nbits w with
  | some c => { s with pending := c :: s.pending }
  | none => s

end Sys2Proof.Machine
end

