-- ==== Sys2Proof/WellFormed.lean ====
section
/-! DEFINITION. Well-formed commands: every operand fits the field, register or pin that carries it (R216, R366, R372 and the
tables of each command). The meaning of a command does not rest on it: a value that fits its field and is out of range has the
status that the command's rule gives. -/

namespace Sys2Proof

/-- Whether every value fits its width in bits. -/
def fits (l : List (Nat × Nat)) : Bool := l.all (fun x => decide (x.1 < 2 ^ x.2))
/-- Whether a mailbox exists, 0 to 64 (R366), and every value fits. -/
def ofMb (m : Nat) (l : List (Nat × Nat)) : Bool := decide (m ≤ 64) && fits l
/-- A packet header whose fields fit Table 09-1. -/
def Hdr.wf (h : Hdr) : Bool :=
  fits [(h.addr, 64), (h.incClaim, 32), (h.dstNode, 16), (h.dstEp, 8), (h.srcNode, 16), (h.srcEp, 8), (h.ctxTag, 16),
    (h.viaNode, 16), (h.tag, 16), (h.msgLen, 28), (h.opcode, 8), (h.pad, 4), (h.vc, 3), (h.tc, 3), (h.hops, 4)]
  && decide (h.length ≤ 256)
/-- A packet whose header is well-formed and whose payload has the length it states. -/
def Packet.wf (k : Packet) : Bool := k.hdr.wf && decide (k.data.length ≤ 4096)
/-- A unit of a flit brings a well-formed packet, or payload of one within its 256 units. -/
def LUnit.wf : LUnit → Bool
  | .head p => p.wf
  | .second p => p.wf
  | .payload p k => p.wf && decide (k < 256)
  | .raw _ => true
/-- A flit's header fields fit Table 08-1, and it has at most 15 units. -/
def Flit.wf (f : Flit) : Bool :=
  fits [(f.typ, 2), (f.seq, 12), (f.ackSeq, 12), (f.stompAt, 4), (f.crAVc, 3), (f.crACnt, 11), (f.crBVc, 3), (f.crBCnt, 11)]
  && decide (f.units.length ≤ 15) && f.units.all LUnit.wf
/-- A source of an access: one of the 65 PCIe functions, or a packet of a port. -/
def Src.wf : Src → Bool
  | .func f => decide (f ≤ 64)
  | .fabric p h => decide (p ≤ 96) && h.wf
/-- A flow key (R224). -/
def FlowKey.wf (k : FlowKey) : Bool := fits [(k.srcNode, 16), (k.srcEp, 8), (k.dstNode, 16), (k.tc, 3)]
/-- A message key (R230). -/
def MsgKey.wf (k : MsgKey) : Bool := fits [(k.srcNode, 16), (k.srcEp, 8), (k.ctxTag, 16), (k.tag, 16), (k.opcode, 8)]
/-- The fields of a `CtxReq` body fit (R372). -/
def CtxReq.wf (r : CtxReq) : Bool :=
  fits [(r.part, 8), (r.mode, 8), (r.eq, 16), (r.mirror, 8), (r.window, 32), (r.timeout, 32)]
/-- The fields of a `RegionReq` body fit (R372). -/
def RegionReq.wf (r : RegionReq) : Bool :=
  fits [(r.part, 8), (r.tier, 8), (r.policy, 8), (r.mirror, 8), (r.stkMask, 16), (r.qtrMask, 8), (r.dcMask, 16),
    (r.grain, 8), (r.xorHash, 8), (r.size, 32), (r.version, 64)]
/-- The fields of a `QueueReq` body fit (R372). -/
def QueueReq.wf (r : QueueReq) : Bool :=
  fits [(r.q, 16), (r.tag, 16), (r.log2, 32), (r.ring, 64), (r.comp, 64), (r.eq, 16), (r.mode, 8)]
/-- The fields of a `EqReq` body fit (R372). -/
def EqReq.wf (r : EqReq) : Bool :=
  fits [(r.eq, 16), (r.log2, 32), (r.ring, 64), (r.notify, 8), (r.vector, 32), (r.node, 16), (r.ep, 8),
    (r.addr, 64), (r.tc, 8), (r.modCount, 32), (r.modTime, 32)]
/-- The fields of a `CollReq` body fit (R372). -/
def CollReq.wf (r : CollReq) : Bool :=
  fits [(r.tag, 16), (r.cid, 32), (r.n, 32), (r.op, 8), (r.inFmt, 8), (r.inScaled, 8), (r.outFmt, 8),
    (r.outScaled, 8), (r.round, 8), (r.ovf, 8), (r.seed, 32), (r.chunkElems, 32), (r.chunks, 32), (r.accum, 8),
    (r.result, 64), (r.status, 64), (r.deliver, 8), (r.flock, 16), (r.tc, 8), (r.addr, 64), (r.eq, 16),
    (r.timeout, 32)]
/-- The fields of a `MirrorReq` body fit (R372). -/
def MirrorReq.wf (r : MirrorReq) : Bool :=
  fits [(r.set, 16), (r.partner, 16), (r.ports, 128), (r.role, 8), (r.claim, 32), (r.rate, 32)]
/-- The fields of a `ServeReq` body fit (R372). -/
def ServeReq.wf (r : ServeReq) : Bool :=
  fits [(r.handle, 64), (r.len, 64), (r.flock, 16), (r.addr, 64), (r.tc, 8), (r.rounds, 16), (r.rate, 32)]
/-- An expected topology has no more than 255 neighbour entries, and at most 96 port entries. -/
def TopoExpect.wf (t : TopoExpect) : Bool := decide (t.ports.length ≤ 96) && decide (t.neighbours.length ≤ 255)
/-- A DIMM's description fits its fields. -/
def Dimm.wf (d : Dimm) : Bool :=
  fits [(d.dc, 4), (d.slot, 1), (d.gib, 16), (d.ranks, 8), (d.bg, 8), (d.ba, 8), (d.cols, 8), (d.serial, 64), (d.kind, 8),
    (d.speed, 16), (d.width, 8), (d.height, 8)]
/-- A report of a stage: its DIMMs are well-formed, the serials are those of stacks, and the interfaces with a failed record are
stacks and DDR5 channels. -/
def StageReport.wf (r : StageReport) : Bool :=
  r.dimms.all Dimm.wf && r.serials.all (fun x => fits [(x.1, 4), (x.2, 64)]) && r.unverified.all (fun u => fits [(u, 16)])

/-- A well-formed command. -/
def Instr.wf : Instr → Bool
  | .discover m => ofMb m []
  | .partitionCreate m _ => ofMb m []
  | .partitionResize m _ => ofMb m []
  | .partitionQuery m part => ofMb m [(part, 8)]
  | .partitionDestroy m part => ofMb m [(part, 8)]
  | .partitionReset m part => ofMb m [(part, 8)]
  | .partitionResetDone part => fits [(part, 8)]
  | .partEqSet m part eq => ofMb m [(part, 8), (eq, 16)]
  | .fmEqSet m eq vec => ofMb m [(eq, 16), (vec, 16)]
  | .bounceSet m part base len => ofMb m [(part, 8), (base, 64), (len, 64)]
  | .ctxCreate m r => ofMb m [] && r.wf
  | .ctxTeardown m tag => ofMb m [(tag, 16)]
  | .teardownComplete ctx => fits [(ctx, 12)]
  | .quarantineExpiry ctx => fits [(ctx, 12)]
  | .ctxRevive m tag => ofMb m [(tag, 16)]
  | .ctxDestroy m tag => ofMb m [(tag, 16)]
  | .ctxTableRead m tag cva level first => ofMb m [(tag, 16), (cva, 64), (level, 32), (first, 32)]
  | .rankTableSet m tag first entries => ofMb m [(tag, 16), (first, 32)] && entries.all (fun x => decide (x < 2 ^ 32))
  | .resolveFault m fid action => ofMb m [(fid, 32), (action, 8)]
  | .faultQuery m fid => ofMb m [(fid, 32)]
  | .regionCreate m r => ofMb m [] && r.wf
  | .regionQuery m rid => ofMb m [(rid, 32)]
  | .regionDestroy m rid => ofMb m [(rid, 32)]
  | .regionDrainDone rid => fits [(rid, 32)]
  | .chunkZeroed chunk => fits [(chunk, 32)]
  | .regionPublish m target staging v w => ofMb m [(target, 32), (staging, 32), (v, 64), (w, 64)]
  | .publicationHead target => fits [(target, 32)]
  | .publicationSwap target => fits [(target, 32)]
  | .writeHoldClear rid => fits [(rid, 32)]
  | .regionMap m tag cva rid off len rd wr =>
    ofMb m [(tag, 16), (cva, 64), (rid, 32), (off, 64), (len, 64), (rd, 8), (wr, 8)]
  | .mapZero m tag cva len => ofMb m [(tag, 16), (cva, 64), (len, 64)]
  | .regionUnmap m tag cva len mode => ofMb m [(tag, 16), (cva, 64), (len, 64), (mode, 8)]
  | .unmapDrainDone ctx cva => fits [(ctx, 12), (cva, 64)]
  | .unmapWaitTimeout ctx cva => fits [(ctx, 12), (cva, 64)]
  | .queueCreate m r => ofMb m [] && r.wf
  | .queueDestroy m q => ofMb m [(q, 16)]
  | .queueEnable m q => ofMb m [(q, 16)]
  | .queueDisable m q => ofMb m [(q, 16)]
  | .queueReset m q => ofMb m [(q, 16)]
  | .queueQuery m q => ofMb m [(q, 16)]
  | .queueSetWatchdog m q period action => ofMb m [(q, 16), (period, 32), (action, 8)]
  | .queueSamples m q => ofMb m [(q, 16)]
  | .eqCreate m r => ofMb m [] && r.wf
  | .eqDestroy m eq => ofMb m [(eq, 16)]
  | .memSlotSet m g first entries => ofMb m [(g, 32), (first, 32)] && entries.all (fun x => decide (x < 2 ^ 8))
  | .memSlotCommit m mask => ofMb m [(mask, 64)]
  | .memSlotQuery m g which => ofMb m [(g, 32), (which, 8)]
  | .shaperAlloc m part _ => ofMb m [(part, 8)]
  | .shaperFree m sh => ofMb m [(sh, 32)]
  | .shaperSet m sh _ => ofMb m [(sh, 32)]
  | .shaperAttach m q sh => ofMb m [(q, 16), (sh, 32)]
  | .portDedicate m port part => ofMb m [(port, 8), (part, 8)]
  | .collCreate m r => ofMb m [] && r.wf
  | .collDestroy m tag cid => ofMb m [(tag, 16), (cid, 32)]
  | .collQuery m tag cid first => ofMb m [(tag, 16), (cid, 32), (first, 32)]
  | .engineWdSet m mask period => ofMb m [(mask, 128), (period, 32)]
  | .engineReset m kind num => ofMb m [(kind, 8), (num, 32)]
  | .cohAgentAdd m agent node ep => ofMb m [(agent, 16), (node, 16), (ep, 8)]
  | .cohAgentRemove m agent => ofMb m [(agent, 16)]
  | .cohLeaseSet m lease interval => ofMb m [(lease, 32), (interval, 32)]
  | .cohDirConfig m frac => ofMb m [(frac, 8)]
  | .cohDirRead m hub first count => ofMb m [(hub, 32), (first, 32), (count, 32)]
  | .cohStats m hub => ofMb m [(hub, 32)]
  | .mirrorPairSet m r => ofMb m [] && r.wf
  | .mirrorUnpair m => ofMb m []
  | .mirrorBreak m => ofMb m []
  | .mirrorQuery m => ofMb m []
  | .portQuery m mask => ofMb m [(mask, 128)]
  | .portSetModes m mask rates widths => ofMb m [(mask, 128), (rates, 8), (widths, 8)]
  | .portTrain m mask full => ofMb m [(mask, 128), (full, 8)]
  | .portDisable m mask => ofMb m [(mask, 128)]
  | .portAdmit m mask => ofMb m [(mask, 128)]
  | .portMarkAbsent m mask => ofMb m [(mask, 128)]
  | .portSetPower m mask pl2 t1 t2 => ofMb m [(mask, 128), (pl2, 8), (t1, 32), (t2, 32)]
  | .portSetLink m mask _ => ofMb m [(mask, 128)]
  | .portLinkStats m mask clear => ofMb m [(mask, 128), (clear, 8)]
  | .nodeConfig m _ => ofMb m []
  | .routeSet m first entries => ofMb m [(first, 16)] && entries.all (fun x => decide (x < 2 ^ 64))
  | .vsetSet m set nodes => ofMb m [(set, 8)] && nodes.all (fun x => decide (x < 2 ^ 16))
  | .routeUnpin m node => ofMb m [(node, 16)]
  | .flockSet m flock _ => ofMb m [(flock, 16)]
  | .routeQuery m kind first count => ofMb m [(kind, 8), (first, 32), (count, 32)]
  | .mbAclSet m mbx pairs direct => ofMb m [(mbx, 32), (direct, 8)] && pairs.all (fun x => fits [(x.1, 16), (x.2, 8)])
  | .memSchedSet m g _ => ofMb m [(g, 32)]
  | .memConfigQuery m g => ofMb m [(g, 32)]
  | .memAddrDecode m ppa => ofMb m [(ppa, 64)]
  | .memPcSnapshot m u => ofMb m [(u, 16)]
  | .memPcUnfreeze m u => ofMb m [(u, 16)]
  | .memPcSpare m u mode => ofMb m [(u, 16), (mode, 8)]
  | .spareCopyDone u => fits [(u, 16)]
  | .memUnitMarkAbsent m kind num sid => ofMb m [(kind, 8), (num, 32), (sid, 8)]
  | .memScrubSet m _ => ofMb m []
  | .memRetirePage m ppa => ofMb m [(ppa, 64)]
  | .retireCopyDone ppa => fits [(ppa, 64)]
  | .memRetireBank m u sid bg bank mode => ofMb m [(u, 16), (sid, 8), (bg, 8), (bank, 8), (mode, 8)]
  | .bankSpareDone u => fits [(u, 16)]
  | .memRetireQuery m first => ofMb m [(first, 32)]
  | .memRetireClear m idx => ofMb m [(idx, 32)]
  | .logRead m hub first count => ofMb m [(hub, 32), (first, 32), (count, 32)]
  | .dumpRead m off len => ofMb m [(off, 32), (len, 32)]
  | .chipReset m kind renumber => ofMb m [(kind, 8), (renumber, 8)]
  | .resetDelayExpiry => true
  | .powerLimitSet m watts mhz => ofMb m [(watts, 16), (mhz, 16)]
  | .timeSteer m step rate =>
    ofMb m [] && decide (-(2 ^ 63 : Int) ≤ step ∧ step < (2 ^ 63 : Int))
    && decide (-(2 ^ 31 : Int) ≤ rate ∧ rate < (2 ^ 31 : Int))
  | .timeStepAbsorbed => true
  | .bootQuery m => ofMb m []
  | .bootProceed m => ofMb m []
  | .topoExpectSet m store t => ofMb m [(store, 8)] && t.wf
  | .topoExpectQuery m => ofMb m []
  | .bootServe m r => ofMb m [] && r.wf
  | .bootServeSend sid => fits [(sid, 32)]
  | .bootServeQuery m sid => ofMb m [(sid, 32)]
  | .bootServeStop m sid => ofMb m [(sid, 32)]
  | .fwQuery m => ofMb m []
  | .fwWrite m off data => ofMb m [(off, 32)] && decide (data.length ≤ 4096)
  | .fwCommit m len => ofMb m [(len, 32)]
  | .fwSvnRaise m => ofMb m []
  | .testFlipArm m u mask => ofMb m [(u, 16), (mask, 576)]
  | .testFlipDisarm m => ofMb m []
  | .testPortInject m port kind count => ofMb m [(port, 8), (kind, 8), (count, 32)]
  | .mbLockRead src mbx => fits [(mbx, 32)] && src.wf
  | .mbLockWrite src mbx val => fits [(mbx, 32), (val, 64)] && src.wf
  | .mbDoorbellWrite src mbx val => fits [(mbx, 32), (val, 64)] && src.wf
  | .mbRequestWrite src mbx off data => fits [(mbx, 32), (off, 64)] && src.wf && decide (data.length ≤ 4096)
  | .mbRejectsRead src mbx => fits [(mbx, 32)] && src.wf
  | .mbHolderTimeout mbx => fits [(mbx, 32)]
  | .mbCommandStart mbx => fits [(mbx, 32)]
  | .mbCommandEnd mbx => fits [(mbx, 32)]
  | .dbPiWrite fn q val => fits [(fn, 16), (q, 16), (val, 64)]
  | .fabricDoorbell p h q val => fits [(q, 16), (val, 64)] && decide (p ≤ 96) && h.wf
  | .dbRejectsRead src q => fits [(q, 16)] && src.wf
  | .eqCiWrite src eq val => fits [(eq, 16), (val, 64)] && src.wf
  | .eqDroppedRead src eq => fits [(eq, 16)] && src.wf
  | .timeBaseLowRead fn => fits [(fn, 16)]
  | .registerWriteDiscard fn bar off val => fits [(fn, 16), (bar, 8), (off, 64), (val, 64)]
  | .descriptorAdmit q => fits [(q, 16)]
  | .heldQueueRetry part => fits [(part, 8)]
  | .shaperWheelVisit q => fits [(q, 16)]
  | .descriptorStart q i => fits [(q, 16), (i, 32)]
  | .segmentDone q i => fits [(q, 16), (i, 32)]
  | .descriptorComplete q i => fits [(q, 16), (i, 32)]
  | .copy q i => fits [(q, 16), (i, 32)]
  | .tile2d q i => fits [(q, 16), (i, 32)]
  | .tile3d q i => fits [(q, 16), (i, 32)]
  | .gather q i => fits [(q, 16), (i, 32)]
  | .scatter q i => fits [(q, 16), (i, 32)]
  | .fill q i => fits [(q, 16), (i, 32)]
  | .operator q i => fits [(q, 16), (i, 32)]
  | .fence q i => fits [(q, 16), (i, 32)]
  | .event q i => fits [(q, 16), (i, 32)]
  | .advise q i => fits [(q, 16), (i, 32)]
  | .migrate q i => fits [(q, 16), (i, 32)]
  | .migrateChunkDone rid => fits [(rid, 32)]
  | .collContrib q i => fits [(q, 16), (i, 32)]
  | .nop q i => fits [(q, 16), (i, 32)]
  | .reduceN q i => fits [(q, 16), (i, 32)]
  | .gatherRows q i => fits [(q, 16), (i, 32)]
  | .scatterRows q i => fits [(q, 16), (i, 32)]
  | .kvSelect q i => fits [(q, 16), (i, 32)]
  | .ckptDelta q i => fits [(q, 16), (i, 32)]
  | .ckptRestore q i => fits [(q, 16), (i, 32)]
  | .convert q i => fits [(q, 16), (i, 32)]
  | .ssbPack q i => fits [(q, 16), (i, 32)]
  | .ssbUnpack q i => fits [(q, 16), (i, 32)]
  | .fillPattern q i => fits [(q, 16), (i, 32)]
  | .faultWindowExpiry hub slot => fits [(hub, 32), (slot, 32)]
  | .faultTimeout hub slot => fits [(hub, 32), (slot, 32)]
  | .faultEntryTake hub => fits [(hub, 32)]
  | .publish p h target staging v w => fits [(target, 64), (staging, 64), (v, 64), (w, 64)] && decide (p ≤ 96) && h.wf
  | .collWr p h step rank chunk data =>
    fits [(step, 32), (rank, 16), (chunk, 32)] && decide (p ≤ 96) && h.wf && decide (data.length ≤ 4096)
  | .collStepTimeout ctx cid => fits [(ctx, 12), (cid, 32)]
  | .mcWr p h data => decide (p ≤ 96) && h.wf && decide (data.length ≤ 4096)
  | .ctxEnded p h oldTag newTag inc time =>
    fits [(oldTag, 16), (newTag, 16), (inc, 32), (time, 64)] && decide (p ≤ 96) && h.wf
  | .rdData p h status data => fits [(status, 16)] && decide (p ≤ 96) && h.wf && decide (data.length ≤ 4096)
  | .cmp p h status result => fits [(status, 16), (result, 64)] && decide (p ≤ 96) && h.wf
  | .transitForward p pkt => decide (p ≤ 96) && pkt.wf
  | .messageTrackerTake iod => fits [(iod, 2)]
  | .msgTimeout iod key => fits [(iod, 2)] && key.wf
  | .pinIdle iod key => fits [(iod, 2)] && key.wf
  | .rdShared p h agent => fits [(agent, 16)] && decide (p ≤ 96) && h.wf
  | .rdOwn p h agent => fits [(agent, 16)] && decide (p ≤ 96) && h.wf
  | .upgrade p h agent => fits [(agent, 16)] && decide (p ≤ 96) && h.wf
  | .rdUncached p h => decide (p ≤ 96) && h.wf
  | .cleanEvict p h agent left => fits [(agent, 16), (left, 8)] && decide (p ≤ 96) && h.wf
  | .wrBack p h agent data => fits [(agent, 16)] && decide (p ≤ 96) && h.wf && decide (data.length ≤ 4096)
  | .wrThru p h agent mask data => fits [(agent, 16), (mask, 128)] && decide (p ≤ 96) && h.wf && decide (data.length ≤ 4096)
  | .wrUncached p h data => decide (p ≤ 96) && h.wf && decide (data.length ≤ 4096)
  | .wrStash p h target offer data =>
    fits [(target, 64), (offer, 8)] && decide (p ≤ 96) && h.wf && decide (data.length ≤ 4096)
  | .atomic p h op _ operands => fits [(op, 8)] && decide (p ≤ 96) && h.wf && operands.all (fun x => decide (x < 2 ^ 128))
  | .invAck p h txn => fits [(txn, 32)] && decide (p ≤ 96) && h.wf
  | .snpRsp p h txn before data => fits [(txn, 32), (before, 8)] && decide (p ≤ 96) && h.wf && decide (data.length ≤ 4096)
  | .fwdDone p h txn left => fits [(txn, 32), (left, 8)] && decide (p ≤ 96) && h.wf
  | .stashRsp p h txn answer => fits [(txn, 32), (answer, 8)] && decide (p ≤ 96) && h.wf
  | .stashOfferTimeout txn => fits [(txn, 32)]
  | .transactionTake hub => fits [(hub, 32)]
  | .holdRelease granule => fits [(granule, 64)]
  | .leaseBeat p h agent seq time join => fits [(agent, 16), (seq, 64), (time, 64), (join, 32)] && decide (p ≤ 96) && h.wf
  | .leaseExpiry agent => fits [(agent, 16)]
  | .reclaimSweepCircle hub => fits [(hub, 32)]
  | .flitReceive p f => decide (p ≤ 96) && f.wf
  | .initFlit p grants version rx =>
    fits [(version, 8), (rx, 16)] && decide (p ≤ 96) && grants.all (fun x => decide (x < 2 ^ 16))
  | .linkInitTimeout p => decide (p ≤ 96)
  | .flitSlot p => decide (p ≤ 96)
  | .burstLimitExpiry p => decide (p ≤ 96)
  | .replayTimerExpiry p => decide (p ≤ 96)
  | .replayExpiryLimit p => decide (p ≤ 96)
  | .ackTimerExpiry p => decide (p ≤ 96)
  | .creditReturnDue p => decide (p ≤ 96)
  | .linkLossTimeout p => decide (p ≤ 96)
  | .laneSignalLoss p lane => fits [(lane, 2)] && decide (p ≤ 96)
  | .fecLockLoss p => decide (p ≤ 96)
  | .uncorrectableBurst p => decide (p ≤ 96)
  | .signalDetect p => decide (p ≤ 96)
  | .noSignalTimeout p => decide (p ≤ 96)
  | .laneLock p lanes => fits [(lanes, 4)] && decide (p ≤ 96)
  | .capabilityBlock p _ => decide (p ≤ 96)
  | .exchangeTimeout p => decide (p ≤ 96)
  | .savedRecordLockTimeout p => decide (p ≤ 96)
  | .equalisationDone p lanes => fits [(lanes, 4)] && decide (p ≤ 96)
  | .trainingRetryTimer p => decide (p ≤ 96)
  | .pl1EntryTimer p => decide (p ≤ 96)
  | .pl2Timer p => decide (p ≤ 96)
  | .lpReq p => decide (p ≤ 96)
  | .lpAck p => decide (p ≤ 96)
  | .lpNak p => decide (p ≤ 96)
  | .pl2Wake p => decide (p ≤ 96)
  | .pl2WakeTimeout p => decide (p ≤ 96)
  | .recordFlashCopy => true
  | .memSlotTick g => fits [(g, 32)]
  | .slotTableWrap => true
  | .refreshTick u => fits [(u, 16)]
  | .ddr5RefreshTick dc rank => fits [(dc, 8), (rank, 16)]
  | .refreshWindowStart u => fits [(u, 16)]
  | .temperatureBandChange u hot => fits [(u, 16), (hot, 1)]
  | .sectorReadDecode u ppa => fits [(u, 16), (ppa, 64)]
  | .caParityError u ppa => fits [(u, 16), (ppa, 64)]
  | .lockLost u ppa => fits [(u, 16), (ppa, 64)]
  | .kettleTimeout sector => fits [(sector, 64)]
  | .strainerTick u => fits [(u, 16)]
  | .capInitChunkDone chunk => fits [(chunk, 32)]
  | .sheepdogExpiry q => fits [(q, 16)]
  | .engineWdExpiry e => fits [(e, 32)]
  | .engineSelfResetDone e ok => fits [(e, 32), (ok, 1)]
  | .mpcWatchdogKick => true
  | .mpcWdExpiry state => decide (state.length ≤ 2 ^ 32)
  | .mpcRestartDone => true
  | .eqModTimeExpiry eq => fits [(eq, 16)]
  | .queueSampleTick => true
  | .powerAverageTick watts => fits [(watts, 16)]
  | .throttleNAssert => true
  | .throttleNDeassert => true
  | .thermalThrottle unit temp => fits [(unit, 16), (temp, 16)]
  | .thermalTrip sensor => fits [(sensor, 16)]
  | .railFault rail => fits [(rail, 8)]
  | .aonRailFault => true
  | .regulatorNack hub => fits [(hub, 32)]
  | .engineClockGate e => fits [(e, 32)]
  | .enginePowerGate e => fits [(e, 32)]
  | .pcPowerDown u => fits [(u, 16)]
  | .selfRefreshEntry u => fits [(u, 16)]
  | .unitWake u => fits [(u, 16)]
  | .standbyEntry => true
  | .standbyWake => true
  | .powerOn => true
  | .sysRstNAssert => true
  | .sysRstNRelease straps => fits [(straps, 4)]
  | .bringUpStageDone r => r.wf
  | .topoWaitExpiry => true
  | .berWindowEnd p => decide (p ≤ 96)
  | .perstN => true
  | .vfFlr vf => fits [(vf, 8)]
  | .pfFlr => true
  | .tapInstructionLoad ir => fits [(ir, 8)]
  | .tapReset => true
  | .mirBeatTick => true
  | .mirBeat p _ => decide (p ≤ 96)
  | .hbxBeat _ crc => fits [(crc, 32)]
  | .pathSilent path => fits [(path, 1)]
  | .pairFence => true
  | .pairTakeover => true
  | .mirFwd p h pub data => fits [(pub, 1)] && decide (p ≤ 96) && h.wf && decide (data.length ≤ 4096)
  | .mirAck p h status => fits [(status, 16)] && decide (p ≤ 96) && h.wf
  | .mirSync p h data => decide (p ≤ 96) && h.wf && decide (data.length ≤ 4096)
  | .resyncDone => true
  | .getVersion fn => fits [(fn, 16)]
  | .getCapabilities fn => fits [(fn, 16)]
  | .negotiateAlgorithms fn => fits [(fn, 16)]
  | .getDigests fn => fits [(fn, 16)]
  | .getCertificate fn slot off len => fits [(fn, 16), (slot, 32), (off, 64), (len, 32)]
  | .challenge fn nonce => fits [(fn, 16), (nonce, 256)]
  | .getMeasurements fn index nonce => fits [(fn, 16), (index, 8), (nonce, 256)]
  | .keyExchange fn share => fits [(fn, 16), (share, 768)]
  | .finish fn sess mac => fits [(fn, 16), (sess, 32)] && decide (mac.length ≤ 48)
  | .keyUpdate fn sess dir => fits [(fn, 16), (sess, 32), (dir, 1)]
  | .heartbeat fn sess => fits [(fn, 16), (sess, 32)]
  | .endSession fn sess => fits [(fn, 16), (sess, 32)]
  | .sealedRecord part seq kind body tag =>
    fits [(part, 8), (seq, 64), (kind, 8), (tag, 128)] && decide (body.length ≤ 2 ^ 32)
  | .reclaimSweepTick hub => fits [(hub, 32)]
  | .resyncCursorAdvance => true
  | .claimFlashCopy => true
  | .retireFlashCopy => true

end Sys2Proof
end

