-- ==== Sys2Proof/Safety.lean ====
section
/-! DEFINITION. What counts as a safe run, in the terms the claims use. -/

namespace Sys2Proof.Machine

/-- The limits in force are no higher than the fused ones (R1). -/
abbrev FusedLimits (s : State) : Prop := s.power.limitW ≤ s.variant.watts ∧ s.power.limitMhz ≤ s.variant.mhz
/-- Whether mailbox `m` may run a command: its caller is admitted and nothing makes it busy (R373 items 2 and 3). -/
def State.serves (s : State) (m : Nat) (c : Call) : Bool := (firstFail (s.gate m c)).isNone
/-- Whether a packet has its turn: nothing of its channel came before it, it is addressed to this controller over an admitted port,
and it is whole (R180, R217, R228). -/
def State.turn (s : State) (p : Nat) (h : Hdr) : Bool := !s.behind p h && s.heard p h && !h.malformed
/-- Whether an access of a register of endpoint 0xFD is let in (R331, R366, R386): by the function, or by the packet. -/
def State.regOpen (s : State) (src : Src) (host : Nat → Bool) (fab : Hdr → Bool) : Bool :=
  match src with
  | .func n => host n
  | .fabric p h => s.turn p h && !s.flowOpen h s.coh.nextJoin && h.dstEp == 0xFD && ((s.consume p h).regGate h).isNone
    && h.msgLen != 0 && fab h
/-- The state in which an access that is let in takes effect: the packet taken, the value on its way to the reader. -/
def State.regTaken (s : State) (src : Src) (v : Nat) : State :=
  match src with
  | .func _ => { s.rouse with pins := { s.pins with readData := v } }
  | .fabric p h => { s.consume p h with pins := { (s.consume p h).pins with readData := v } }
/-- The answer of an access that was let in: a packet is answered `ST_OK` with the value. -/
def State.regReply (s : State) (src : Src) (v : Nat) : State :=
  match src with
  | .func _ => s
  | .fabric p h => s.answerReg p h .ok v
/-- Whether an access of mailbox `m`'s registers is let in (R365, R366, R386). -/
def State.mbOpen (s : State) (src : Src) (m : Nat) : Bool :=
  match src with
  | .func fn => s.hostMailbox fn m
  | .fabric p h => !s.behind p h && s.mbHears p h && !h.malformed && !s.flowOpen h s.coh.nextJoin && h.dstEp == 0xFE && m ≤ 64
    && s.aclAdmits m p h && h.msgLen != 0
/-- The state in which such an access takes effect. -/
def State.mbBase (s : State) (src : Src) : State :=
  match src with
  | .func _ => s.rouse
  | .fabric p h => s.consume p h
/-- The answer of such an access. -/
def State.mbAnswer (s : State) (src : Src) (v : Nat) : State :=
  match src with
  | .func _ => { s with pins := { s.pins with readData := v } }
  | .fabric p h => State.answerReg { s with pins := { s.pins with readData := v } } p h .ok v
/-- A request that the home takes: it has its turn at endpoint 0x00, and R78, R86 and R331 let it in for context `c`. -/
abbrev State.homeTakes (s : State) (p : Nat) (h : Hdr) (c : Context) : Prop :=
  s.turn p h = true ∧ h.dstEp = 0 ∧ s.homeGate h = none ∧ s.ctxOfTag h.ctxTag = some c
/-- The state in which such a request takes effect: its ordered class belongs to the context (R322 step 8). -/
def State.classed (s : State) (h : Hdr) : State :=
  s.modCtx (tagNum h.ctxTag) (fun c => if h.ordered then { c with classes := addSorted c.classes h.tc } else c)
/-- The first `len` bytes that a request names translate for access `acc` to the pages `ps`: the walk reads its tables and leaves `t`,
and no page faults (R32, R42). -/
abbrev State.translates (s : State) (h : Hdr) (c : Context) (len acc : Nat) (t : State) (ps : List (Nat × Nat × Trans)) : Prop :=
  s.walkPages c h.ctxTag (rangePages h.addr len) = (.ok, t) ∧ t.pagesOf c h.addr len acc = ps ∧ firstFault ps = none
/-- A response answers the snoop `o` of the open transaction `t`: its tag is outstanding, the agent and its kind are those awaited
(R69, R229). -/
abbrev State.answersSnoop (s : State) (p : Nat) (h : Hdr) (txn : Nat) (ks : List AwaitKind) (o : OwnMsg) (t : Txn) : Prop :=
  s.turn p h = true
    ∧ (s.consume p h).net.own.find? (fun o => o.node == h.srcNode && o.tag == h.tag && o.snoop.any (fun x => x.1 == txn)) = some o
    ∧ (s.consume p h).coh.txns.find? (fun t => t.id == txn) = some t ∧ ks.contains (snoopKind o.opcode) = true
    ∧ ((s.consume p h).agent? ((o.snoop.map (·.2)).getD 0)).any (fun x => x.ep == h.srcEp) = true
    ∧ t.await.contains ((o.snoop.map (·.2)).getD 0, snoopKind o.opcode) = true
/-- The state after such an answer: the packet and the snoop's tag are gone, its await entry is closed. -/
def State.snoopAnswered (s : State) (p : Nat) (h : Hdr) (txn : Nat) (o : OwnMsg) : State :=
  ((s.consume p h).closeOwn (fun x => x == o)).modTxn txn (fun t => { t with
    await := t.await.erase ((o.snoop.map (·.2)).getD 0, snoopKind o.opcode) })
/-- A packet of the mirror pair: it has its turn, on a pair port, from the partner (R344, R349). -/
abbrev State.fromPair (s : State) (p : Nat) (h : Hdr) : Prop :=
  s.turn p h = true ∧ (s.consume p h).pairPorts.contains p = true ∧ h.srcNode = (s.consume p h).mirror.partner
    ∧ (s.consume p h).mirror.role ≠ .unpaired
/-- Descriptor `i` of queue `q`, of type `typ`, is started and has not issued its work. -/
abbrev State.running (s : State) (q i typ : Nat) (d : Desc) (u : Queue) : Prop :=
  s.desc? q (BitVec.ofNat 32 i) = some d ∧ s.queue? q = some u ∧ d.phase = .started ∧ d.moved = false ∧ d.typ = typ
    ∧ s.power.tapTest = false
/-- What the check of `GATHER`'s and `SCATTER`'s index list leaves with the descriptor: its first position out of bounds, and the
status of its read (R102). -/
def State.bounded (s : State) (d : Desc) (xs : List (Option Nat × Bool × Bool)) (st : Status) : State :=
  s.modDesc d.q d.i (fun d => { d with
    oob := (xs.zipIdx.find? (fun x => x.1.2.2)).map (·.2), status := worse d.status st })
/-- The moves `ms` of a descriptor have a segment `x` that may move: its granules are clear, its reads are served, every remote rank
has a route; moving it gives status `st` and state `v` (R103, R112). -/
abbrev State.segmentMoves (s : State) (d : Desc) (part : Nat) (ms : List Move) (x : SegRun) (st : Status) (v : State) : Prop :=
  d.segRuns.find? (fun y => !y.landed) = some x
    ∧ (s.keysReady d.runs (moveKeys (x.cut ms)).1 (moveKeys (x.cut ms)).2).1 = true
    ∧ ((s.keysReady d.runs (moveKeys (x.cut ms)).1 (moveKeys (x.cut ms)).2).2.ask d part x (moveKeys (x.cut ms)).1).readsQueued d
      = false
    ∧ ((s.keysReady d.runs (moveKeys (x.cut ms)).1 (moveKeys (x.cut ms)).2).2.ask d part x (moveKeys (x.cut ms)).1).moveAll d
      part (x.cut ms) = (true, st, v)
/-- A step that stops, and why: no rule of the spec stops the controller, so a safe run never does. -/
def Stops (s : State) : Prop := ∀ t, step s ≠ .next t

end Sys2Proof.Machine
end

