-- ==== Sys2Proof/Certificates/Slice0/Obligations.lean ====
section
/-! DEFINITION. The statements for the provers. A command's own effect is written out in full, and the end of every command
(`State.settle`: home requests that waited, posted events and their notifications) follows it, so a field that a record
update does not name is left as it was. `State.serves` says that the mailbox may run the command (R373 items 2 and 3). -/

open Sys2Proof Sys2Proof.Machine

/-! The queue, the steps, reset and the end of a command. -/

/-- A step with a command in front runs that command on the state with the rest of the queue. -/
def Obligations.StepRunsFrontCommand : Prop :=
  ∀ (c : Instr) (s : State), step { s with pending := c :: s.pending } = exec c s

/-- On an empty queue 1 ns of `CLK_AON` time passes (the model's choice, log 21): the clock ticks, each 64 ns the ports'
waiting counters may count, nothing else changes. -/
def Obligations.IdleStepTicksTheClock : Prop :=
  ∀ s : State, s.pending = [] → ∃ ports, step s = .next { s with clock := s.clock.tick, ports := ports }
    ∧ ((s.clock.aon + 1) % 64 ≠ 0 → ports = s.ports)
    ∧ (∀ p x, s.ports.at? p = some x → ∃ stats, ports.at? p = some { x with stats })
    ∧ (∀ p, s.ports.at? p = none → ports.at? p = none)

/-- Every command is modelled, and none stops: its step answers a next state. -/
def Obligations.EveryCommandAnswersANextState : Prop := ∀ (c : Instr) (s : State), ∃ t, exec c s = .next t

/-- No command looks at the queue or changes it: commands run first in, first out. -/
def Obligations.CommandsLeaveTheQueue : Prop :=
  ∀ (c : Instr) (s t : State), exec c s = .next t → t.pending = s.pending

/-- R1: no command raises the limits in force above the fused ones, and neither does the passing of time. -/
def Obligations.StepKeepsFusedLimits : Prop :=
  ∀ s t : State, FusedLimits s → step s = .next t → FusedLimits t

/-- What the end of a command leaves alone: it delivers, and decides nothing. -/
def Obligations.SettleFrame : Prop :=
  ∀ s : State,
    s.settle.fuses = s.fuses ∧ s.settle.flash = s.flash ∧ s.settle.clock = s.clock ∧ s.settle.boot = s.boot
    ∧ s.settle.ctxs = s.ctxs ∧ s.settle.gens = s.gens ∧ s.settle.quarantine = s.quarantine ∧ s.settle.tables = s.tables
    ∧ s.settle.extents = s.extents ∧ s.settle.chunks = s.chunks ∧ s.settle.pubs = s.pubs ∧ s.settle.queues = s.queues
    ∧ s.settle.descOrder = s.descOrder ∧ s.settle.heldOrder = s.heldOrder
    ∧ s.settle.colls = s.colls ∧ s.settle.shapers = s.shapers ∧ s.settle.wheel = s.wheel ∧ s.settle.mpc = s.mpc
    ∧ s.settle.power = s.power ∧ s.settle.fmEq = s.fmEq ∧ s.settle.mbOrder = s.mbOrder ∧ s.settle.pending = s.pending

/-- Bytes written to a memory are read back, every other byte is left, and the memory stays in canonical form. -/
def Obligations.MemoryReadsBackWrites : Prop :=
  ∀ (m : Memory) (a : Nat) (bs : List Byte), m.wf = true →
    (m.write a bs).wf = true ∧ (m.write a bs).read a bs.length = bs
    ∧ (∀ c, c < a ∨ a + bs.length ≤ c → (m.write a bs).get c = m.get c)
    ∧ (∀ n, (m.clear a n).wf = true ∧ ∀ c, (m.clear a n).get c = if a ≤ c ∧ c < a + n then 0 else m.get c)

/-- A mailbox command that is not served, or that one of its checks refuses, leaves the status and offset of the first check
that applies as its response, and changes nothing else (R373). -/
def Obligations.FirstFailingCheckDecides : Prop :=
  ∀ (s : State) (m : Nat) (c : Call) (checks : List Check) (eff : State → State) (st : Status) (o : Nat),
    firstFail (s.gate m c ++ checks) = some (st, o) →
    s.command m c checks eff = { s with mbs := s.mbs.upd m {} (fun b =>
      { b with result := some { status := st, failOff := o } }) }

/-! Partitions, budgets, slots and shapers. -/

/-- Partition commands take their effect when their checks pass. Rows of R280, R281, R283, R313, R326. Completion of
`partitionCreate`, `partitionResize`, `partitionQuery`, `partitionDestroy`, `partitionReset`, `partitionResetDone`,
`partEqSet`, `fmEqSet`. -/
def Obligations.PartitionCommandsComplete : Prop :=
  ∀ (s : State) (m : Nat),
    (∀ (blk : BitVec 512) (b : Partition), b = { cfg := blk, shaper := { stamp := s.clock.aon } } →
      s.serves m { fm := true } = true → s.blkAbsent b = false → firstFail (s.blkBad b (bfld blk 5 0)) = none →
      s.part? (bfld blk 5 0) = none →
      ∃ key, exec (.partitionCreate m blk) s = .next (State.settle (State.respond
        { s.draw.2 with parts := s.parts.put (bfld blk 5 0) { b.inForce with key := key } } m okResp)))
    ∧ (∀ (blk : BitVec 512) (q : Partition), s.serves m { fm := true } = true → s.blkAbsent { cfg := blk } = false →
      firstFail (s.blkBad { cfg := blk } (bfld blk 5 0)) = none → s.part? (bfld blk 5 0) = some q →
      s.shrinks { cfg := blk } (bfld blk 5 0) = false →
      ((!({ cfg := blk } : Partition).strict || q.strict || !s.strictBreaks (bfld blk 5 0)) = true) →
      exec (.partitionResize m blk) s = .next (State.settle
        ((if q.budgetBytes < ({ cfg := blk } : Partition).budgetBytes || q.budgetDesc < ({ cfg := blk } : Partition).budgetDesc
          then (s.modPart (bfld blk 5 0) (fun q => { q with cfg := blk })).retryHeld (bfld blk 5 0)
          else s.modPart (bfld blk 5 0) (fun q => { q with cfg := blk })).respond m okResp)))
    ∧ (∀ part, part ≤ 63 → s.serves m { own := [some part], query := true } = true →
      exec (.partitionQuery m part) s = .next (State.settle
        (s.respond m (okBody [(64, ((s.part? part).getD noPart).cfg.toNat)]))))
    ∧ (∀ part, part ≤ 63 → s.serves m { fm := true } = true → (s.part? part).isSome = true → s.partHolds part = false →
      ∃ u : State, exec (.partitionDestroy m part) s = .next u.settle ∧ u.part? part = none
        ∧ u.shapers = s.shapers.filter (fun x => x.2.1 != part) ∧ (m, false) ∈ u.pool.commitMbs)
    ∧ (∀ part q, part ≤ 63 → s.serves m { own := [some part] } = true → s.part? part = some q → q.resetting = false →
      (s.standby && s.partMirrored part) = false →
      exec (.partitionReset m part) s = .next (State.settle (s.startReset part (some m))))
    ∧ (∀ part q, s.part? part = some q → q.resetting = true → s.mpc.restarting = false →
      (s.ctxsOf part).any (fun c => c.2.st == .tearing) = false →
      (s.resetObjects part q).resetWaits part (((s.resetObjects part q).part? part).getD q) = false →
      exec (.partitionResetDone part) s = .next (State.settle
        ((s.resetObjects part q).endReset part (((s.resetObjects part q).part? part).getD q))))
    ∧ (∀ part eq e q, part ≤ 63 → s.eq? eq = some e → s.part? part = some q → e.part = part →
      s.serves m { own := [some part, some e.part] } = true →
      exec (.partEqSet m part eq) s = .next (State.settle
        (((s.modPart part (fun p => { p with eq := some eq, unbound := 0 })).carryDrops eq q.unbound).respond m okResp)))
    ∧ (∀ eq vec, vec ≤ 2047 → (s.eq? eq).isSome = true → s.serves m { fm := true } = true →
      exec (.fmEqSet m eq vec) s = .next (State.settle
        ((({ s with fmEq := some (eq, vec), fmUnbound := 0 } : State).carryDrops eq s.fmUnbound).respond m okResp)))

/-- Slot-table commands: a table written stays a shadow until a commit, which ends at the next wrap. Shaper commands, and a
port dedicated to a partition. Rows of R111, R288, R296, R297, R298, R299. Completion of `memSlotSet`, `memSlotCommit`,
`memSlotQuery`, `slotTableWrap`, `shaperAlloc`, `shaperFree`, `shaperSet`, `shaperAttach`, `portDedicate`, `heldQueueRetry`,
`shaperWheelVisit`. -/
def Obligations.SlotTableAndShaperCommandsComplete : Prop :=
  (∀ (s : State) (m : Nat),
      (∀ g first entries, s.serves m { fm := true } = true → g < 64 → s.groupPresent g = true → entries ≠ [] →
        first + entries.length ≤ 1024 → entries.any s.slotBad = false →
        exec (.memSlotSet m g first entries) s = .next (State.settle
          ((s.updGroup g (fun x => { x with shadow := putSlots x.shadow first entries })).respond m okResp)))
      ∧ (∀ mask, s.serves m { fm := true } = true →
        (bitsOf mask 64).any (fun g => !s.groupPresent g) = false →
        (bitsOf mask 64).any (fun g => s.starves s.strict g (s.group g).shadow) = false →
        (bitsOf mask 64).any (fun g => thirdStrict s.strict (s.group g).shadow) = false →
        ∃ u : State, exec (.memSlotCommit m mask) s = .next u.settle ∧ (m, true) ∈ u.pool.commitMbs
          ∧ (∀ g ∈ bitsOf mask 64, (u.group g).commit = true ∧ (u.group g).active = (s.group g).active))
      ∧ (∀ g copy, s.serves m { fm := true, query := true } = true → g < 64 → s.groupPresent g = true → copy ≤ 1 →
        exec (.memSlotQuery m g copy) s = .next (State.settle (s.respond m
          (okBody (recs 1 (slotEntries (if copy = 0 then (s.group g).active else (s.group g).shadow)))))))
      ∧ (exec .slotTableWrap s = .next (State.settle
          (s.pool.commitMbs.foldl (fun s w => s.respond w.1 (if w.2 then okBody [(8, s.now)] else okResp))
            { s with
              parts := s.parts.map (fun p => (p.1, p.2.inForce))
              pool := { s.pool with
                groups := s.pool.groups.map (fun g =>
                  (g.1, if g.2.commit then { g.2 with active := g.2.shadow, commit := false } else g.2))
                commitMbs := [] } }))))
  ∧ (∀ (s : State) (m : Nat),
      (∀ part word, part ≤ 63 → s.serves m { own := [some part] } = true → shaperBad word = false →
        (s.part? part).isSome = true → s.shapers.length < 16384 →
        ∃ u : State, exec (.shaperAlloc m part word) s = .next u.settle
          ∧ (∃ i, i < 16384 ∧ s.shapers.has i = false ∧ u.shapers = s.shapers.put i (part, fullShaper word s.clock.aon)
                ∧ (u.mb m).result = some (okBody [(4, i)])))
      ∧ (∀ sh x, s.shapers.at? sh = some x → s.serves m { own := [some x.1] } = true → s.shaperUsed sh = false →
        exec (.shaperFree m sh) s = .next (State.settle (({ s with shapers := s.shapers.del sh } : State).respond m okResp)))
      ∧ (∀ sh x word, sh < 0xFFFFFF00 → s.shapers.at? sh = some x → s.serves m { own := [some x.1] } = true →
        shaperBad word = false →
        ∃ u : State, exec (.shaperSet m sh word) s = .next u.settle
          ∧ u.shapers = s.shapers.mod sh (fun x => (x.1, x.2.change word s.clock.aon)) ∧ (u.mb m).result = some okResp)
      ∧ (∀ p q word, p ≤ 63 → s.part? p = some q → s.serves m { fm := true } = true → shaperBad word = false →
        exec (.shaperSet m (0xFFFFFF00 + p) word) s = .next (State.settle
          (((s.modPart p (fun q => { q with shaper := q.shaper.change word s.clock.aon })).wheelPart p).respond m okResp)))
      ∧ (∀ q u sh x, s.queue? q = some u → s.shapers.at? sh = some x → x.1 = u.part → sh ≠ 0xFFFFFFFF →
        s.serves m { own := [some u.part, some x.1] } = true →
        exec (.shaperAttach m q sh) s = .next (State.settle
          (((s.modQueue q (fun u => { u with shaper := some sh })).wheelSet q).respond m okResp)))
      ∧ (∀ q u, s.queue? q = some u → s.shapers.at? 0xFFFFFFFF = none → s.serves m { own := [some u.part, none] } = true →
        exec (.shaperAttach m q 0xFFFFFFFF) s = .next (State.settle
          (((s.modQueue q (fun u => { u with shaper := none })).wheelSet q).respond m okResp)))
      ∧ (∀ port part, s.serves m { fm := true } = true → port ≤ 95 → s.portPresent port = true →
        (part = 0xFF ∨ (part ≤ 63 ∧ (s.part? part).isSome = true)) →
        exec (.portDedicate m port part) s = .next (State.settle
          ((s.updPort port (fun p => { p with dedicated := if part = 0xFF then none else some part })).respond m okResp)))
      ∧ (∀ part, exec (.heldQueueRetry part) s = .next (State.settle (s.retryHeld part)))
      ∧ (∀ q t, s.wheel.at? q = some t → exec (.shaperWheelVisit q) s = .next (State.settle ((s.wheelSet q).admitStep q))))

/-! Contexts and teardown. -/

/-- Context commands take their effect when their checks pass. Rows of R221, R284, R285, R321, R322. Completion of
`ctxCreate`, `rankTableSet`, `ctxTeardown`, `ctxRevive`, `ctxDestroy`, `teardownComplete`, `quarantineExpiry`. -/
def Obligations.ContextCommandsComplete : Prop :=
  ∀ (s : State) (m : Nat),
    (∀ (r : CtxReq) (p : Partition) (e : EventQ) (n : Nat) (t : State), s.part? r.part = some p → s.eq? r.eq = some e →
      r.part ≤ 63 → e.part = r.part → s.serves m { own := [some r.part, some e.part], need := 1 } = true → p.ctxQuota ≠ 0 →
      r.mode ≤ 1 → (r.mirror = 0 ∨ (r.mirror = 1 ∧ s.variant.mirror = true ∧ s.standby = false ∧ s.pairWhole = true)) →
      (r.window ≤ 64 ∨ r.window = 0xFFFFFFFF) → ((1 ≤ r.timeout ∧ r.timeout ≤ 60000) ∨ r.timeout = 0xFFFFFFFF) →
      (s.ctxs.filter (fun c => c.2.part == r.part)).length < p.ctxQuota → s.freeCtx = some n →
      s.allocCtx n { part := r.part, mirror := r.mirror == 1, stall := r.mode == 0, eq := r.eq,
                     window := if r.window = 0xFFFFFFFF then 1 else r.window,
                     timeout := if r.timeout = 0xFFFFFFFF then 1000 else r.timeout } = some t →
      exec (.ctxCreate m r) s = .next (t.respond m (okBody [(2, t.tagOf n)])).settle)
    ∧ (∀ tag c first entries, s.ctxOfTag tag = some c → c.st ≠ .tearing → (c.mirror && s.standby) = false →
      s.serves m { own := [some c.part] } = true → 1 ≤ entries.length → entries.length ≤ 1000 →
      first + entries.length ≤ 16384 → entries.any rankBad = false →
      exec (.rankTableSet m tag first entries) s = .next (State.settle
        ((s.modCtx (tagNum tag) (fun c => { c with ranks := putRanks c.ranks first entries })).respond m okResp)))
    ∧ (∀ tag c, s.anyGen tag = some c → s.serves m { own := [some c.part] } = true → (c.mirror && s.standby) = false →
      s.ctxTearing tag = false →
      exec (.ctxTeardown m tag) s = .next (State.settle
        (if s.tagOf (tagNum tag) = tag ∧ c.st = .active then s.startTeardown (tagNum tag) (some m) (m == 0) false
         else s.respond m { status := .okEmpty })))
    ∧ (∀ tag c, s.ctxOfTag tag = some c → s.serves m { own := [some c.part] } = true → (c.mirror && s.standby) = false →
      c.st = .tornDown → s.quarantine.contains (tagNum tag) = false →
      exec (.ctxRevive m tag) s = .next (State.settle
        ((s.modCtx (tagNum tag) (fun c => { c with st := .active })).respond m (okBody [(2, s.tagOf (tagNum tag))]))))
    ∧ (∀ tag c, s.ctxOfTag tag = some c → s.serves m { own := [some c.part] } = true → (c.mirror && s.standby) = false →
      c.st = .active →
      exec (.ctxRevive m tag) s = .next (State.settle
        (s.respond m { status := .okEmpty, body := [(2, s.tagOf (tagNum tag))] })))
    ∧ (∀ tag c, s.ctxOfTag tag = some c → s.serves m { own := [some c.part] } = true → (c.mirror && s.standby) = false →
      c.st ≠ .tearing →
      exec (.ctxDestroy m tag) s = .next (State.settle
        (if c.st = .active then s.startTeardown (tagNum tag) (some m) (m == 0) true
         else (s.dropCtx (tagNum tag)).respond m okResp)))
    ∧ (∀ n c, s.ctx? n = some c → c.st = .tearing → s.mpc.restarting = false → s.tagBusy c.oldTag = false →
      s.descs.any (fun d => (s.ctxQueues n).contains d.q) = false → s.ownOut.any (fun x => x.1.1 == n) = false →
      exec (.teardownComplete n) s = .next (s.endTeardown n c).settle)
    ∧ (∀ n, exec (.quarantineExpiry n) s = .next (State.settle { s with quarantine := dropVal s.quarantine n }))

/-! Event queues and page faults. -/

/-- Event-queue commands, register accesses and the moderation timer. Fault commands and the timers of a fault entry. Rows of
R45, R46, R47, R48, R308, R311, R312, R315. Completion of `eqCreate`, `eqDestroy`, `eqCiWrite`, `eqDroppedRead`,
`eqModTimeExpiry`, `resolveFault`, `faultQuery`, `faultWindowExpiry`, `faultTimeout`, `faultEntryTake`. -/
def Obligations.EventQueueAndFaultCommandsComplete : Prop :=
  (∀ (s : State) (m : Nat),
      (∀ (r : EqReq) (p : Nat) (q : Partition), s.eqOwner m r.eq = some p → s.part? p = some q → s.eq? r.eq = none →
        s.serves m { own := [none], need := 1 } = true → q.eqCount ≠ 0 → q.eqBase ≤ r.eq → r.eq < q.eqBase + q.eqCount →
        4 ≤ r.log2 → r.log2 ≤ 16 → r.ring % (32 * 2 ^ r.log2) = 0 →
        s.handleIn r.ring (32 * 2 ^ r.log2) p (some 0) = true →
        (r.notify = 0 ∨ (r.notify = 1 ∧ r.vector ≤ 31) ∨ (r.notify = 2 ∧ r.tc ≤ 7)) → 1 ≤ r.modCount → r.modCount ≤ 65535 →
        r.modTime ≤ 1000 → (s.standby && (s.region? (r.ring / 2 ^ 44)).any (·.mirror)) = false →
        exec (.eqCreate m r) s = .next (State.settle
          (({ s with eqs := s.eqs.put r.eq (r.toEq p) } : State).zeroRing r.eq (r.toEq p) (some m))))
      ∧ (∀ eq e, s.eq? eq = some e → s.serves m { own := [some e.part] } = true → s.eqNamed eq = false →
        exec (.eqDestroy m eq) s = .next (State.settle (({ s with eqs := s.eqs.del eq } : State).respond m okResp)))
      ∧ (∀ src eq val e, s.eq? eq = some e → s.regOpen src (fun n => s.hostReachesEq n e) (fun h => e.target h) = true →
        exec (.eqCiWrite src eq val) s = .next (State.settle
          (((s.regTaken src e.ci.toNat).eqConsume eq val).regReply src e.ci.toNat))
        ∧ exec (.eqDroppedRead src eq) s = .next (State.settle
          (((s.regTaken src e.dropped).modEq eq (fun e => { e with dropped := 0 })).regReply src e.dropped)))
      ∧ (∀ eq, exec (.eqModTimeExpiry eq) s = .next (s.notifyIf eq true).settle))
  ∧ (∀ (s : State) (m : Nat),
      (∀ fid action e, s.faultOf fid = some e → s.serves m { own := [s.faultPart e] } = true → action ≤ 1 →
        exec (.resolveFault m fid action) s = .next (State.settle
          ((s.closeEntry e (action == 0) .faultAborted).respond m (okBody [(2, sat 16 e.waiters.length)]))))
      ∧ (∀ fid e, s.faultOf fid = some e → s.serves m { own := [s.faultPart e], query := true } = true →
        exec (.faultQuery m fid) s = .next (State.settle (s.respond m (okBody
          [(32, ((faultEv e.id e.tag e.page e.cause e.level e.access true false e.handle e.source e.waiters.length).record
            s.clock.base false).toNat), (4, e.waiters.length), (4, e.dropped)]))))
      ∧ (∀ hub slot e, s.faultAt hub slot = some e → e.written = false →
        exec (.faultWindowExpiry hub slot) s = .next (s.writeFault e).settle)
      ∧ (∀ hub slot e, s.faultAt hub slot = some e →
        exec (.faultTimeout hub slot) s = .next (s.closeEntry e false .faultAborted).settle)
      ∧ (∀ hub e w l, s.faults.waiting.find? (fun e => e.hub == hub) = some e → e.waiters = w :: l →
        (s.faults.entries.any (fun x => x.tag == e.tag && x.page == e.page && x.handle == e.handle)
          || (s.faults.entries.filter (fun x => x.hub == hub)).length < 1024) = true →
        exec (.faultEntryTake hub) s = .next (State.settle
          ((s.updFaults (fun f => { f with waiting := f.waiting.erase e })).stallFault e.tag
            { page := e.page, handle := e.handle, cause := e.cause, level := e.level, access := e.access } w.1 w.2))))

/-! Regions, publication and migration. -/

/-- Region commands take their effect when their checks pass. Rows of R15, R17, R20, R21, R27. Completion of `regionCreate`,
`regionQuery`, `regionDestroy`, `regionDrainDone`, `chunkZeroed`, `writeHoldClear`. -/
def Obligations.RegionCommandsComplete : Prop :=
  ∀ (s : State) (m : Nat),
    (∀ (r : RegionReq) (p : Partition) (rid : Nat), s.part? r.part = some p → s.serves m { need := 1 } = true →
      p.regionQuota ≠ 0 → s.placeAbsent r.pl = false → r.part ≤ 63 → r.tier ≤ 1 → r.policy ≤ 2 →
      (r.mirror = 0 ∨ (r.mirror = 1 ∧ r.policy = 1 ∧ s.variant.mirror = true ∧ s.standby = false ∧ s.pairWhole = true)) →
      r.pl.bad = false → r.grain ≤ 3 → r.xorHash ≤ 1 → r.size = 0 → s.strictBad r.part r.pl = false →
      (m = 0 ∨ m = r.part + 1) → (s.regionsOf r.part).length < p.regionQuota →
      firstFree s.regions.has 1 1048576 s.draw.1 = some rid →
      exec (.regionCreate m r) s = .next (State.settle
        (({ s.draw.2 with regions := s.regions.put rid (s.draw.2.newRegion r 0 0) } : State).respond m
          (okBody [(64, (s.draw.2.newRegion r 0 0).record rid)]))))
    ∧ (∀ (r : RegionReq) (p : Partition) (rid e : Nat) (t : State), s.part? r.part = some p →
      s.serves m { need := 1 } = true → p.regionQuota ≠ 0 → s.placeAbsent r.pl = false → r.part ≤ 63 → r.tier ≤ 1 →
      r.policy ≤ 2 →
      (r.mirror = 0 ∨ (r.mirror = 1 ∧ r.policy = 1 ∧ s.variant.mirror = true ∧ s.standby = false ∧ s.pairWhole = true)) →
      r.pl.bad = false → r.grain ≤ 3 → r.xorHash ≤ 1 → 0 < r.size → r.size < 0xFFFFFFF → s.strictBad r.part r.pl = false →
      (m = 0 ∨ m = r.part + 1) → (s.regionsOf r.part).length < p.regionQuota →
      firstFree s.regions.has 1 1048576 s.draw.1 = some rid → s.draw.2.extentFits r.part r.pl r.size = true →
      s.draw.2.newExtent r.pl r.size r.part = some (e, t) →
      exec (.regionCreate m r) s = .next (State.settle
        (({ t with regions := t.regions.put rid (t.newRegion r e r.size) } : State).respond m
          (okBody [(64, (t.newRegion r e r.size).record rid)]))))
    ∧ (∀ rid r, s.region? rid = some r → s.serves m { own := [some r.part], query := true } = true →
      exec (.regionQuery m rid) s = .next (State.settle (s.respond m (okBody [(64, r.record rid)]))))
    ∧ (∀ rid r p, s.region? rid = some r → s.part? r.part = some p → s.serves m { own := [some r.part] } = true →
      (r.mirror && s.standby) = false → r.st ≠ 2 → r.mapCount = 0 → s.inPub rid = false → s.holdsRing rid = false →
      r.mig = none → s.served rid = false →
      exec (.regionDestroy m rid) s = .next (State.settle
        (if p.zeroing = 0 then (s.modRegion rid (fun r => { r with st := 2, destroyMb := none })).respond m okResp
         else s.modRegion rid (fun r => { r with st := 2, destroyMb := some m }))))
    ∧ (∀ rid r p, s.region? rid = some r → s.part? r.part = some p → r.st = 2 → s.extentUsed r.extent = false →
      s.heldOn rid = false → s.zeroingOf rid = false →
      exec (.regionDrainDone rid) s = .next (State.settle
        (if p.zeroing ≠ 0 ∧ r.extent ≠ 0 then (s.freeExtent r.extent rid).modRegion rid (fun r => { r with extent := 0 })
         else ((s.freeExtent r.extent (if p.zeroing ≠ 0 then rid else 0)).dropRegion rid).respond? r.destroyMb okResp)))
    ∧ (∀ chunk rid t, s.chunks.at? chunk = some (.zeroing rid) →
      (s.unitOf (chunk * 65536)).any (fun u => (s.unit u).frozen.isSome) = false →
      s.recallAll (s.chunkCopies chunk) true = (true, t) →
      ∀ v, v = { t.zeroChunk chunk with chunks := (t.zeroChunk chunk).chunks.del chunk } →
      exec (.chunkZeroed chunk) s = .next (State.settle (
        if rid = 0 ∨ v.zeroingOf rid = true then v
        else match v.region? rid with
          | some r => (v.dropRegion rid).respond? r.destroyMb okResp
          | none => v)))
    ∧ (∀ rid r, s.region? rid = some r → r.writeHold = true → s.holdUsed r = false →
      exec (.writeHoldClear rid) s = .next (State.settle
        (s.modRegion rid (fun r => { r with
          writeHold := false, holdExt := 0, holdDesc := 0, holdReq := 0 }))))

/-- Publication: a request waits in the one order, is checked at its head, and swaps the extents of its two regions when the
staging region has drained. `MIGRATE`: refused, nothing to do, or a copy into a new extent that goes chunk by chunk. Rows of
R25, R26, R54, R55. Completion of `regionPublish`, `publish`, `publicationHead`, `publicationSwap`, `migrate`,
`migrateChunkDone`. -/
def Obligations.PublicationAndMigrationComplete : Prop :=
  (∀ s : State,
      (∀ m target staging v w, s.serves m {} = true →
        (s.standby && ((s.region? target).any (·.mirror) || (s.region? staging).any (·.mirror))) = false →
        exec (.regionPublish m target staging v w) s = .next (State.settle
          { s with pubs := s.pubs ++ [{ target, staging, v := BitVec.ofNat 64 v, w := BitVec.ofNat 64 w,
                                        asker := .mailbox m }] }))
      ∧ (∀ p h c target staging v w, s.homeTakes p h c →
        exec (.publish p h target staging v w) s = .next (State.settle { (s.classed h).consume p h with
          pubs := ((s.classed h).consume p h).pubs ++ [{ target := target / 2 ^ 44, staging := staging / 2 ^ 44
                                                         v := BitVec.ofNat 64 v, w := BitVec.ofNat 64 w,
                                                           asker := .fabric p h }] }))
      ∧ (∀ target b, s.pubs.find? (fun b => b.target == target) = some b → b.headed = false →
        s.pubs.any (fun x => x.headed && (x.target == b.target || x.staging == b.target || x.target == b.staging
          || x.staging == b.staging)) = false →
        exec (.publicationHead target) s = .next (State.settle
          (if s.pubCheck b = .ok then { s with pubs := s.pubs.map (fun x =>
            if x = b then { x with headed := true, headDesc := s.descOrder, headReq := s.coh.nextJoin } else x) }
           else s.endPub b (s.pubCheck b))))
      ∧ (∀ target b t g u, s.pubs.find? (fun b => b.target == target && b.headed && !b.swapped) = some b →
        s.region? b.target = some t → s.region? b.staging = some g → s.pubDrained b g.extent = true →
        (s.pubPaired b t && !s.tagsFree s.mirror.partner 1) = false →
        s.recallAll (s.pubCopies b) true = (true, u) →
        exec (.publicationSwap target) s = .next (State.settle
          (if (u.pubSwap b t g).pubPaired b t = true then
            (State.pubForward { u.pubSwap b t g with
              pubs := (u.pubSwap b t g).pubs.map (fun x => if x = b then { x with swapped := true } else x) } b)
           else ((u.pubSwap b t g).pubRewind b t).endPub b .ok))))
  ∧ (∀ s : State,
      (∀ q i d u st, s.running q i 11 d u → s.migCheck d u.part = some st →
        exec (.migrate q i) s = .next (State.settle
          ((if st = .okEmpty then s.modRegion d.migRegion (fun r => { r with
            pl := d.placement, degraded := s.regionBad { r with pl := d.placement } }) else s).issued d st 0)))
      ∧ (∀ q i d u r e t, s.running q i 11 d u → s.migCheck d u.part = none → s.region? d.migRegion = some r →
        s.extentFits r.part d.placement r.size = true → s.newExtent d.placement r.size r.part = some (e, t) →
        exec (.migrate q i) s = .next (State.settle
          (t.modRegion d.migRegion (fun r => { r with mig := some { pl := d.placement, ext := e, q, i } }))))
      ∧ (∀ rid r g x t, s.region? rid = some r → r.mig = some g → s.extents.at? g.ext = some x →
        s.recallAll (s.granulesOf rid r.extent (g.cursor * 65536) 65536) true = (true, t) →
        ∀ u, u = (t.migChunk rid r x (g.cursor * 65536)).modRegion rid (fun r => { r with
            mig := some { g with cursor := g.cursor + 1 } }) →
          exec (.migrateChunkDone rid) s = .next (State.settle
            (if g.cursor + 1 < r.size then u else u.migEnd rid r { g with cursor := g.cursor + 1 }))))

/-! Mappings. -/

/-- Mapping commands take their effect when their checks pass. Rows of R31, R33, R34, R50, R51, R52. Completion of
`regionMap`, `mapZero`, `regionUnmap`, `unmapDrainDone`, `unmapWaitTimeout`, `ctxTableRead`, `advise`. -/
def Obligations.MappingCommandsComplete : Prop :=
  ∀ (s : State) (m : Nat),
    (∀ tag c cva rid r off len rd wr t, s.ctxOfTag tag = some c → s.region? rid = some r →
      s.serves m { own := [some c.part, some r.part] } = true → cva % 65536 = 0 → off % 65536 = 0 → len % 65536 = 0 →
      0 < len → off + len ≤ r.size * 65536 → cva + len ≤ 2 ^ 52 → s.hasRegionLeaf c cva len = false → rd ≤ 1 → wr ≤ 1 →
      c.mirror = r.mirror → r.part = c.part → s.ctxStandby tag = false → c.st ≠ .tearing → r.st = 1 →
      s.mapRange c (fun o => leafEntry rid o 0 (rd == 1) (wr == 1)) (len / 65536 + 1) cva off len = some t →
      exec (.regionMap m tag cva rid off len rd wr) s = .next (State.settle
        ((if s.maps c rid = true then t.uncache (tagNum tag) cva (cva + len)
          else (t.uncache (tagNum tag) cva (cva + len)).modRegion rid (fun r => { r with mapCount := r.mapCount + 1 })).respond m
          okResp)))
    ∧ (∀ tag c cva len t, s.ctxOfTag tag = some c → s.serves m { own := [some c.part] } = true → cva % 65536 = 0 →
      len % 65536 = 0 → 0 < len → cva + len ≤ 2 ^ 52 → s.hasRegionLeaf c cva len = false → s.ctxStandby tag = false →
      c.st ≠ .tearing →
      (gaps (cva + len) cva (s.leavesIn c cva (cva + len))).foldl (fun (r : Option State) g => match r with
          | none => none
          | some s => s.mapRange c (fun _ => zeroLeaf) ((g.2 - g.1) / 65536 + 1) g.1 g.1 (g.2 - g.1)) (some s) = some t →
      exec (.mapZero m tag cva len) s = .next (State.settle ((t.uncache (tagNum tag) cva (cva + len)).respond m okResp)))
    ∧ (∀ tag c cva len mode, s.ctxOfTag tag = some c → s.serves m { own := [some c.part] } = true → cva % 65536 = 0 →
      len % 65536 = 0 → 0 < len → cva + len ≤ 2 ^ 52 → mode ≤ 1 → s.ctxStandby tag = false → c.st ≠ .tearing →
      s.ringIn (tagNum tag) cva (cva + len) = false → s.leavesIn c cva (cva + len) ≠ [] →
      ∀ u, u = s.modCtx (tagNum tag) (fun c => { c with
          unmaps := c.unmaps ++ [{ cva, len, fail := mode == 1, mb := some m }] }) →
        exec (.regionUnmap m tag cva len mode) s = .next (State.settle
          (if mode = 1 then u.failCovering (tagNum tag) cva (cva + len) else u)))
    ∧ (∀ n c u cva t, s.ctx? n = some c → c.unmaps.find? (fun u => u.cva == cva && u.mb.isSome) = some u →
      s.covering n cva (cva + u.len) = [] → s.fabricIn n cva (cva + u.len) = false → s.unmapRange n c cva u.len = some t →
      exec (.unmapDrainDone n cva) s = .next (State.settle
        ((t.modCtx n (fun c => { c with unmaps := c.unmaps.filter (fun x =>
          x != u && !(x.mb.isNone && cva ≤ x.cva && x.cva + x.len ≤ cva + u.len)) })).respond? u.mb okResp)))
    ∧ (∀ n c u cva, s.ctx? n = some c → c.unmaps.find? (fun u => u.cva == cva && u.mb.isSome && !u.fail) = some u →
      exec (.unmapWaitTimeout n cva) s = .next (State.settle
        ((s.modCtx n (fun c => { c with
          unmaps := c.unmaps.map (fun x => if x = u then { x with fail := true } else x) })).failCovering n cva (cva + u.len))))
    ∧ (∀ tag c cva level first f, s.ctxOfTag tag = some c → s.serves m { own := [some c.part], query := true } = true →
      cva < 2 ^ 52 → level ≤ 3 → first ≤ 511 → s.tableOf cva level 0 c.root = some f →
      ∀ body, body = recs 8 ((List.range (min 256 (512 - first))).map (fun i =>
          if m ≠ 0 ∧ isPtr level ((s.tableAt f).ents.or (first + i) 0) = true then 1
          else ((s.tableAt f).ents.or (first + i) 0).toNat)) →
        exec (.ctxTableRead m tag cva level first) s = .next (State.settle (s.respond m (
          if first + min 256 (512 - first) < 512 then
            { status := .ok, body := body ++ [(4, first + min 256 (512 - first))], more := true }
          else okBody body))))
    ∧ (∀ q i d u c ls lines, s.running q i 10 d u → s.ctx? u.ctx = some c →
      ls = s.leavesIn c d.dst.addr (d.dst.addr + d.length * 65536) → lines = (ls.flatMap s.leafLines).dedup →
      (d.f 319 318 ≠ 3 ∨ (List.range s.hubs).any (fun h => decide (49152 < s.pinnedWith h lines)) = false) →
      exec (.advise q i) s = .next (State.settle (State.issued
        (ls.foldl (fun s x => s.uncache u.ctx x.1 (x.1 + lvlSpan x.2.1))
          (ls.foldl (fun s x => (s.putLeaf c x.1 x.2.1 (withHint x.2.2 (d.f 319 318))).getD s)
            (lines.foldl (fun s l => s.adviseLine (d.f 319 318) { d.acc u.part with served := false } l) s))) d .ok 0)))

/-! Queues, doorbells and admission. -/

/-- Queue commands take their effect when their checks pass. Rows of R88, R95, R302, R303, R317, R375. Completion of
`queueCreate`, `queueDestroy`, `queueEnable`, `queueDisable`, `queueReset`, `queueQuery`, `queueSamples`, `queueSetWatchdog`,
`queueSampleTick`. -/
def Obligations.QueueCommandsComplete : Prop :=
  ∀ (s : State) (m : Nat),
    (∀ (r : QueueReq) (c : Context) (p : Partition) (e : EventQ), s.ctxOfTag r.tag = some c → s.part? c.part = some p →
      s.queue? r.q = none → s.serves m { own := [some c.part, none] } = true → p.queueCount ≠ 0 → p.hasQueue r.q = true →
      4 ≤ r.log2 → r.log2 ≤ 16 → r.ring % (64 * 2 ^ r.log2) = 0 → r.comp % (16 * 2 ^ r.log2) = 0 →
      s.ringFault c (r.toQueue c.part) = false → s.eq? r.eq = some e → e.part = c.part → r.mode ≤ 1 →
      s.standbyFor r.tag = false → c.st = .active →
      s.runsUsed (s.ctxHub (r.toQueue c.part).ctx) + (s.ringRuns c (r.toQueue c.part)).length ≤ 65536 →
      exec (.queueCreate m r) s = .next (State.settle (({ s with
        queues := s.queues.put r.q { r.toQueue c.part with
          runs := s.ringRuns c (r.toQueue c.part), rings := ringRegions (s.ringRuns c (r.toQueue c.part)) } } : State).respond m okResp)))
    ∧ (∀ q u, s.queue? q = some u → s.serves m { own := [some u.part] } = true →
      (u.st = .disabled ∨ u.st = .error ∨ u.st = .blocked) → s.descsOf q = [] →
      exec (.queueDestroy m q) s = .next ((s.dropQueue q).respond m okResp).settle)
    ∧ (∀ q u, s.queue? q = some u → s.serves m { own := [some u.part] } = true →
      (u.st = .disabled →
        exec (.queueEnable m q) s = .next ((s.modQueue q (fun u => { u with st := .active })).respond m okResp).settle
        ∧ exec (.queueDisable m q) s = .next (s.respond m { status := .okEmpty }).settle)
      ∧ (u.st = .active →
        exec (.queueEnable m q) s = .next (s.respond m { status := .okEmpty }).settle
        ∧ exec (.queueDisable m q) s = .next ((s.modQueue q (fun u => { u with st := .disabled })).respond m okResp).settle))
    ∧ (∀ q u, s.queue? q = some u → s.serves m { own := [some u.part] } = true → u.resetMb = none →
      (u.st = .disabled ∨ u.st = .error ∨ (u.st = .blocked ∧ ∃ c, s.ctx? u.ctx = some c ∧ c.st = .active)) →
      exec (.queueReset m q) s = .next ((s.modQueue q (fun u => { u with resetMb := some m })).resetIf q).settle)
    ∧ (∀ q u, s.queue? q = some u → s.serves m { own := [some u.part], query := true } = true →
      exec (.queueQuery m q) s = .next (s.respond m (okBody [(4, u.pi.toNat), (4, u.ci.toNat),
        (2, u.st.code + 256 * u.cause), (2, s.tagOf u.ctx), (2, u.eq)])).settle
      ∧ exec (.queueSamples m q) s = .next (s.respond m (okBody
          ((8, u.sampleTime.toNat) :: u.samples.map (fun w => (8, w.toNat))))).settle)
    ∧ (∀ q u period action, s.queue? q = some u → s.serves m { own := [some u.part] } = true → period ≤ 60000 → action ≤ 1 →
      exec (.queueSetWatchdog m q period action) s = .next (State.settle
        ((s.modQueue q (fun u => { u with wdMs := period, wdTear := action == 1 })).respond m okResp)))
    ∧ exec .queueSampleTick s = .next (State.settle { s with queues := s.queues.map (fun q =>
        (q.1, { q.2 with samples := (s.sampleOf q.1 q.2 :: q.2.samples).take 16, sampleTime := s.clock.base })) })

/-- Doorbells, by a function's page or by a packet, and the rejected-doorbell counter. A ready descriptor starts, on an
engine freely chosen among those that may take it, and each further segment of a transfer takes an engine of its own; a
descriptor that has finished writes its completion record once the slot is ready. Rows of R91, R92, R93, R106, R108.
Completion of `dbPiWrite`, `fabricDoorbell`, `dbRejectsRead`, `descriptorStart`, `descriptorComplete`. -/
def Obligations.DoorbellsStartAndCompletion : Prop :=
  (∀ s : State,
      (∀ fn q val u, s.queue? q = some u → s.hostReaches fn u.part = true → u.st ≠ .blocked →
        exec (.dbPiWrite fn q val) s = .next (s.rouse.doorbell q val).settle)
      ∧ (∀ p h q val u, s.turn p h = true → s.flowOpen h s.coh.nextJoin = false → h.dstEp = 0xFD →
        (s.consume p h).regGate h = none → h.msgLen ≠ 0 →
        (s.consume p h).queue? q = some u → u.st ≠ .blocked → h.ctxTag = (s.consume p h).tagOf u.ctx →
        exec (.fabricDoorbell p h q val) s = .next (State.settle (((s.consume p h).doorbell q val).cmp p u.part h .ok 0
          ((s.consume p h).claimOf 0 h.ctxTag))))
      ∧ (∀ src q u, s.queue? q = some u →
        s.regOpen src (fun n => s.hostReaches n u.part) (fun h => h.ctxTag == s.tagOf u.ctx) = true →
        exec (.dbRejectsRead src q) s = .next (State.settle
          (((s.regTaken src u.rejects).modQueue q (fun u => { u with rejects := 0 })).regReply src u.rejects))))
  ∧ (∀ s : State,
      (∀ q i d u, s.desc? q (BitVec.ofNat 32 i) = some d → s.queue? q = some u → s.mayStart d = true →
        d.needsEngine = false → exec (.descriptorStart q i) s = .next (s.startDesc d u).settle)
      ∧ (∀ q i d u e es, s.desc? q (BitVec.ofNat 32 i) = some d → s.queue? q = some u → s.mayStart d = true →
        d.needsEngine = true → s.takers d u.part = e :: es →
        exec (.descriptorStart q i) s = .next (State.settle (
          if d.transfers = true then
            ((((s.choose (e :: es) e).2.startDesc d u).modDesc q d.i (fun d => { d with
              segs := if d.segTotal = 1 then 0 else d.segTotal })).giveSegment d u.part (s.choose (e :: es) e).1)
          else ((s.choose (e :: es) e).2.startDesc d u).giveEngine q d.i u.part (s.choose (e :: es) e).1)))
      ∧ (∀ q i d u e es, s.desc? q (BitVec.ofNat 32 i) = some d → s.queue? q = some u → d.phase = .started →
        d.transfers = true → d.nextSeg < d.segTotal → d.needsEngine = true → s.takers d u.part = e :: es →
        exec (.descriptorStart q i) s = .next (State.settle
          ((s.choose (e :: es) e).2.giveSegment d u.part (s.choose (e :: es) e).1)))
      ∧ (∀ q i d u t, s.desc? q (BitVec.ofNat 32 i) = some d → s.queue? q = some u → s.mayComplete d = true →
        s.keysReady u.runs [] [(u.comSlot d.i, 16)] = (true, t) →
        exec (.descriptorComplete q i) s = .next (t.completeDesc d u).settle))

/-- R92 whole: what a doorbell value does, by its distance from CI in modulo-2^32 arithmetic: nothing when it is PI; PI when
it names indices that the ring holds; else it is discarded and counted, and the queue is in ERROR with cause 1 and says so in
`QUEUE_ERROR`. Descriptors already there are unaffected. -/
def Obligations.DoorbellRule : Prop :=
  ∀ (s : State) (q val : Nat) (u : Queue), s.queue? q = some u →
    ((BitVec.ofNat 32 val - u.ci).toNat = (u.pi - u.ci).toNat → s.doorbell q val = s)
    ∧ ((u.pi - u.ci).toNat < (BitVec.ofNat 32 val - u.ci).toNat → (BitVec.ofNat 32 val - u.ci).toNat ≤ 2 ^ u.log2 →
      s.doorbell q val = s.modQueue q (fun u => { u with
        pi := BitVec.ofNat 32 val, avail := u.avail ++ [(BitVec.ofNat 32 val, s.clock.aon)] }))
    ∧ (((BitVec.ofNat 32 val - u.ci).toNat < (u.pi - u.ci).toNat ∨ 2 ^ u.log2 < (BitVec.ofNat 32 val - u.ci).toNat) →
      (BitVec.ofNat 32 val - u.ci).toNat ≠ (u.pi - u.ci).toNat →
      s.doorbell q val = ((s.modQueue q (fun u => { u with rejects := sat 32 (u.rejects + 1) })).modQueue q (fun u => { u with
          st := .error, cause := 1 })).postEq u.eq
        { typ := 4, obj := q, body := 1 + at_ u.pi.toNat 32 32, ctx := some (s.tagOf u.ctx) })
    ∧ (s.doorbell q val).descs = s.descs

/-- Admission of the next ring slot: the checks that Table 04-6 makes before any charge decide, in its order, and a
descriptor that passes them goes on to the budget. Orders 6 and 7 of Table 04-6: what can never fit is refused; what does not
fit now is refused or HELD, as the queue's mode says; the rest is charged and translated. Rows of R104. Completion of
`descriptorAdmit`. -/
def Obligations.AdmissionTakesTheNextSlot : Prop :=
  (∀ (s : State) (q : Nat) (u : Queue) (c : Context) (a t v : State) (bs : List (Byte × Bool)) (d : Desc),
      s.queue? q = some u → s.head? q = none → u.st = .active → u.next ≠ u.pi →
      (s.descsOf q).any (fun d => d.typ == 8 || d.typ == 9) = false →
      (s.shapersOf u).all (fun x => x.lets s.clock.aon) = true → s.ctx? u.ctx = some c →
      s.keysReady u.runs [(u.slot u.next, 64)] [] = (true, a) →
      a.readKey u.runs (u.slot u.next) 64 { tag := s.tagOf u.ctx, part := u.part } = (bs, .ok, t) →
      d = { q, i := u.next, tag := t.tagOf u.ctx, words := BitVec.ofNat 512 (leNat (bs.map (·.1))), hub := t.ctxHub u.ctx,
            phase := .held } →
      v = { t.modQueue q (fun u => { u with next := u.next + 1 }) with descs := t.descs ++ [d] } →
      (c.mirror && v.mirrorIdle) = false →
      exec (.descriptorAdmit q) s = .next (State.settle (match v.precheck d c u.part with
        | .reject st => v.admitted q d.i .finished st
        | .empty_ => v.admitted q d.i .finished .okEmpty
        | .free_ => v.admitted q d.i .ready .ok
        | .go r => (v.modDesc q d.i (fun d => { d with remote := r })).admitBudget q d.i)))
  ∧ (∀ (s : State) (q : Nat) (i : BitVec 32) (d : Desc) (u : Queue) (p : Partition),
      s.desc? q i = some d → s.queue? q = some u → s.part? u.part = some p →
      ((p.budgetBytes = 0 ∨ p.budgetDesc = 0 ∨ p.budgetBytes < d.chargeBytes) →
        s.admitBudget q i = s.admitted q i .finished .refusedBudget)
      ∧ (p.budgetBytes ≠ 0 → p.budgetDesc ≠ 0 → d.chargeBytes ≤ p.budgetBytes →
        (p.budgetBytes < p.bytes + d.chargeBytes ∨ p.budgetDesc < p.descs + 1 ∨ s.heldAhead q u.part = true) →
        s.admitBudget q i = if u.refuse = true then s.admitted q i .finished .refusedBudget else s.holdHead q i)
      ∧ (p.budgetBytes ≠ 0 → p.budgetDesc ≠ 0 → p.bytes + d.chargeBytes ≤ p.budgetBytes → p.descs + 1 ≤ p.budgetDesc →
        s.heldAhead q u.part = false →
        s.admitBudget q i = State.admitRuns ((s.modPart u.part (fun p => { p with
          bytes := p.bytes + d.chargeBytes, descs := p.descs + 1 })).modDesc q i (fun x => { x with
          charged := true, charge := d.chargeBytes })) q i))

/-! Descriptors at work. -/

/-- Transfers: once a segment's granules are clear and its reads have been served, its bytes move, and the descriptor carries
the status and the count that moved. `FENCE`, `EVENT` and `NOP`, and the end of a segment. Rows of R100, R102, R106, R107,
R112. Completion of `copy`, `tile2d`, `tile3d`, `fill`, `gather`, `scatter`, `fence`, `event`, `nop`, `segmentDone`. -/
def Obligations.TransfersAndOrderingComplete : Prop :=
  (∀ (s : State) (q i : Nat) (d : Desc) (u : Queue) (x : SegRun) (st : Status) (v : State),
      (s.segmentMoves d u.part d.moveList x st v →
        (s.running q i 1 d u → exec (.copy q i) s
          = .next (v.landed d x st (localBytes (x.cut d.moveList)) (moveBytes d.moveList)).settle)
        ∧ (s.running q i 2 d u → exec (.tile2d q i) s
          = .next (v.landed d x st (localBytes (x.cut d.moveList)) (moveBytes d.moveList)).settle)
        ∧ (s.running q i 3 d u → exec (.tile3d q i) s
          = .next (v.landed d x st (localBytes (x.cut d.moveList)) (moveBytes d.moveList)).settle))
      ∧ (s.running q i 6 d u → s.segmentMoves d u.part [(.pattern d.pattern, d.dst.target 0, d.length)] x st v →
        exec (.fill q i) s = .next (State.settle (v.landed d x st
          (localBytes (x.cut [(.pattern d.pattern, d.dst.target 0, d.length)])) d.length)))
      ∧ (∀ t w xs st0, s.streamsReady d.runs d.streams = (true, t) →
        t.readIndices d.runs d.index.key d.indexBytes d.count d.tableRows { d.acc u.part with served := false } = (xs, st0, w) →
        (s.running q i 4 d u → (w.bounded d xs st0).segmentMoves d u.part (d.gatherMoves xs) x st v →
          exec (.gather q i) s = .next (State.settle
            (v.landed d x st (localBytes (x.cut (d.gatherMoves xs))) (d.count * d.rowBytes))))
        ∧ (s.running q i 5 d u → (w.bounded d xs st0).segmentMoves d u.part (d.scatterMoves xs) x st v →
          exec (.scatter q i) s = .next (State.settle
            (v.landed d x st (localBytes (x.cut (d.scatterMoves xs))) ((scatterRows xs).length * d.rowBytes))))))
  ∧ (∀ (s : State) (q i : Nat) (d : Desc) (u : Queue),
      (s.running q i 8 d u → s.fenced d u (d.f 351 351 == 1) = [] →
        exec (.fence q i) s = .next (State.settle (if d.f 351 351 = 1 then
            (s.issued d .ok (((s.ctx? u.ctx).map (·.fails)).getD 0)).modCtx u.ctx (fun c => { c with fails := 0 })
          else (s.issued d .ok u.fails).modQueue q (fun u => { u with fails := 0 }))))
      ∧ (s.running q i 9 d u → s.fenced d u false = [] →
        exec (.event q i) s = .next (State.settle ((s.issued d .ok 0).postEq (d.f 351 340)
          { typ := 2, obj := q, body := d.f 339 276, ctx := some d.tag })))
      ∧ (s.desc? q (BitVec.ofNat 32 i) = some d → d.typ = 13 → d.phase = .ready → (d.orderAfter && s.earlier d) = false →
        exec (.nop q i) s = .next (s.modDesc q d.i (fun d => { d with phase := .finished })).settle)
      ∧ (∀ x, s.desc? q (BitVec.ofNat 32 i) = some d → s.queue? q = some u → d.segRuns.find? (fun y => y.landed) = some x →
        d.phase = .started → d.segs ≠ 0 → s.descQueued q (BitVec.ofNat 32 i) = false →
        exec (.segmentDone q i) s = .next (State.settle
          (((s.segEnded d x).nextSegment d u.part x.engine).finishIf q (BitVec.ofNat 32 i)))))

/-- Answers to the controller's own requests: a `CMP` counts an acknowledged message, or ends its descriptor on a bad status;
`RD_DATA` brings bytes, poisoned and lost ones too. Rows of R103, R266. Completion of `cmp`, `rdData`. -/
def Obligations.RemoteAnswersComplete : Prop :=
  ∀ (s : State) (p : Nat) (h : Hdr) (status : Nat), s.turn p h = true →
    (∀ o d m t result, (s.consume p h).ownOf h = some o → o.snoop = none →
      t = (if Status.ofCode status = .staleIncarnation then ((s.consume p h).dropOwn o).learn h.srcNode h.incClaim
        else (s.consume p h).dropOwn o) →
      t.outOf o = some (d, m) →
      ((Status.ofCode status).good = false →
        exec (.cmp p h status result) s = .next (t.endDesc d.q d.i (Status.ofCode status) true).settle)
      ∧ ((Status.ofCode status).good = true → exec (.cmp p h status result) s = .next (State.settle
          ((t.modDesc d.q d.i (fun e => { e with
            out := e.out.erase m
            acked := if m.store = 0 then e.acked + m.n else e.acked
            acked1 := if m.store = 0 then e.acked1 else e.acked1 + m.n
            result := if e.typ = 7 then
                (if m.store = 0 then e.acked1 * 2 ^ 32 + (e.acked + m.n) else (e.acked1 + m.n) * 2 ^ 32 + e.acked)
              else e.result })).finishIf d.q d.i))))
    ∧ (∀ o d m data, s.ownOf h = some o → o.opcode = 0x02 → s.outOf o = some (d, m) → (Status.ofCode status).good = false →
      Status.ofCode status ≠ .poison → Status.ofCode status ≠ .lineLost →
      exec (.rdData p h status data) s = .next (State.settle
        (((s.consume p h).dropOwn o).endDesc d.q d.i (Status.ofCode status) true)))
    ∧ (∀ o d m data t st w, s.ownOf h = some o → o.opcode = 0x02 → s.outOf o = some (d, m) →
      ((Status.ofCode status).good = true ∨ Status.ofCode status = .poison ∨ Status.ofCode status = .lineLost) →
      s.landing d (m.loc + (h.addr - m.addr)) data.length = (true, t) →
      (if d.typ = 12 then st = .ok ∧ w = (t.consume p h).modDesc d.q d.i (fun d => { d with
          buf := d.buf ++ [(m.loc + (h.addr - m.addr), data.map (fun b => (b, h.poison)))] })
        else (t.consume p h).writeKey d.runs (m.loc + (h.addr - m.addr)) (data.map (fun b => (b, h.poison)))
          (d.acc ((((t.consume p h).queue? d.q).map (·.part)).getD 64)) = (st, w)) →
      exec (.rdData p h status data) s = .next (State.settle
        (((if m.left ≤ data.length then w.dropOwn o else w).modDesc d.q d.i (fun e => { e with
          out := if m.left ≤ data.length then e.out.erase m
            else e.out.map (fun x => if x = m then { x with left := x.left - data.length } else x)
          acked := e.acked + data.length
          status := worse e.status (worse st (worse
            (if (Status.ofCode status).good then .ok else Status.ofCode status) (if h.poison then .poison else .ok))) })).finishIf
          d.q d.i)))

/-- A user configuration and the stock operators issue their whole work once their streams are clear and read: the descriptor
carries how much went to each store, or ends without a route. Rows of R114, R147, R156, R157, R160, R162, R165, R166.
Completion of `operator`, `reduceN`, `gatherRows`, `scatterRows`, `kvSelect`, `ckptDelta`, `ckptRestore`, `convert`,
`ssbPack`, `ssbUnpack`, `fillPattern`. -/
def Obligations.OperatorsComplete : Prop :=
  ∀ (s : State) (q i : Nat) (d : Desc) (u : Queue) (o : Ocb) (t : State), s.running q i 7 d u → o = ⟨d.ocb⟩ →
    (d.stock = 0 → s.opReady d u.part (o.streams d.shape) = (true, t) →
      ∀ c stop st v, t.runChain d u.part o = (c, stop, st, v) →
      (∀ st0 v0 st1 v1, v.putOut d u.part o 0 c.o0 st = (true, st0, v0) → v0.putOut d u.part o 1 c.o1 st0 = (true, st1, v1) →
        exec (.operator q i) s = .next (State.settle (v1.opDone d st1 stop (if o.storeEn 0 then c.o0.length else 0)
          (if o.storeEn 1 then c.o1.length else 0) ((o.store 0).ep.kind == 2) ((o.store 1).ep.kind == 2))))
      ∧ (∀ st0 v0, v.putOut d u.part o 0 c.o0 st = (false, st0, v0) →
        exec (.operator q i) s = .next (v0.opUnrouted d 0 0).settle))
    ∧ (∀ ins st v, d.stock = 1 → s.opReady d u.part (o.stockStreams 1 d.shape d.inputs) = (true, t) →
      t.reduceInputs d u.part o (d.shape.iter * d.shape.elems) = (ins, st, v) →
      exec (.reduceN q i) s = .next (State.settle
        (v.stockDone d u.part o st false (o.reduceOuts (d.shape.iter * d.shape.elems) ins) none)))
    ∧ (∀ xs ws oob st v rows st' w, d.stock = 2 → s.opReady d u.part (o.stockStreams 2 d.shape []) = (true, t) →
      t.rowArgs d u.part o d.shape = (xs, ws, oob, st, v) → v.gatherAll d u.part o xs ws st = (rows, st', w) →
      exec (.gatherRows q i) s = .next (State.settle (w.stockDone d u.part o (boundStatus st' (!oob.isEmpty)) false
        (rowsOuts o.round (o.store 0) rows (genStart o.seed)).1 (if (o.stockStores 2).contains 1 then some oob else none))))
    ∧ (∀ xs ws oob st v ins stop st' w st2 y, d.stock = 3 → s.opReady d u.part (o.stockStreams 3 d.shape []) = (true, t) →
      t.rowArgs d u.part o d.shape = (xs, ws, oob, st, v) →
      v.loadRows d.runs (o.load 0) d.shape.list d.shape.elems (d.acc u.part) = (ins, stop, st', w) →
      w.scatterAll d u.part o xs ws ins (worse st st') = (true, st2, y) →
      (o.stockStores 3).contains 1 = false →
      exec (.scatterRows q i) s = .next (State.settle (y.opDone d (boundStatus (worse st2 .ok) (!oob.isEmpty)) stop
        (o.scatterCount d xs ins) 0 ((o.store 0).ep.kind == 2) ((o.store 1).ep.kind == 2))))
    ∧ (∀ xs ws oob st v ins stop st' w st2 y st3 z, d.stock = 3 →
        s.opReady d u.part (o.stockStreams 3 d.shape []) = (true, t) →
      t.rowArgs d u.part o d.shape = (xs, ws, oob, st, v) →
      v.loadRows d.runs (o.load 0) d.shape.list d.shape.elems (d.acc u.part) = (ins, stop, st', w) →
      w.scatterAll d u.part o xs ws ins (worse st st') = (true, st2, y) →
      (o.stockStores 3).contains 1 = true → y.storeOuts d u.part 1 (o.store 1) true o.sat (rawOuts oob) = (true, st3, z) →
      exec (.scatterRows q i) s = .next (State.settle (z.opDone d (boundStatus (worse st2 st3) (!oob.isEmpty)) stop
        (o.scatterCount d xs ins) oob.length ((o.store 0).ep.kind == 2) ((o.store 1).ep.kind == 2))))
    ∧ (∀ qs stop st v ks stop2 st2 w, d.stock = 4 → s.opReady d u.part (o.stockStreams 4 d.shape []) = (true, t) →
      t.loadRows d.runs (o.load 3) ((List.range d.shape.iter).map (fun r => (0, r))) d.shape.elems (d.acc u.part)
        = (qs, stop, st, v) →
      v.loadRows d.runs (o.load 0) ((List.range (o.kvRows d.shape)).map (fun r => (0, r))) d.shape.elems (d.acc u.part)
        = (ks, stop2, st2, w) →
      ((stop || stop2) = true → exec (.kvSelect q i) s = .next (w.opDone d .badArg true 0 0 false false).settle)
      ∧ (∀ st3 n0 y, (stop || stop2) = false → w.kvAll d u.part o qs ks (worse st st2) = (true, st3, n0, y) →
        exec (.kvSelect q i) s = .next (State.settle (y.opDone d st3 false n0 (d.shape.iter * o.arg 10 2 * 2)
          ((o.store 0).ep.kind == 2) ((o.store 1).ep.kind == 2)))))
    ∧ (∀ news ents st v ok st2 w bytes, d.stock = 5 → s.opReady d u.part (o.stockStreams 5 d.shape []) = (true, t) →
      t.deltaEntries d u.part o (d.iter * d.opRows) = (news, ents, st, v) →
      bytes = o.deltaBytes (d.iter * d.opRows) news ents →
      v.storeRun d u.part 0 (o.store 0) 0 bytes ((o.store 0).upto (bytes.length / 4)) = (ok, st2, w) →
      exec (.ckptDelta q i) s = .next (w.opDone d (worse st st2) false (bytes.length / 4) 0 false true).settle)
    ∧ (∀ nb fixed hd st v, d.stock = 6 → s.opReady d u.part (o.stockStreams 6 d.shape []) = (true, t) →
      nb = d.iter * d.opRows → fixed = 64 + roundUp (cdiv nb 8) 64 + roundUp (4 * cdiv nb 16) 64 →
      t.readKey d.runs (o.load 0).ep.key (min 64 (o.arg 255 192)) (d.accNow u.part) = (hd, st, v) →
      (∀ st' stop, o.headerBad (leNat (hd.map (·.1))) nb fixed st = some (st', stop) →
        exec (.ckptRestore q i) s = .next (v.opDone d st' stop 0 0 false true).settle)
      ∧ (∀ bm st2 w ct st3 y r z, o.headerBad (leNat (hd.map (·.1))) nb fixed st = none →
        v.readKey d.runs ((o.load 0).ep.key + 64) (cdiv nb 8) (d.accNow u.part) = (bm, st2, w) →
        w.readKey d.runs ((o.load 0).ep.key + 64 + roundUp (cdiv nb 8) 64) (4 * cdiv nb 16) (d.accNow u.part) = (ct, st3, y) →
        y.restoreAll d u.part o nb (leNat (bm.map (·.1))) (ct.map (·.1))
          { off := fixed, st := worse (worse st st2) st3 } = (r, true, z) →
        exec (.ckptRestore q i) s = .next (State.settle
          (z.opDone d r.st r.stop (r.done_ * 1024) 0 ((o.store 0).ep.kind == 2) true))))
    ∧ (∀ rows stop st v, s.opReady d u.part (o.stockStreams d.stock d.shape []) = (true, t) →
      t.loadRows d.runs (o.load 0) d.shape.list d.rowElems (d.acc u.part) = (rows, stop, st, v) →
      (d.stock = 7 → exec (.convert q i) s = .next (State.settle (v.stockDone d u.part o st stop
        (rowsOuts o.round (o.store 0) (rows.map (rowLanes (o.load 0))) (genStart o.seed)).1 none)))
      ∧ (d.stock = 8 → exec (.ssbPack q i) s = .next (State.settle (v.stockDone d u.part o st stop
        (rowsOuts o.round (o.store 0) (rows.map (rowLanes (o.load 0))) (genStart o.seed)).1 none)))
      ∧ (d.stock = 9 → exec (.ssbUnpack q i) s = .next (State.settle (v.stockDone d u.part o st stop
        (rowsOuts o.round (o.store 0) (rows.map (rowLanes (o.load 0))) (genStart o.seed)).1 none))))
    ∧ (d.stock = 10 → s.opReady d u.part (o.stockStreams 10 d.shape []) = (true, t) →
      exec (.fillPattern q i) s = .next (State.settle
        (t.stockDone d u.part o .ok false (o.fillOuts (d.iter * d.opRows * d.rowElems)) none)))

/-! Collectives. -/

/-- Collective commands, contributions by descriptor and by packet, and the step timer. Rows of R148, R149, R153, R154, R375.
Completion of `collCreate`, `collStepTimeout`, `collDestroy`, `collQuery`, `collContrib`, `collWr`. -/
def Obligations.CollectiveCommandsComplete : Prop :=
  ∀ (s : State) (m : Nat),
    (∀ (r : CollReq) (c : Context) (e : EventQ) (a b : Region) (area : List Nat) (t : State),
      s.ctxOfTag r.tag = some c → s.eq? r.eq = some e → s.region? (r.result / 2 ^ 44) = some a →
      s.region? (r.status / 2 ^ 44) = some b →
      s.serves m { own := [some c.part, some e.part, some a.part, some b.part], need := 1 } = true →
      firstFail (s.collBad r c.part) = none → s.standbyFor r.tag = false → c.st = .active → s.colls.length < 1024 →
      s.hotFits c.part (65536 * cdiv r.areaBytes 65536) = true →
      s.takeArea (.coll (tagNum r.tag) r.cid) (cdiv r.areaBytes 65536) = some (area, t) →
      exec (.collCreate m r) s = .next (State.settle (({ t with
        colls := t.colls ++ [{ req := { r with timeout := r.ms }, ctx := tagNum r.tag, part := c.part, area }] }
          : State).respond m okResp)))
    ∧ (∀ ctx cid c, s.coll? ctx cid = some c → c.timer = true →
      exec (.collStepTimeout ctx cid) s = .next (State.settle
        (((s.closeStep c).2.closeFull (s.closeStep c).1 1).2.setColl ((s.closeStep c).2.closeFull (s.closeStep c).1 1).1)))
    ∧ (∀ tag c x cid, s.ctxOfTag tag = some c → s.coll? (tagNum tag) cid = some x → c.st ≠ .tearing →
      s.serves m { own := [some c.part] } = true →
      exec (.collDestroy m tag cid) s = .next ((s.endColl x).respond m okResp).settle)
    ∧ (∀ tag c cid first x all, s.ctxOfTag tag = some c → s.coll? (tagNum tag) cid = some x →
      s.serves m { own := [some x.part], query := true } = true →
      all = x.blocks.1.bytes x.req ++ x.blocks.2.bytes x.req → first ≤ all.length →
      exec (.collQuery m tag cid first) s = .next (State.settle (s.respond m {
        status := .ok
        body := ((8, x.step) :: (64, x.blocks.1.head.toNat) :: (64, x.blocks.2.head.toNat)
          :: ((all.drop first).take 3840).map (fun b => (1, b.toNat)))
          ++ (if first + 3840 < all.length then [(4, first + 3840)] else [])
        more := decide (first + 3840 < all.length) })))
    ∧ (∀ q i d u x, s.running q i 12 d u → s.coll? u.ctx (d.f 319 288) = some x →
      (x.judge (d.f 287 256) (d.f 255 242) (d.f 241 218) d.length ≠ none ∨ d.length = 0) →
      exec (.collContrib q i) s = .next (s.contributed d u.ctx []).settle)
    ∧ (∀ q i d u x t w bs st v, s.running q i 12 d u → s.coll? u.ctx (d.f 319 288) = some x →
      x.judge (d.f 287 256) (d.f 255 242) (d.f 241 218) d.length = none → d.length ≠ 0 → d.src.kind ≠ 2 →
      s.keysReady d.runs [(d.src.key, d.length)] [] = (true, t) → t.fetched d u.part [(d.src.key, d.length)] = (true, w) →
      w.readKey d.runs d.src.key d.length (d.acc u.part) = (bs, st, v) →
      exec (.collContrib q i) s = .next (v.contributed d u.ctx bs).settle)
    ∧ (∀ q i d u x, s.running q i 12 d u → s.coll? u.ctx (d.f 319 288) = some x →
      x.judge (d.f 287 256) (d.f 255 242) (d.f 241 218) d.length = none → d.length ≠ 0 → d.src.kind = 2 →
      d.pulled.length = d.length →
      exec (.collContrib q i) s = .next (s.contributed d u.ctx d.pulled).settle)
    ∧ (∀ p h c step rank chunk data st u, s.homeTakes p h c → h.msgLen = 0 →
      ((s.classed h).consume p h).contribute (tagNum h.ctxTag) (h.addr / 2 ^ 32) step rank chunk 0 [] = (st, u) →
      exec (.collWr p h step rank chunk data) s = .next (State.settle
        (u.cmp p c.part h (if st = .ok then .okEmpty else st) 0 (u.claimOf 0 h.ctxTag))))
    ∧ (∀ p h c step rank chunk data t v w st u, s.homeTakes p h c → h.msgLen ≠ 0 →
      (s.classed h).collWaits h step rank chunk data.length = false →
      (s.classed h).msgTake p h data.length (.collWr p h step rank chunk data) = (.taken, t) →
      v = (t.consume p h).modMsg h.key (fun m =>
        { m with parts := m.parts ++ [(h.addr % 2 ^ 32, data.map (fun b => (b, h.poison)))] }) →
      v.msgDone h .ok = (some (.ok, true), w) →
      w.accumulate h step rank chunk (((v.msg? h.key).map (·.bytes)).getD []) = (st, u) →
      exec (.collWr p h step rank chunk data) s = .next (State.settle (u.cmp p c.part h st 0 (u.claimOf 0 h.ctxTag))))

/-! Coherence. -/

/-- Caching and uncached reads that the home takes: once the range translates and a transaction is free, the packet is taken
and its granules' requests begin; a ZERO page reads as zeros. Rows of R70. Completion of `rdShared`, `rdOwn`, `upgrade`,
`rdUncached`. -/
def Obligations.CoherentReadsComplete : Prop :=
  ∀ (s : State) (p : Nat) (h : Hdr) (c : Context), s.homeTakes p h c →
    (∀ agent ps t r, (s.classed h).fromAgent h agent = true →
      ((s.classed h).translates h c 1 0 t ps → t.granReq p h c agent .rdShared [] ps = some (false, r) →
        t.shortHub [r] = none →
        exec (.rdShared p h agent) s = .next ((t.consume p h).tookOne.submit r).settle)
      ∧ ((s.classed h).translates h c 1 0 t ps → t.granReq p h c agent .rdShared [] ps = some (true, r) →
        exec (.rdShared p h agent) s = .next (State.settle
          ((t.consume p h).sendData r .ok 4 (List.replicate 128 (0, false)))))
      ∧ ((s.classed h).translates h c 1 1 t ps → t.granReq p h c agent .rdOwn [] ps = some (false, r) →
        t.shortHub [r] = none →
        exec (.rdOwn p h agent) s = .next ((t.consume p h).tookOne.submit r).settle)
      ∧ ((s.classed h).translates h c 1 1 t ps → t.granReq p h c agent .upgrade [] ps = some (false, r) →
        t.shortHub [r] = none →
        exec (.upgrade p h agent) s = .next ((t.consume p h).tookOne.submit r).settle))
    ∧ (∀ ps t z m rs, 0 < h.msgLen → h.msgLen ≤ 4096 → (s.classed h).translates h c h.msgLen 0 t ps →
      z = (t.piecesOf h.addr ps).filter (fun x => x.2.1 == 0) → m = (t.piecesOf h.addr ps).filter (fun x => x.2.1 != 0) →
      rs = pieceReqs p h c.part .rdUnc 0xFFFF 0 [] (coldPages ps) m t.coh.nextJoin → t.shortHub rs = none →
      exec (.rdUncached p h) s = .next (State.settle (State.closeJoin
        (rs.foldl State.submit ((t.consume p h).openJoin { pieceJoin p h c.part 1 m with
          parts := z.map (fun x => (x.1, List.replicate x.2.2.2.2.2 (0, false))) }).2) t.coh.nextJoin)))
    ∧ (h.msgLen = 0 → exec (.rdUncached p h) s = .next ((s.classed h).deny p h .okEmpty).settle)

/-- Evictions, write-backs, writes and atomics that the home takes: once the range translates and a transaction is free, the
packet is taken and its granules' requests begin. Rows of R70, R74, R75. Completion of `cleanEvict`, `wrBack`, `wrThru`,
`wrUncached`, `wrStash`, `atomic`. -/
def Obligations.CoherentWritesComplete : Prop :=
  ∀ (s : State) (p : Nat) (h : Hdr) (c : Context), s.homeTakes p h c →
    (∀ agent left ps t r, (s.classed h).fromAgent h agent = true → (s.classed h).translates h c 1 0 t ps →
      t.granReq p h c agent .cleanEvict [] ps = some (false, r) → t.shortHub [r] = none →
      exec (.cleanEvict p h agent left) s = .next ((t.consume p h).tookOne.submit r).settle)
    ∧ (∀ agent data ps t zero r, (s.classed h).fromAgent h agent = true → (s.classed h).translates h c 1 1 t ps →
      t.granReq p h c agent .wrBack data ps = some (zero, r) → t.shortHub [{ r with join := t.coh.nextJoin }] = none →
      exec (.wrBack p h agent data) s = .next (State.settle (((t.consume p h).openJoin {
        port := p, hdr := h, part := c.part, kind := 5, left := 1, region := r.region, ext := r.ext, regions := [r.region]
        handles := [(0, r.handle)] }).2.submit { r with join := t.coh.nextJoin })))
    ∧ (∀ agent mask data ps t pcs rs, (s.classed h).fromAgent h agent = true →
      (s.classed h).translates { h with addr := h.addr / 128 * 128 } c 128 1 t ps →
      pcs = t.piecesOf (h.addr / 128 * 128) ps →
      rs = pieceReqs p h c.part .wrThru agent mask data (coldPages ps) pcs t.coh.nextJoin → t.shortHub rs = none →
      exec (.wrThru p h agent mask data) s = .next (State.settle (State.closeJoin
        (rs.foldl State.submit ((t.consume p h).openJoin (pieceJoin p h c.part 3 pcs)).2) t.coh.nextJoin)))
    ∧ (∀ op cmd data ps t pcs v rs, h.msgLen ≠ 0 →
      (((s.classed h).msg? h.key).isNone && (s.classed h).net.closed.any (fun x => x.1 == h.key)) = false →
      (s.classed h).translates h c (max data.length 1) 1 t ps → pcs = t.piecesOf h.addr ps →
      t.shortHub (pieceReqs p h c.part op 0xFFFF 0 data false pcs t.coh.nextJoin) = none →
      t.msgTake p h data.length cmd = (.taken, v) →
      rs = pieceReqs p h c.part op 0xFFFF 0 data (coldPages ps) pcs v.coh.nextJoin → v.shortHub rs = none →
      (op = .wrUnc → cmd = .wrUncached p h data →
        exec (.wrUncached p h data) s = .next (State.settle (State.closeJoin
          (rs.foldl State.submit ((v.consume p h).openJoin (pieceJoin p h c.part 0 pcs)).2) v.coh.nextJoin)))
      ∧ (∀ target offer, op = .wrStash target offer → cmd = .wrStash p h target offer data →
        exec (.wrStash p h target offer data) s = .next (State.settle (State.closeJoin
          (rs.foldl State.submit ((v.consume p h).openJoin (pieceJoin p h c.part 0 pcs)).2) v.coh.nextJoin))))
    ∧ (∀ data target offer, h.msgLen = 0 → exec (.wrUncached p h data) s = .next ((s.classed h).deny p h .okEmpty).settle
      ∧ exec (.wrStash p h target offer data) s = .next ((s.classed h).deny p h .okEmpty).settle)
    ∧ (∀ op width operands ps t pcs rs, h.addr % widthBytes width = 0 → (atomicOp op width 0 operands).isSome = true →
      (s.classed h).translates h c (widthBytes width) 2 t ps → pcs = t.piecesOf h.addr ps →
      rs = pieceReqs p h c.part (.atomic op width operands) 0xFFFF 0 [] (coldPages ps) pcs t.coh.nextJoin →
      t.shortHub rs = none →
      exec (.atomic p h op width operands) s = .next (State.settle (State.closeJoin
        (rs.foldl State.submit ((t.consume p h).openJoin (pieceJoin p h c.part 3 pcs)).2) t.coh.nextJoin)))

/-- Answers of agents to the home's snoops, invalidations and offers take their await entry and move the transaction on; an
offer that is not answered ends; a packet that waits for a transaction, and a held request, are taken once they may run.
Leases and the sweep that reclaims an agent's lines. Rows of R69, R74, R81, R83, R84, R432. Completion of `invAck`, `snpRsp`,
`fwdDone`, `stashRsp`, `stashOfferTimeout`, `transactionTake`, `holdRelease`, `leaseBeat`, `leaseExpiry`, `reclaimSweepTick`,
`reclaimSweepCircle`. -/
def Obligations.CoherentAnswersAndLeasesComplete : Prop :=
  (∀ s : State,
      (∀ p h txn o t,
        (s.answersSnoop p h txn [.inv] o t →
          exec (.invAck p h txn) s = .next (State.settle ((s.snoopAnswered p h txn o).advance txn)))
        ∧ (∀ before data, s.answersSnoop p h txn [.snp, .fwd] o t →
          exec (.snpRsp p h txn before data) s = .next (State.settle (State.advance
            (if (before = 4 ∨ before = 5) ∧ data.length = 128 then
              ((s.snoopAnswered p h txn o).writeBytes (t.gran * 128) (data.map (fun b => (b, h.poison))) t.req.acc).2
             else s.snoopAnswered p h txn o) txn)))
        ∧ (∀ left, s.answersSnoop p h txn [.fwd] o t →
          exec (.fwdDone p h txn left) s = .next (State.settle (State.advance
            ((s.snoopAnswered p h txn o).modTxn txn (fun t => { t with left := 1 + left })) txn)))
        ∧ (∀ answer target offer, s.answersSnoop p h txn [.stash] o t → t.req.op = .wrStash target offer →
          exec (.stashRsp p h txn answer) s = .next (State.settle (State.advance
            ((s.snoopAnswered p h txn o).modTxn txn (fun t => { t with
              taken := if answer = 0 then some .ds else if answer = 1 ∧ offer = 1 then some .de else none })) txn))))
      ∧ (∀ txn t, s.coh.txns.find? (fun t => t.id == txn) = some t → t.offered = true → t.taken = none →
        exec (.stashOfferTimeout txn) s = .next (State.settle
          ((s.closeOwn (fun o => o.snoop.any (fun x => x.1 == txn))).dropTxn txn)))
      ∧ (∀ hub i rest t, (s.coh.stalled.filter (fun x => x.1 == hub)).map (·.2) = i :: rest →
        t = (s.updCoh (fun c => { c with stalled := c.stalled.erase (hub, i) })).rerun i →
        t.coh.stalled.any (fun x => x.2 == i) = false →
        exec (.transactionTake hub) s = .next t.settle)
      ∧ (∀ g r ppa, s.releasable g = some r →
        s.regionPpa r.region (((s.region? r.region).map (·.extent)).getD r.ext) r.roff = some ppa →
        exec (.holdRelease g) s = .next (State.settle ((s.updCoh (fun c => { c with held := c.held.erase r })).handle
          { r with ppa, ext := ((s.region? r.region).map (·.extent)).getD r.ext }))))
  ∧ (∀ s : State,
      (∀ p h agent seq time join a t, s.turn p h = true → t = s.consume p h → h.dstEp = 0 → t.agent? agent = some a →
        a.node = h.srcNode → a.ep = h.srcEp → (join = 0 → h.incClaim = t.inc) →
        exec (.leaseBeat p h agent seq time join) s = .next (State.settle (
          if a.lease = .current ∨ (a.lease = .void ∧ join = 1 ∧ h.incClaim = t.inc) ∨ (a.lease = .reclaimed ∧ join = 1) then
            (t.modAgent agent (fun x => { x with lease := .current, lastBeat := t.clock.base })).leaseAck p h agent seq time 0
          else t.leaseAck p h agent seq time (if join = 1 ∧ a.lease ≠ .void then 1 else 2))))
      ∧ (∀ agent a, s.agent? agent = some a → a.lease = .current →
        exec (.leaseExpiry agent) s = .next (s.expireLease agent).settle)
      ∧ (∀ hub pos u, pos = (s.coh.sweep.or hub {}).pos → u = (s.bucket hub pos).foldl State.sweepEntry s →
        exec (.reclaimSweepTick hub) s = .next (State.settle (
          if (s.bucket hub pos).any (fun e => s.busyGran e.gran && s.swept e) then u
          else u.updCoh (fun c => { c with
            sweep := c.sweep.put hub { pos := if pos + 1 < u.buckets hub then pos + 1 else 0 }
            agents := c.agents.map (fun x => (x.1, match x.2.lease with
              | .reclaiming hs => { x.2 with lease := .reclaiming (hs.map (fun h => if h.1 = hub then (h.1, h.2 - 1) else h)) }
              | _ => x.2)) }))))
      ∧ (∀ hub, (∀ x ∈ s.coh.agents, ∀ l, x.2.lease ≠ .reclaiming l) →
        exec (.reclaimSweepCircle hub) s = .next s.settle)
      ∧ (∀ hub agent a, s.coh.agents = [(agent, a)] → a.lease = .reclaiming [(hub, 0)] →
        exec (.reclaimSweepCircle hub) s = .next (State.settle
          ((s.modAgent agent (fun a => { a with lease := .reclaiming [] })).reclaimed agent))))

/-- The coherence commands of the fleet manager. Rows of R60, R62, R65, R78, R79, R81. Completion of `cohAgentAdd`,
`cohAgentRemove`, `cohLeaseSet`, `cohDirConfig`, `cohDirRead`, `cohStats`. -/
def Obligations.CoherenceCommandsComplete : Prop :=
  ∀ (s : State) (m : Nat),
    (∀ agent node ep, s.serves m { fm := true, need := 1 } = true → agent < 4096 → node < 0xFFFF → ep < 0xFF →
      s.agent? agent = none →
      exec (.cohAgentAdd m agent node ep) s = .next (State.settle ((s.updCoh (fun c => { c with
        agents := c.agents.put agent { node, ep, lease := .current, lastBeat := s.clock.base } })).respond m okResp)))
    ∧ (∀ agent a, s.serves m { fm := true, need := 1 } = true → s.agent? agent = some a →
      (a.lease = .current → exec (.cohAgentRemove m agent) s = .next (State.settle
        ((s.modAgent agent (fun a => { a with removeMb := some m })).expireLease agent)))
      ∧ ((a.lease = .reclaimed ∨ a.lease = .void) → exec (.cohAgentRemove m agent) s = .next (State.settle
          (((s.modAgent agent (fun a => { a with removeMb := some m })).updCoh (fun c => { c with
            agents := c.agents.del agent })).respond m (okBody [(4, a.lost)])))))
    ∧ (∀ lease interval, s.serves m { fm := true } = true → 1000 ≤ lease → lease ≤ 1000000 → 10 ≤ interval →
      interval ≤ 10000 → 20 * interval ≤ lease →
      exec (.cohLeaseSet m lease interval) s = .next (State.settle
        ((s.updCoh (fun c => { c with leaseUs := lease, beatUs := interval })).respond m okResp)))
    ∧ (∀ frac, s.serves m { fm := true } = true → frac ≤ 2 →
      exec (.cohDirConfig m frac) s = .next (State.settle
        ((s.updCoh (fun c => { c with fracNext := frac })).respond m okResp)))
    ∧ (∀ hub first count, s.serves m { fm := true, query := true, need := 1 } = true → hub < s.hubs →
      first < s.buckets hub → 1 ≤ count → count ≤ 31 →
      exec (.cohDirRead m hub first count) s = .next (State.settle (s.respond m {
        status := .ok
        body := recs 16 ((List.range (min count (s.buckets hub - first))).flatMap (fun i => s.bucketWords hub (first + i)))
          ++ (if first + min count (s.buckets hub - first) < s.buckets hub then
            [(4, first + min count (s.buckets hub - first))] else [])
        more := decide (first + min count (s.buckets hub - first) < s.buckets hub) })))
    ∧ (∀ hub, s.serves m { fm := true, query := true } = true → hub < s.hubs →
      exec (.cohStats m hub) s = .next (State.settle (s.respond m (okBody [(4, s.coh.backInv.or hub 0),
        (4, (s.coh.txns.filter (fun t => t.hub == hub)).length), (4, s.coh.lost.or hub 0)]))))

/-! Ports. -/

/-- Training steps and their timers. Link events and power states of a port that is up. Rows of R172, R175, R178, R182, R185,
R186. Completion of `signalDetect`, `noSignalTimeout`, `laneLock`, `exchangeTimeout`, `savedRecordLockTimeout`,
`equalisationDone`, `capabilityBlock`, `trainingRetryTimer`, `linkLossTimeout`, `fecLockLoss`, `uncorrectableBurst`,
`laneSignalLoss`, `pl1EntryTimer`, `pl2Timer`, `lpAck`, `lpReq`, `lpNak`, `pl2Wake`, `pl2WakeTimeout`. -/
def Obligations.TrainingAndLinkEventsComplete : Prop :=
  (∀ (s : State) (p : Nat), p < s.variant.ports →
      ((s.port p).trains = true →
        ((s.port p).train.step = 1 →
          exec (.signalDetect p) s = .next (s.rouse.updTrain p (fun t => { t with step := 2 })).settle
          ∧ exec (.noSignalTimeout p) s = .next (s.failTraining p 1).settle)
        ∧ ((s.port p).train.step = 2 → (∀ lanes, exec (.laneLock p lanes) s = .next (State.settle
            (s.updTrain p (fun t => { t with lanes := lanes % 16 }))))
          ∧ exec (.exchangeTimeout p) s = .next (s.failTraining p 7).settle)
        ∧ (∀ need, (s.port p).train.step = 4 →
          need = (((s.port p).train.blk.map (fun b => (s.port p).train.needs (s.port p).train.mode b)).getD 0) →
          exec (.savedRecordLockTimeout p) s = .next (s.updTrain p (fun t => { t with saved := false })).settle
          ∧ (∀ lanes, (s.port p).train.saved = true → Nat.land (lanes % 16) need ≠ need →
            exec (.equalisationDone p lanes) s = .next (s.updTrain p (fun t => { t with saved := false })).settle)
          ∧ (∀ lanes, (s.port p).train.saved = true → Nat.land (lanes % 16) need = need → lanes % 16 ≠ 0 →
            exec (.equalisationDone p lanes) s = .next (State.settle
              (((s.updPort p (fun q => { q with record := (s.port p).record })).updTrain p (fun t => { t with
                step := 5, lanes := lanes % 16 })).confirm p)))
          ∧ (∀ lanes rec_ v, (s.port p).train.saved = false → lanes % 16 ≠ 0 →
            s.newRecord (s.port p).train (lanes % 16) = (rec_, v) →
            exec (.equalisationDone p lanes) s = .next (State.settle
              (((v.updPort p (fun q => { q with record := rec_ })).updTrain p (fun t => { t with
                step := 5, lanes := lanes % 16 })).confirm p)))
          ∧ (∀ lanes t, (s.port p).train.saved = false → lanes % 16 = 0 →
            t = s.updTrain p (fun t => { t with
                rates := t.rates - (if bit t.rates (modeWR (s.port p).train.mode).2 then 2 ^ (modeWR (s.port p).train.mode).2 else 0),
                rounds := t.rounds + 1 }) →
            exec (.equalisationDone p lanes) s = .next (State.settle
              (if 3 ≤ (s.port p).train.rounds + 1 then t.failTraining p 2 else t.exchanged p))))
        ∧ (∀ blk, 2 ≤ (s.port p).train.step → blkValid blk = false →
          exec (.capabilityBlock p blk) s = .next (s.updTrain p (fun t => { t with lastBlk := none })).settle)
        ∧ (∀ blk t, 2 ≤ (s.port p).train.step → blkValid blk = true →
          t = s.updTrain p (fun t => if bfld blk 324 324 = 1 then t.takeConfirm blk else t.take blk) →
          exec (.capabilityBlock p blk) s = .next (State.settle (if (t.port p).train.step = 2 then t.exchanged p
            else if (t.port p).train.step = 5 then t.confirm p else t))))
      ∧ ((s.port p).st = .down → s.portsLive = true →
        exec (.trainingRetryTimer p) s = .next (s.startTraining p).settle))
  ∧ (∀ (s : State) (p : Nat), (s.port p).isUp = true →
      ((s.port p).pstate ≠ 2 →
        exec (.linkLossTimeout p) s = .next (s.linkLoss p).settle
        ∧ exec (.fecLockLoss p) s = .next (s.linkLoss p).settle
        ∧ exec (.uncorrectableBurst p) s = .next (s.linkLoss p).settle
        ∧ (∀ lane ∈ (s.port p).activeLanes, exec (.laneSignalLoss p lane) s = .next (s.linkLoss p).settle)
        ∧ ((s.port p).lpm = true → (s.port p).pstate = 0 →
          exec (.pl1EntryTimer p) s = .next (s.updPort p (fun q => { q with pstate := 1 })).settle)
        ∧ ((s.port p).lpm = true → (s.port p).pl2En = true → (s.port p).lp = 0 →
          exec (.pl2Timer p) s = .next ((s.linkMsg p 0x70).updPort p (fun q => { q with lp := 1 })).settle)
        ∧ ((s.port p).lp = 1 →
          exec (.lpAck p) s = .next (((s.takeLinkMsg p 0x71).updPort p (fun q => { q with lp := 4 })).pl2If p).settle
          ∧ exec (.lpReq p) s = .next (((s.takeLinkMsg p 0x70).updPort p (fun q => { q with lp := 5 })).pl2If p).settle
          ∧ exec (.lpNak p) s = .next ((s.takeLinkMsg p 0x72).updPort p (fun q => { q with lp := 0 })).settle)
        ∧ ((s.port p).lp ≠ 1 → exec (.lpReq p) s = .next (State.settle
            (if (s.port p).lpm = true ∧ (s.port p).pl2En = true ∧ (s.port p).link.egressEmpty = true then
              ((s.takeLinkMsg p 0x70).linkMsg p 0x71).updPort p (fun q => { q with lp := 3 })
             else (s.takeLinkMsg p 0x70).linkMsg p 0x72))))
      ∧ ((s.port p).pstate = 2 → (s.port p).lp ≠ 2 → exec (.pl2Wake p) s = .next (State.settle
          ((s.silence p).updPort p (fun q => { q with
            lp := 2, retrains := sat 8 (q.retrains + 1), train := q.freshTrain }))))
      ∧ ((s.port p).lp = 2 → exec (.pl2WakeTimeout p) s = .next (s.linkLoss p).settle))

/-- Port commands of the fleet manager. Rows of R171, R176, R178, R179, R180, R185, R214, R215. Completion of `portQuery`,
`portLinkStats`, `portMarkAbsent`, `portSetModes`, `portTrain`, `portDisable`, `portAdmit`, `portSetPower`, `portSetLink`,
`recordFlashCopy`. -/
def Obligations.PortCommandsComplete : Prop :=
  ∀ (s : State) (m mask : Nat), mask < 2 ^ 96 →
    (s.serves m { fm := true, query := true } = true → exec (.portQuery m mask) s = .next (State.settle
      (s.respond m (okBody ((maskPorts mask).flatMap (fun p => [(8, s.portWord p), (8, (s.port p).word.toNat)]))))))
    ∧ (s.serves m { fm := true } = true →
      (∀ clear, (∀ p ∈ maskPorts mask, s.portPresent p = true) → (maskPorts mask).length ≤ 48 → clear ≤ 1 →
        exec (.portLinkStats m mask clear) s = .next (State.settle
        ((if clear = 1 then (maskPorts mask).foldl (fun s p => s.updPort p (fun q => { q with stats := [] })) s else s).respond m
          (okBody (recs 64 ((maskPorts mask).map (fun p => (s.port p).statsBlock)))))))
      ∧ (exec (.portMarkAbsent m mask) s = .next (State.settle (s.eachPort m mask (fun s p =>
          if s.variant.ports ≤ p then s
          else ((if (s.port p).isUp then s.loseLink p else s.silence p).updPort p (fun q => { q with
            st := .absent, cause := 10, admOk := false })).windowOver p))))
      ∧ ((∀ p ∈ maskPorts mask, s.portPresent p = true) →
        (∀ rates widths, rates ≤ 7 → widths ≤ 7 → exec (.portSetModes m mask rates widths) s = .next (State.settle
          (s.eachPort m mask (fun s p => s.updPort p (fun q => { q with rates, widths })))))
        ∧ (∀ full, full ≤ 1 → s.portsLive = true → exec (.portTrain m mask full) s = .next (State.settle
            (s.eachPort m mask (fun s p =>
              let s := if full = 1 then s.updPort p (fun q => { q with record := none }) else s
              (if (s.port p).isUp then (s.loseLink p).windowOver p else s).startTraining p))))
        ∧ exec (.portDisable m mask) s = .next (State.settle (s.eachPort m mask (fun s p =>
            ((if (s.port p).isUp then s.loseLink p else s.silence p).updPort p (fun q => { q with
              st := .disabled, cause := 8 })).windowOver p)))
        ∧ exec (.portAdmit m mask) s = .next (State.settle (s.eachPort m mask (fun s p =>
            if (s.port p).isUp then s.admitPort p else s)))
        ∧ (∀ pl2 t1 t2, pl2 ≤ 1 → 1 ≤ t1 → t1 ≤ 10000 → 1 ≤ t2 → t2 ≤ 10000 →
          exec (.portSetPower m mask pl2 t1 t2) s = .next (State.settle (s.eachPort m mask (fun s p =>
            s.updPort p (fun q => { q with pl2En := pl2 == 1, pl1Us := t1, pl2Ms := t2 })))))
        ∧ (∀ word, linkWordBad word = false → exec (.portSetLink m mask word) s = .next (State.settle
            (s.eachPort m mask (fun s p => s.updPort p (fun q => Port.remap { q with word })))))))
    ∧ exec .recordFlashCopy s = .next (State.settle { s with flash := { s.flash with
        portRecords := s.ports.filterMap (fun p => p.2.record.map (fun r => (p.1, r))), memRecords := s.pool.memRecords } })

/-! The link layer. -/

/-- Flits and timers of a link. Rows of R195, R198, R201, R202, R205, R206, R207, R208, R376. Completion of `initFlit`,
`linkInitTimeout`, `ackTimerExpiry`, `replayTimerExpiry`, `replayExpiryLimit`, `burstLimitExpiry`, `flitSlot`,
`creditReturnDue`, `flitReceive`, `testPortInject`. -/
def Obligations.LinkLayerCompletes : Prop :=
  ∀ (s : State) (p : Nat), p < s.variant.ports →
    (∀ grants rx, (s.port p).trains = true → (s.port p).isUp = false → (s.port p).train.step = 6 →
      (∀ v < 8, maxUnits v ≤ grants.getD v 0) →
      exec (.initFlit p grants 1 rx) s = .next (State.settle (if rx = 1 then
        ((s.updLink p (fun l => { l with sawInit := true })).updLink p (fun l => { l with
          ready := true, grants, credits := grants, nextSeq := 0, expect := 0 })).declareUp p
        else s.updLink p (fun l => { l with sawInit := true }))))
    ∧ (∀ grants version rx, (s.port p).isUp = true → (s.port p).lp ≠ 2 → (s.port p).pstate ≠ 2 →
      (s.port p).link.live = true → exec (.initFlit p grants version rx) s = .next (s.protocolError p).settle)
    ∧ ((s.port p).trains = true → (s.port p).train.step = 6 → (s.port p).link.ready = false →
      exec (.linkInitTimeout p) s = .next (s.failTraining p 7).settle)
    ∧ ((s.port p).isUp = true → (s.port p).pstate ≠ 2 →
      ((s.port p).link.ackTimer = true →
        exec (.ackTimerExpiry p) s = .next (s.updLink p (fun l => { l with ackDue := true })).settle)
      ∧ ((s.port p).link.replay ≠ [] →
        exec (.replayTimerExpiry p) s = .next (s.replayExpiry p).settle
        ∧ (15 ≤ (s.port p).link.expiries → exec (.replayExpiryLimit p) s = .next (State.settle
          (((s.linkStat p 5 1).updLink p (fun l => { l with expiries := l.expiries + 1, replayAt := some 0 })).linkLoss p))))
      ∧ exec (.burstLimitExpiry p) s = .next (State.settle (s.updLink p (fun l => { l with
          grant := l.grant.map (fun g => { g with expired := g.over }) })))
      ∧ ((s.port p).link.ready = true →
        exec (.flitSlot p) s = .next (s.slot p).settle
        ∧ ((s.port p).link.owes = true → exec (.creditReturnDue p) s = .next (s.slot p).settle)
        ∧ (∀ (f : Flit) (r : State),
            r = (s.updLink p (fun l => { l with rxCount := l.rxCount + 1 })).linkStat p 2 f.corrected →
            (f.fecBad = true → exec (.flitReceive p f) s = .next (r.linkStat p 1 1).settle)
            ∧ (f.fecBad = false → f.crcBad = true → exec (.flitReceive p f) s = .next (r.linkStat p 0 1).settle)
            ∧ (f.fecBad = false → f.crcBad = false →
              (f.bad = true ∨ (f.typ = 2 ∧ (r.port p).link.live = true)) →
              exec (.flitReceive p f) s = .next (r.protocolError p).settle)
            ∧ (∀ t : State, f.fecBad = false → f.crcBad = false → f.bad = false → f.typ ≠ 2 →
              t = r.updLink p (fun l => ({ (if f.ackV then l.acked f.ackSeq else l) with live := true } : Link)) →
              exec (.flitReceive p f) s = .next (State.settle (State.pl2If
                (if f.typ ≠ 1 then t
                 else if (f.seq + 4096 - (t.port p).link.expect) % 4096 = 0 then t.acceptFlit p f
                 else if 3072 ≤ (f.seq + 4096 - (t.port p).link.expect) % 4096 then
                  (t.linkStat p 4 1).updLink p (fun l => { l with ackDue := true })
                 else t.linkStat p 3 1) p))))))
    ∧ ((s.port p).isUp = false → (s.port p).trains = true → (s.port p).train.step = 6 →
      exec (.flitSlot p) s = .next (s.onWire p (initFlit (s.port p).link.sawInit).sealed).settle
      ∧ (∀ f : Flit, f.fecBad = false → f.crcBad = false → exec (.flitReceive p f) s = .next (State.settle
          (((s.updLink p (fun l => { l with rxCount := l.rxCount + 1 })).linkStat p 2 f.corrected).initReceive p f))))
    ∧ (∀ m kind count, s.serves m { fm := true } = true → p < 96 → s.portPresent p = true → kind ≤ 2 → 1 ≤ count →
      count ≤ 255 → (s.port p).link.inject = none →
      exec (.testPortInject m p kind count) s = .next (State.settle
        ((s.updLink p (fun l => { l with inject := some (kind, count) })).respond m okResp)))

/-! Routing, messages and multicast. -/

/-- Routing commands. Transit, multicast writes, context ends, message trackers and route pins. Rows of R218, R222, R224,
R226, R231, R233, R234, R324, R375. Completion of `nodeConfig`, `routeSet`, `vsetSet`, `routeUnpin`, `flockSet`,
`routeQuery`, `transitForward`, `mcWr`, `ctxEnded`, `messageTrackerTake`, `msgTimeout`, `pinIdle`. -/
def Obligations.RoutingAndMessagesComplete : Prop :=
  (∀ (s : State) (m : Nat),
      (s.serves m { fm := true } = true →
        (∀ word, 1 ≤ bfld word 39 30 → bfld word 39 30 ≤ 1000 → bfld word 29 22 ≠ 0 → bfld word 21 0 = 0 →
          exec (.nodeConfig m word) s = .next (State.settle ((s.updNet (fun n => { n with word })).respond m okResp)))
        ∧ (∀ first entries, first < 65536 → entries ≠ [] → entries.length ≤ 500 → first + entries.length ≤ 65536 →
          (∀ p ∈ entries.flatMap entryPorts, p ≤ 95 ∧ s.portPresent p = true) →
          (∀ e ∈ entries, fld e 53 32 = 0 ∧ e < 2 ^ 64) →
          exec (.routeSet m first entries) s = .next (State.settle ((s.updNet (fun n => { n with
            routes := putAll n.routes first (entries.map (BitVec.ofNat 64)) })).respond m okResp)))
        ∧ (∀ set nodes, set ≤ 255 → nodes.length ≤ 64 → (∀ n ∈ nodes, n ≤ 0xFFFF) →
          exec (.vsetSet m set nodes) s = .next (State.settle
            ((s.updNet (fun n => { n with vsets := n.vsets.put set nodes })).respond m okResp)))
        ∧ (∀ node, node ≤ 0xFFFF →
          exec (.routeUnpin m node) s = .next (State.settle ((s.updNet (fun n => { n with
            pins := n.pins.filter (fun x => x.key.dstNode != node) })).respond m
              (okBody [(4, (s.net.pins.filter (fun x => x.key.dstNode == node)).length)]))))
        ∧ (∀ flock entry, flock ≤ 4095 → bfld entry 125 112 = 0 →
          (∀ p ∈ bitsOf (bfld entry 95 0) 96, s.portPresent p = true) →
          exec (.flockSet m flock entry) s = .next (State.settle
            ((s.updNet (fun n => { n with flocks := n.flocks.put flock entry })).respond m okResp))))
      ∧ (∀ kind first count top, s.serves m { fm := true, query := true } = true → kind ≤ 2 →
        top = (if kind = 0 then 65536 else if kind = 1 then 256 else 4096) → first < top → 1 ≤ count → count ≤ 250 →
        ∀ l next, s.queryEntries kind first (min count (top - first)) [] = (l, next) →
        exec (.routeQuery m kind first count) s = .next (State.settle (s.respond m {
          status := .ok
          body := (l ++ [(8, s.net.word.toNat), (4, sat 32 s.net.pinFull)]) ++ (if next < top then [(4, next)] else [])
          more := decide (next < top) }))))
  ∧ (∀ s : State,
      (∀ p pkt, exec (.transitForward p pkt) s = .next (s.transit p pkt).settle)
      ∧ (∀ p h data, exec (.mcWr p h data) s = .next (s.transit p { hdr := h, data }).settle)
      ∧ (∀ p h a b c d, s.turn p h = true → exec (.ctxEnded p h a b c d) s = .next (State.settle
          ((s.consume p h).updNet (fun n => { n with ctxEnded := n.ctxEnded + 1 }))))
      ∧ (∀ iod, exec (.messageTrackerTake iod) s = .next (State.settle
          ((s.net.msgWait.filter (fun w => w.1 == iod)).foldl (fun s w => s.rerun w.2)
            (s.updNet (fun n => { n with msgWait := n.msgWait.filter (fun w => w.1 != iod) })))))
      ∧ (∀ iod key x u, s.msg? key = some x → x.iod = iod →
          u = (s.dropMsg key).updNet (fun n => { n with
            closed := if x.hdr.msgLen - x.got = 0 then n.closed else n.closed ++ [(key, x.hdr.msgLen - x.got)] }) →
          exec (.msgTimeout iod key) s = .next (State.settle
              (u.refuse x.port 65 x.hdr .timeout (u.claimOf 0 x.hdr.ctxTag))))
      ∧ (∀ iod key, exec (.pinIdle iod key) s = .next (s.unpin (some iod) key).settle))

/-! Memory units. -/

/-- Memory-unit commands take their effect when their checks pass. Rows of R237, R240, R250, R251, R253, R254, R375.
Completion of `memConfigQuery`, `memAddrDecode`, `memPcSnapshot`, `memSchedSet`, `memPcUnfreeze`, `memPcSpare`,
`memUnitMarkAbsent`, `spareCopyDone`. -/
def Obligations.MemoryUnitCommandsComplete : Prop :=
  ∀ (s : State) (m : Nat),
    (s.serves m { fm := true, query := true, need := 1 } = true →
      (∀ g, g < 64 → s.groupPresent g = true → exec (.memConfigQuery m g) s = .next (State.settle
        (s.respond m (okBody [(8, (s.group g).word.toNat), (8, s.pool.scrubWord.toNat)]))))
      ∧ (∀ ppa u, s.unitOf ppa = some u → exec (.memAddrDecode m ppa) s = .next (State.settle (s.respond m (okBody
          [(2, u), (2, s.physical u), (1, (s.locate ppa).sid), (1, (s.locate ppa).bg), (1, (s.locate ppa).bank),
           (4, (s.locate ppa).row), (4, (s.locate ppa).col)]))))
      ∧ (∀ u f, (s.unitGone u).1 = false → (s.unit u).frozen = some f →
        exec (.memPcSnapshot m u) s = .next (State.settle
          (s.respond m (okBody ((128, f.header u) :: recs 16 ((f.rq ++ f.wq).map QEntry.snap)))))))
    ∧ (s.serves m { fm := true, need := 1 } = true →
      (∀ g word, g < 64 → s.groupPresent g = true → schedBad word = false →
        exec (.memSchedSet m g word) s = .next (State.settle ((s.updGroup g (fun x => { x with word })).respond m okResp)))
      ∧ (∀ u f, (s.unitGone u).1 = false → (s.unit u).frozen = some f → (s.unit u).sparing = none →
        f.contentsLost = true →
        exec (.memPcUnfreeze m u) s = .next (s.respond m { status := .notPermitted }).settle)
      ∧ (∀ u f t, (s.unitGone u).1 = false → (s.unit u).frozen = some f → (s.unit u).sparing = none →
        f.contentsLost = false → t = s.updUnit u (fun m => MemUnit.restartPass { m with frozen := none }) →
        exec (.memPcUnfreeze m u) s = .next (State.settle (State.respond (((if t.unitOf f.failPpa = some u
            ∧ ¬(f.cause ≠ 1 ∧ f.failPpa = 0) then
          (t.store u { t.entry f.failPpa {} with
            write := true, bytes := (deniedSector f.failPpa .poison).data, poison := true }
            { poison := true, remote := t.remoteBit f.failPpa }).log 6 u f.failPpa 1 1 [] none
          else t).writeBackUnit u).undegrade u) m okResp)))
      ∧ (∀ u f mode, (s.unitGone u).1 = false → u < 768 → (s.unit u).frozen = some f → (s.unit u).sparing = none →
        mode ≤ 1 → s.freeSpares u ≠ [] →
        exec (.memPcSpare m u mode) s = .next (State.settle ((s.choose (s.freeSpares u) 0).2.updUnit u (fun x => { x with
          sparing := some ((s.choose (s.freeSpares u) 0).1, mode == 1 || f.contentsLost, m) }))))
      ∧ (∀ kind num sid, kind ≤ 3 → (kind = 3 → sid ≤ 3) →
        (kind = 2 ∨ (markTargets kind num).any (fun u => 768 ≤ u) = false) →
        (markTargets kind num).all (s.markedAlready kind sid) = false →
        exec (.memUnitMarkAbsent m kind num sid) s = .next (State.settle
          ((((markTargets kind num).filter (fun u => !s.markedAlready kind sid u)).foldl (fun s u =>
            s.markUnit u (if kind = 3 then some sid else none)) s).respond m okResp))))
    ∧ (∀ u k poison mb, (s.unit u).sparing = some (k, poison, mb) →
      exec (.spareCopyDone u) s = .next (State.settle
        ((((if poison = true ∨ (s.unit u).frozen.any (·.contentsLost) = true then s.poisonSlice u
           else (s.copySlice u true).2).fireFlip (u / 64 * 64 + k) (sliceBase u) none).pointAt u k).respond mb okResp)))

/-- Slot ticks, refresh, temperature and the errors of a memory unit. Rows of R244, R245, R246, R248, R262, R290. Completion
of `memSlotTick`, `refreshTick`, `ddr5RefreshTick`, `refreshWindowStart`, `temperatureBandChange`, `sectorReadDecode`,
`caParityError`, `lockLost`. -/
def Obligations.MemoryScheduleCompletes : Prop :=
  ∀ s : State,
    (∀ g, g < 64 → s.boot.held = false → s.boot.stopped = false →
      (s.guardSlot g s.slotNow = true → exec (.memSlotTick g) s = .next (State.settle ((s.groupLive g).foldl (fun s u =>
        (s.updUnit u (fun m => m.precharge s.clock.aon)).refreshDue u) s)))
      ∧ (s.guardSlot g s.slotNow = false → ∀ t v, t = (s.groupLive g).foldl (fun s u =>
            s.updUnit u (fun m => { m with guarded := [] })) s →
          v = (if t.strictGroup g then t else (s.groupLive g).foldl (fun s u => s.refreshDue u) t) →
          exec (.memSlotTick g) s = .next (State.settle (match v.eligible g s.slotNow with
            | (none, w) => w
            | (some p, w) => (s.groupLive g).foldl (fun s u => s.slotUnit u p s.slotNow
                (s.slotOwner g (s.slotNow) == some p)) w))))
    ∧ (∀ u, u < 768 → s.refreshing u = true → exec (.refreshTick u) s = .next (State.settle
        (s.updUnit u (fun m => m.refresh (fun _ => true) 0 s.clock.aon))))
    ∧ (∀ dc rank k r, dc < 16 → s.refreshing (0x8000 + dc) = true → (s.ranksOf dc)[rank]? = some (k, r) →
      exec (.ddr5RefreshTick dc rank) s = .next (State.settle
        (s.updUnit (0x8000 + dc) (fun m => m.refresh (fun b => b / 256 == 16 * k + r) (at_ r 4 4) s.clock.aon))))
    ∧ (∀ u, s.assembled u = true → exec (.refreshWindowStart u) s = .next (State.settle (s.updUnit u (fun m => { m with
        act := [], neigh := [], storm := [], frozen := m.frozen.map (fun f => { f with refreshErrs := 0 }) }))))
    ∧ (∀ u hot us t, s.assembled u = true → (s.unit u).hot ≠ (hot == 1) →
      us = (if u < 768 then (List.range 64).map (fun i => u / 64 * 64 + i) else [u]) →
      t = us.foldl (fun s x => s.updUnit x (fun m => { m with hot := hot == 1 })) s →
      exec (.temperatureBandChange u hot) s = .next (State.settle (t.postParts (t.memWork us) (fun _ =>
        throttleEv (if u < 768 then 0x4100 + u / 64 else u) 2 (hot != 1) t.now))))
    ∧ (∀ u ppa x t, s.unitOf (ppa / 64 * 64) = some u → s.fetch u (ppa / 64 * 64) {} = (x, t) →
      exec (.sectorReadDecode u ppa) s = .next (t.updPool (fun p => { p with lastRead := x.data })).settle)
    ∧ (∀ u ppa t, s.unitPresent u = true → t = s.freeze u 2 ppa [0, 0, 0] (s.inFlight u ppa) none →
      ((s.unit u).frozen = none → exec (.caParityError u ppa) s = .next t.settle)
      ∧ (∀ f g v, (s.unit u).frozen = some f → (t.unit u).frozen = some g →
        v = t.updUnit u (fun m => { m with frozen := some { g with
          refreshErrs := g.refreshErrs + 1, contentsLost := g.contentsLost || decide (4 ≤ g.refreshErrs + 1) } }) →
        exec (.caParityError u ppa) s = .next (State.settle
          (if g.contentsLost = false ∧ 4 ≤ g.refreshErrs + 1 then v.log 9 u ppa 1 0 [] none else v)))
      ∧ exec (.lockLost u ppa) s = .next (s.freeze u 3 ppa [0, 0, 0] (s.inFlight u ppa) none).settle)

/-! Scrubbing, retirement and logs. -/

/-- The strainer, the kettle and the initialisation of capacity memory. Rows of R263, R268, R270, R272. Completion of
`strainerTick`, `memScrubSet`, `kettleTimeout`, `capInitChunkDone`. -/
def Obligations.ScrubbingCompletes : Prop :=
  ∀ s : State,
    (∀ u sec e t d, s.unitPresent u = true → (s.unit u).frozen = none → (s.unit u).power ≠ 2 →
      bfld s.pool.scrubWord 53 53 ≠ 0 → s.boot.held = false → passSector (s.unitSectors u) (s.unit u).scrub = some sec →
      s.absentAt u sec = false → (s.unit u).wq.any (fun e => e.sector == sec) = false →
      e = s.entry sec { cls := 0, part := 65, tag := 0x10000 } → ((s.makeRoom u false 65).unit u).frozen = none →
      t = (s.makeRoom u false 65).command_ u e → d = t.decodeAt u sec →
      exec (.strainerTick u) s = .next (State.settle (if d.out = 2 then t.freeze u 1 sec d.synd (some e) none
        else (if d.out = 1 then t.scrubCorrected u sec d else t).advancePass u)))
    ∧ (∀ m word, s.serves m { fm := true, need := 1 } = true → scrubBad word = false →
      exec (.memScrubSet m word) s = .next (State.settle ((s.updPool (fun p => { p with
        scrubWord := word
        units := if bfld s.pool.scrubWord 53 53 = 0 ∧ bfld word 53 53 = 1 then p.units.map (fun u => (u.1, u.2.restartPass))
          else p.units })).respond m okResp)))
    ∧ (∀ sector, exec (.kettleTimeout sector) s = .next (s.kettleForce (sector / 64 * 64)).settle)
    ∧ (∀ chunk u, s.unitOf (chunk * 65536) = some u → 768 ≤ u → s.boot.stage = 8 → s.denied u (chunk * 65536) = none →
      exec (.capInitChunkDone chunk) s = .next (State.settle
        ((s.updPool (fun p => { p with capInit := addSorted p.capInit chunk })).fireFlip u (chunk * 65536) none)))

/-- Retirement, sparing, test flips and the error log. Rows of R273, R274, R275, R276, R277. Completion of `testFlipArm`,
`testFlipDisarm`, `memRetireClear`, `logRead`, `memRetireQuery`, `memRetirePage`, `retireCopyDone`, `memRetireBank`,
`bankSpareDone`, `retireFlashCopy`. -/
def Obligations.RetirementCommandsComplete : Prop :=
  ∀ (s : State) (m : Nat),
    (∀ u mask, s.serves m { fm := true, need := 1 } = true → s.unitPresent u = true → mask % 2 ^ 576 ≠ 0 →
      s.pool.flip = none → exec (.testFlipArm m u mask) s = .next (State.settle
        ((s.updPool (fun p => { p with flip := some (u, BitVec.ofNat 576 mask) })).respond m okResp)))
    ∧ (s.serves m { fm := true } = true →
      exec (.testFlipDisarm m) s = .next (State.settle (if s.pool.flip.isSome = true then
        (s.updPool (fun p => { p with flip := none })).respond m okResp else s.respond m { status := .okEmpty }))
      ∧ (∀ idx r, s.pool.retired[idx]? = some r → exec (.memRetireClear m idx) s = .next (State.settle
          ((s.updPool (fun p => { p with
            unretire := if p.unretire.contains r then p.unretire else p.unretire ++ [r] })).respond m okResp))))
    ∧ (s.serves m { fm := true, query := true } = true →
      (∀ hub first count all l, hub < s.hubs → 1 ≤ count → count ≤ 63 → all = (s.pool.log.or hub []).reverse →
        l = (all.drop first).take count →
        exec (.logRead m hub first count) s = .next (State.settle (s.respond m {
          status := .ok
          body := (l.map (fun r => (64, r.toNat)) ++ [(4, sat 32 (s.pool.logLost.or hub 0))])
            ++ (if first + l.length < all.length then [(4, first + l.length)] else [])
          more := decide (first + l.length < all.length) })))
      ∧ (∀ first l, l = (s.pool.retired.drop first).take 256 →
        exec (.memRetireQuery m first) s = .next (State.settle (s.respond m {
          status := .ok
          body := recs 8 (l.map Retired.word)
            ++ (if first + l.length < s.pool.retired.length then [(4, first + l.length)] else [])
          more := decide (first + l.length < s.pool.retired.length) }))))
    ∧ (∀ ppa u, s.serves m { fm := true, need := 1 } = true → s.unitOf ppa = some u → ppa % 65536 = 0 →
      s.unitPresent u = true → s.inCaddy ppa = false → s.inDir ppa = false → s.isSpare u = false →
      (s.unit u).frozen = none → s.chunkMigrates (ppa / 65536) = false →
      s.pool.moves.any (fun x => x.1 == ppa / 65536) = false → s.pool.retired.contains (.page (ppa / 65536)) = false →
      s.retiredOn (unitHub u) < 16384 →
      (s.chunkHeld (ppa / 65536) = false → exec (.memRetirePage m ppa) s = .next (State.settle
        ((s.updPool (fun p => { p with retired := p.retired ++ [.page (ppa / 65536)] })).respond m okResp)))
      ∧ (∀ n use, s.chunkHeld (ppa / 65536) = true → s.chunks.at? (ppa / 65536) = some use →
        (s.nearChunks u (ppa / 65536)).findSome? (fun r =>
          firstFree (fun x => !s.chunkFree x || x == ppa / 65536) r.1 r.2 s.draw.1) = some n →
        exec (.memRetirePage m ppa) s = .next (State.settle (State.updPool { s.draw.2 with chunks := s.chunks.put n use }
          (fun p => { p with moves := p.moves ++ [(ppa / 65536, n, m)] })))))
    ∧ (∀ ppa c n mb, c = ppa / 65536 → s.pool.moves.find? (fun x => x.1 == c) = some (c, n, mb) →
      (s.chunkHeld c = false → exec (.retireCopyDone ppa) s = .next (State.settle
        ((((s.updPool (fun p => { p with moves := p.moves.filter (fun x => x.1 != c) })).updPool (fun p => { p with
          retired := p.retired ++ [.page c] })).zeroLater [n] 0).respond mb okResp)))
      ∧ (∀ t v, s.chunkHeld c = true → s.recallAll (s.chunkCopies c) true = (true, t) → t.chunkOpen c = false →
        v = t.copyPage c n →
        exec (.retireCopyDone ppa) s = .next (State.settle (
          if (v.unitOf ppa).any (fun u => (v.unit u).frozen.isSome) = true then
            ((v.updPool (fun p => { p with moves := p.moves.filter (fun x => x.1 != c) })).zeroLater [n] 0).respond mb
              { status := .pcFrozen }
          else ((((v.rechunk c n).zeroChunk c).updPool (fun p => { p with
            moves := p.moves.filter (fun x => x.1 != c) })).updPool (fun p => { p with
            retired := p.retired ++ [.page c] })).respond mb okResp))))
    ∧ (∀ u sid bg bank, s.serves m { fm := true, need := 1 } = true → s.unitPresent u = true →
      s.bankThere u sid bg bank = true → (s.unit u).frozen = none →
      (∀ t, t = (if s.pool.retired.contains (.bank u sid bg bank) then s else
          (s.updPool (fun p => { p with retired := p.retired ++ [.bank u sid bg bank] })).log 6 u (s.bankBase u sid bg bank)
            1 3 [] none) →
        exec (.memRetireBank m u sid bg bank 1) s = .next (State.settle
          (((t.dropAbsent u).degrade (t.fencedRegions u)).respond m okResp)))
      ∧ (u < 768 → s.variant.spares = true → s.freeSpares u ≠ [] →
        exec (.memRetireBank m u sid bg bank 0) s = .next (State.settle
          ((s.choose (s.freeSpares u) 0).2.updUnit u (fun x => { x with
            bankMove := some ((s.choose (s.freeSpares u) 0).1, m) })))))
    ∧ (∀ u k mb t, (s.unit u).bankMove = some (k, mb) →
      ((s.drainUnit u).copySlice u false = (none, t) →
        exec (.bankSpareDone u) s = .next (State.settle
          (((t.fireFlip (u / 64 * 64 + k) (sliceBase u) none).pointAt u k).respond mb okResp)))
      ∧ (∀ sec synd, (s.drainUnit u).copySlice u false = (some (sec, synd), t) →
        exec (.bankSpareDone u) s = .next (State.settle
          (t.freeze u 1 sec synd (some (t.entry sec { cls := 0, tag := 0x10000 })) none))))
    ∧ exec .retireFlashCopy s = .next (State.settle { s with flash := { s.flash with
        retired := s.pool.retired
        remaps := s.pool.units.filterMap (fun u => u.2.spare.map (fun k => (u.1, k)))
        absent := s.absentRefs
        absentIds := s.pool.units.flatMap (fun u => u.2.absentIds.map (fun i => (u.1, i))) } })

/-! The mirror. -/

/-- Mirror commands, and the transitions of the mirror role. Rows of R334, R335, R342, R346, R347, R375. Completion of
`mirrorPairSet`, `mirrorUnpair`, `mirrorQuery`, `mirrorBreak`, `pairFence`, `pairTakeover`, `pathSilent`, `claimFlashCopy`.
-/
def Obligations.MirrorCommandsComplete : Prop :=
  ∀ (s : State) (m : Nat),
    (∀ r : MirrorReq, s.serves m { fm := true, need := 2 } = true → s.noMirror = false →
      (∀ p ∈ bitsOf r.ports 96, s.portPresent p = true ∧ s.pairBad r.partner p = false) → bitsOf r.ports 96 ≠ [] →
      (bitsOf r.ports 96).length ≤ 4 → r.ports < 2 ^ 96 → r.role ≤ 1 → 1 ≤ r.rate → r.rate ≤ 360 →
      s.mirror.role = .unpaired →
      exec (.mirrorPairSet m r) s = .next (State.settle (({ s with mirror := { s.mirror with
        role := if r.role = 0 then .active else .standby, setId := r.set, partner := r.partner,
        ports := bitsOf r.ports 96, claim := r.claim, highest := r.claim, rate := r.rate } } : State).respond m okResp)))
    ∧ (s.serves m { fm := true } = true → s.noMirror = false → s.ctxs.any (fun c => c.2.mirror) = false →
      exec (.mirrorUnpair m) s = .next (State.settle ((s.dropForwards.updMirror (fun x => { absent := x.absent })).respond m
        { status := if s.mirror.role = .unpaired then .okEmpty else .ok })))
    ∧ (s.serves m { fm := true, query := true } = true → s.noMirror = false →
      exec (.mirrorQuery m) s = .next (State.settle (s.respond m (okBody [(2, s.mirror.setId), (1, s.mirror.role.code),
        (4, s.mirror.claim), (4, s.mirror.highest), (1, b2n s.mirror.hbxOk), (1, b2n s.mirror.ppOk)]))))
    ∧ (s.serves m { fm := true } = true → s.noMirror = false → s.mirror.role = .fenced → s.mirror.highest + 2 < 2 ^ 32 →
      exec (.mirrorBreak m) s = .next (State.settle
        ((s.toSolo (s.mirror.highest + 2)).respond m (okBody [(4, s.mirror.highest + 2)]))))
    ∧ (∀ n t, s.mirror.role = .active → s.stopServing = (n, t) → exec .pairFence s = .next (State.settle
        ((t.updMirror (fun x => { x with role := .fenced, ppOk := false, hbxOk := false, stale := x.stale + n })).fencedEv n)))
    ∧ (∀ t, s.mirror.role = .standby → s.mirror.highest + 1 < 2 ^ 32 →
        t = State.toSolo (s.updMirror (fun x => { x with ppOk := false, hbxOk := false })) (s.mirror.highest + 1) →
        exec .pairTakeover s = .next (State.settle (State.outside ((t.updCoh (fun c => { c with
            agents := c.agents.map (fun a => (a.1, { a.2 with lease := .reclaimed })) })).mirrorEv 0x21 0
              (at_ s.mirror.claim 32 0 + at_ (s.mirror.highest + 1) 32 32))
            t.mirror.setId 7 ((t.regions.filter (fun r => r.2.mirror)).map (·.1)))))
    ∧ (∀ path t, s.mirror.role ≠ .unpaired → path ≤ 1 →
        t = s.updMirror (fun x => if path = 0 then { x with ppOk := false } else { x with hbxOk := false }) →
        exec (.pathSilent path) s = .next (State.settle
            (if (s.mirror.role = .active ∨ s.mirror.role = .standby)
                ∧ (if path = 0 then s.mirror.hbxOk else s.mirror.ppOk) = true
                ∧ (if path = 0 then s.mirror.ppAlarm else s.mirror.hbxAlarm) = false then
              (t.updMirror (fun x => if path = 0 then { x with ppAlarm := true } else { x with hbxAlarm := true })).mirrorEv
                0x20 0 path
             else t)))
    ∧ exec .claimFlashCopy s = .next (State.settle { s with flash := { s.flash with claim := s.mirror.claim } })

/-- Beats, forwards, acknowledgements and the resynchronisation of a pair. Rows of R340, R345, R346, R349. Completion of
`mirBeatTick`, `hbxBeat`, `mirBeat`, `mirFwd`, `mirAck`, `mirSync`, `resyncCursorAdvance`, `resyncDone`. -/
def Obligations.MirrorPacketsComplete : Prop :=
  ∀ s : State,
    (∀ (h : Hdr) (t : State), s.beats = true →
      h = ({ incClaim := s.mirror.claim, dstNode := s.mirror.partner, srcNode := s.node, opcode := 0x74, msgLen := 32,
             ordered := s.ordClass 0, last := true } : Hdr).sized 32 →
      t = s.pairPorts.foldl (fun s p => s.egress p 65 { hdr := { h with vc := 7 }, data := leBytes 32 s.beatWord.toNat }) s →
      exec .mirBeatTick s = .next (State.settle { t.updMirror (fun x => { x with seq := (x.seq + 1) % 2 ^ 32 }) with
        pins := { t.pins with hbx := s.beatWord } }))
    ∧ (∀ payload crc, crc = crc32c (leBytes 32 payload.toNat) → s.beatOk payload = true →
      exec (.hbxBeat payload crc) s = .next (s.beat 1 payload).settle)
    ∧ (∀ p payload q, (s.port p).link.inbox.find? (fun q => q.hdr.opcode == 0x74 && leNat q.data == payload.toNat) = some q →
      s.turn p q.hdr = true → (s.consume p q.hdr).pairPorts.contains p = true → (s.consume p q.hdr).beatOk payload = true →
      exec (.mirBeat p payload) s = .next ((s.consume p q.hdr).beat 0 payload).settle)
    ∧ (∀ p h data t st u, s.fromPair p h → (s.consume p h).standby = true →
      (s.consume p h).mirror.highest ≤ h.incClaim →
      t = (s.consume p h).updMirror (fun x => { x with highest := max x.highest h.incClaim }) →
      t.pairWrite (h.addr / 2 ^ 44) (h.addr % 2 ^ 44) data h.poison 2 = (st, u) →
      exec (.mirFwd p h 0 data) s = .next (u.mirAck p h st).settle)
    ∧ (∀ p h data t r g b, s.fromPair p h → (s.consume p h).standby = true →
      (s.consume p h).mirror.highest ≤ h.incClaim →
      t = (s.consume p h).updMirror (fun x => { x with highest := max x.highest h.incClaim }) →
      b = { target := leNat (data.take 8) / 2 ^ 44, staging := leNat ((data.drop 8).take 8) / 2 ^ 44,
            v := BitVec.ofNat 64 (leNat ((data.drop 16).take 8)), w := BitVec.ofNat 64 (leNat ((data.drop 24).take 8)),
            asker := .mailbox 0 } →
      t.region? b.target = some r → t.region? b.staging = some g → r.mirror = true → g.mirror = true →
      exec (.mirFwd p h 1 data) s = .next ((t.pubSwap b r g).mirAck p h .ok).settle)
    ∧ (∀ p h status f t v w, s.fromPair p h → (s.consume p h).mirror.forwards.find? (fun f => f.tag == h.tag) = some f →
      t = (s.consume p h).updMirror (fun x => { x with forwards := x.forwards.erase f }) →
      v = (if f.join = 0 then t else (t.updCoh (fun c => { c with joins := c.joins.mod f.join (fun j =>
        { j with fwd := j.fwd - 1, status := if Status.ofCode status = .ok then j.status
          else worse j.status (Status.ofCode status) }) })).closeJoin f.join) →
      w = (if f.pub = 0 then v else (v.pubs.filter (fun b => b.swapped && b.target == f.pub)).foldl
        (fun s b => s.endPub b (Status.ofCode status)) v) →
      exec (.mirAck p h status) s = .next (State.settle (match f.desc with
        | some (q, i) => (w.modDesc q i (fun d => { d with status := worse d.status (Status.ofCode status) })).finishIf q i
        | none => w)))
    ∧ (∀ p h data st t, s.fromPair p h → (s.consume p h).mirror.role = .standbySync →
      (s.consume p h).mirror.highest ≤ h.incClaim →
      (s.consume p h).pairWrite (h.addr / 2 ^ 44) (h.addr % 2 ^ 44) data h.poison 0 = (st, t) →
      exec (.mirSync p h data) s = .next (t.updMirror (fun x => { x with copied := x.copied + data.length })).settle)
    ∧ (∀ rid off r t v bs w, s.mirror.syncing = true → s.pairPorts ≠ [] → s.syncNext = some (rid, off) →
      t = s.updMirror (fun x => { x with curRegion := rid, curOff := off }) → t.region? rid = some r →
      t.recallAll (t.granulesOf rid r.extent off 65536) false = (true, v) →
      (v.granPieces rid r.extent off 65536).foldl (fun (x : List (Byte × Bool) × State) g =>
        (x.1 ++ (x.2.readBytes g.2.1 g.2.2 { cls := 0, tag := 0x10000 }).1,
          (x.2.readBytes g.2.1 g.2.2 { cls := 0, tag := 0x10000 }).2.2)) ([], v) = (bs, w) →
      exec .resyncCursorAdvance s = .next (State.settle
        (((cutRun off bs).foldl (fun s c => s.pairSend (rid * 2 ^ 44 + off + c.1) 0x78 0 .plain c.2.1 c.2.2) w).updMirror
          (fun x => { x with curOff := off + 65536, copied := x.copied + 65536 }))))
    ∧ (s.mirror.syncing = true → s.syncNext = none →
      exec .resyncDone s = .next (State.settle ((s.updMirror (fun x => { x with
        role := .active, syncing := false, partnerRole := 3 })).mirrorEv 0x23 0 (at_ s.mirror.copied 64 0))))
    ∧ (s.mirror.syncing = false → s.mirror.role = .standbySync → s.mirror.returning = none →
      (s.mirror.partnerRole = 1 ∨ s.mirror.partnerRole = 2) →
      exec .resyncDone s = .next (s.updMirror (fun x => { x with role := .standby })).settle)

/-! Watchdogs and resets. -/

/-- Queue and engine watchdogs, the controller's own watchdog and its dump. Rows of R317, R318, R319. Completion of
`sheepdogExpiry`, `engineWdSet`, `engineReset`, `engineWdExpiry`, `engineSelfResetDone`, `dumpRead`, `mpcWatchdogKick`,
`mpcWdExpiry`, `mpcRestartDone`. -/
def Obligations.WatchdogCommandsComplete : Prop :=
  ∀ (s : State) (m : Nat),
    (∀ q u d t, s.queue? q = some u → s.oldest q = some d → s.dogRuns q u = true → t = s.postEq u.eq (s.dogEvent q u d) →
      (u.wdTear = false → exec (.sheepdogExpiry q) s = .next t.settle)
      ∧ (u.wdTear = true → ((t.postPart u.part (s.dogEvent q u d)).ctx? u.ctx).any (fun c => c.st == .active) = true →
        exec (.sheepdogExpiry q) s = .next (State.settle
          ((t.postPart u.part (s.dogEvent q u d)).startTeardown u.ctx none false false))))
    ∧ (∀ mask period, s.serves m { fm := true } = true → (∀ e ∈ maskEngines mask, s.enginePresent e = true) →
      maskBad mask = false → 1 ≤ period → period ≤ 1000 →
      exec (.engineWdSet m mask period) s = .next (State.settle
        (((maskEngines mask).foldl (fun s e => s.updEngine e (fun g => { g with wdMs := period })) s).respond m okResp)))
    ∧ (∀ kind num, s.serves m { fm := true } = true → kind ≤ 1 → num < 0x100 →
      s.enginePresent (if kind = 0 then num else 0x100 + num) = true →
      exec (.engineReset m kind num) s = .next (State.settle
        ((s.abandon (if kind = 0 then num else 0x100 + num)).respond m okResp)))
    ∧ (∀ e, (s.engine e).job.isSome = true → exec (.engineWdExpiry e) s = .next (s.abandon e).settle)
    ∧ (∀ e ok, (s.engine e).resetting = true → ∀ t : State, t = s.updEngine e (fun g => { g with
          resetting := false, outOfService := ok == 0, abandoned := none }) →
        exec (.engineSelfResetDone e ok) s = .next (State.settle ((match (s.engine e).abandoned with
          | some a => t.postPart a.part (wdEngine e (ok == 0) (s.engine e).abandoned)
          | none => t).postFm (wdEngine e (ok == 0) (s.engine e).abandoned))))
    ∧ (∀ off len d, s.serves m { fm := true, query := true } = true → s.mpc.dump = some d → off < d.length → 1 ≤ len →
      len ≤ 4032 → exec (.dumpRead m off len) s = .next (State.settle
        ((if d.length ≤ off + len then { s with pins := { s.pins with alert := dropVal s.pins.alert 1 } } else s).respond m
          (okBody [(((d.drop off).take len).length, leNat ((d.drop off).take len))]))))
    ∧ (s.mpc.armed = true →
      exec .mpcWatchdogKick s = .next (State.settle { s with mpc := { s.mpc with kicked := s.clock.aon } })
      ∧ (∀ state, (s.restartedLately = true → exec (.mpcWdExpiry state) s = .next s.warmReset.settle)
        ∧ (s.restartedLately = false → exec (.mpcWdExpiry state) s = .next (State.settle { s with
            mpc := { s.mpc with restarting := true, armed := false, dump := some (state.take 0x4000000) }
            pins := { s.pins with alert := addSorted s.pins.alert 1 } }))))
    ∧ (s.mpc.restarting = true → exec .mpcRestartDone s = .next (State.settle (({ s with mpc := { s.mpc with
        restarting := false, armed := true, kicked := s.clock.aon, restarts := s.mpc.restarts + 1,
        lastRestart := some s.clock.aon } } : State).postFm { typ := 0x1C, body := sat 32 (s.mpc.restarts + 1) })))

/-- Resets: of the chip by its pins, by command, by the link to the host, and of a function. Rows of R327, R328, R351, R417.
Completion of `powerOn`, `sysRstNAssert`, `sysRstNRelease`, `chipReset`, `resetDelayExpiry`, `perstN`, `vfFlr`, `pfFlr`. -/
def Obligations.ResetsComplete : Prop :=
  ∀ s : State,
    exec .powerOn s = .next (s.coldReset 0 true false).settle
    ∧ exec .sysRstNAssert s = .next (s.coldReset 1 true false).settle
    ∧ (∀ straps, s.boot.held = true → s.boot.stopped = false → exec (.sysRstNRelease straps) s = .next (State.settle
        (s.updBoot (fun b => { b with straps := BitVec.ofNat 4 straps, held := false, startAon := s.clock.aon }))))
    ∧ (∀ m kind renumber, s.serves m { fm := true } = true → kind ≤ 1 → (renumber = 0 ∨ (renumber = 1 ∧ kind = 1)) →
      s.boot.scheduled = none → exec (.chipReset m kind renumber) s = .next (State.settle
        ((s.updBoot (fun b => { b with scheduled := some kind, renumber := renumber == 1 })).respond m okResp)))
    ∧ (s.boot.scheduled = some 0 → exec .resetDelayExpiry s = .next s.warmReset.settle)
    ∧ (s.boot.scheduled = some 1 → exec .resetDelayExpiry s = .next (s.coldReset 2 false s.boot.renumber).settle)
    ∧ (∀ t : State, t = (s.mbs.map (·.1)).foldl (fun s m => s.dropHolder m) s →
        exec .perstN s = .next (State.settle { t with
            clock := { t.clock with latch := [] }, fw := { t.fw with sessions := [], spdm := [] },
            parts := t.parts.map (fun p => (p.1, { p.2 with hostClosed := p.2.hostClosed || p.2.bounce.isSome })) }))
    ∧ (∀ vf t p, 1 ≤ vf → vf ≤ 64 →
      t = State.endSessions { s.dropHolder vf with clock := { s.clock with latch := s.clock.latch.del vf } } vf →
      t.part? (vf - 1) = some p →
      exec (.vfFlr vf) s = .next (State.settle (if p.resetting = true then t.updMb vf (fun b => { b with vfReset := true })
        else (t.updMb vf (fun b => { b with vfReset := true })).startReset (vf - 1) none)))
    ∧ (exec .pfFlr s = .next (State.settle
        (State.endSessions { s.dropHolder 0 with clock := { s.clock with latch := s.clock.latch.del 0 } } 0)))

/-! Images, bring-up and boot service. -/

/-- Firmware commands: slot B is written, verified and swapped in; the fused security version follows what runs. Serving boot
images to a flock. Rows of R354, R363, R364, R375, R382. Completion of `fwQuery`, `fwWrite`, `fwCommit`, `fwSvnRaise`,
`bootServe`, `bootServeSend`, `bootServeQuery`, `bootServeStop`. -/
def Obligations.ImagesAndBootServeComplete : Prop :=
  (∀ (s : State) (m : Nat),
      (s.serves m { query := true, rom := true } = true → exec (.fwQuery m) s = .next (State.settle
        (s.respond m (okBody (s.flash.slotA.report ++ s.flash.slotB.report ++ [(1, s.fw.booted)])))))
      ∧ (s.serves m { fm := true, rom := true } = true →
        (∀ off data, data ≠ [] → data.length ≤ 4000 → off + data.length ≤ 0x3000000 →
          exec (.fwWrite m off data) s = .next (State.settle (({ s with flash := { s.flash with
            slotB := { s.flash.slotB with mem := s.flash.slotB.mem.write off data } } } : State).respond m okResp)))
        ∧ (∀ len, 1 ≤ len → len ≤ 0x3000000 → exec (.fwCommit m len) s = .next (State.settle
            (if s.verifies { s.flash.slotB with len := len } = true then ({ s with flash := { s.flash with
              slotA := { s.flash.slotB with len := len }, slotB := s.flash.slotA } } : State).respond m okResp
             else s.respond m { status := .authFail }))))
      ∧ (s.serves m { fm := true } = true → s.runsSlotA = true → exec (.fwSvnRaise m) s = .next (State.settle
          (if s.fw.svnRun ≤ s.fuses.svn then s.respond m { status := .okEmpty, body := [(1, s.fuses.svn)] }
           else ({ s with fuses := { s.fuses with svn := s.fw.svnRun } } : State).respond m (okBody [(1, s.fw.svnRun)])))))
  ∧ (∀ (s : State) (m : Nat),
      (∀ (r : ServeReq) (g : Region) (i : Nat), s.serves m { fm := true } = true → 0 < r.len → r.len ≤ 2 ^ 32 →
        s.region? (r.handle / 2 ^ 44) = some g → g.st = 1 → r.handle % 2 ^ 44 + r.len ≤ g.size * 65536 → r.flock < 4096 →
        bfld (s.flockEnt r.flock) 127 127 ≠ 0 → r.tc ≤ 7 → 1 ≤ r.rounds → r.rounds ≤ 16 → 1 ≤ r.rate → r.rate ≤ 90 →
        s.serving.any (fun v => v.2.req.flock == r.flock) = false → s.serving.length < 4 → s.boot.stage = 8 →
        firstFree s.fw.serves.has 0 65536 s.draw.1 = some i →
        exec (.bootServe m r) s = .next (State.settle (({ s.draw.2 with fw := { s.draw.2.fw with
          serves := s.draw.2.fw.serves.put i { req := r, extent := g.extent, order := s.draw.2.descOrder } } } : State).respond m (okBody [(4, i)]))))
      ∧ (∀ sid x bs st t, s.serving.find? (fun v => v.1 == sid) = some (sid, x) → s.serveBytes sid x = (true, bs, st, t) →
        ∃ u : State, u = ((t.flockWrites x.req.flock x.req.tc 0 (x.req.addr + x.pos) bs).1.foldl (fun s p => s.multicast 96 65 p)
            (t.flockWrites x.req.flock x.req.tc 0 (x.req.addr + x.pos) bs).2).updServe sid (fun v => { v with
              pos := v.pos + bs.length, sent := v.sent + bs.length, status := worse v.status st })
          ∧ exec (.bootServeSend sid) s = .next (State.settle (if x.pos + bs.length < x.req.total then u else u.roundEnd sid)))
      ∧ (∀ sid x, s.serves m { fm := true, query := true } = true → s.fw.serves.at? sid = some x →
        exec (.bootServeQuery m sid) s = .next (s.respond m (okBody [(2, x.round), (8, x.sent), (2, x.status.code)])).settle)
      ∧ (∀ sid x, s.serves m { fm := true } = true → s.fw.serves.at? sid = some x →
        exec (.bootServeStop m sid) s = .next (State.settle (if x.live = true then
          (s.updServe sid (fun v => { v with live := false })).respond m okResp else s.respond m { status := .okEmpty }))))

/-- Bring-up: stages end, the topology is awaited, error windows end, and the fleet manager reads and steers it. Rows of
R351, R358, R359, R361, R362. Completion of `bringUpStageDone`, `topoWaitExpiry`, `berWindowEnd`, `bootQuery`, `bootProceed`,
`topoExpectSet`, `topoExpectQuery`. -/
def Obligations.BringUpCommandsComplete : Prop :=
  ∀ (s : State) (m : Nat),
    (∀ r, s.boot.held = false → s.boot.stopped = false → s.mpc.restarting = false →
      exec (.bringUpStageDone r) s = .next (s.stageDone r).settle)
    ∧ (∀ t, s.boot.stage = 7 → s.boot.topoUse = some t → exec .topoWaitExpiry s = .next (State.settle
        (if s.requiredPass t = true then s.enterReady else s.stageTo 9)))
    ∧ (∀ p w, (s.port p).window = some w → exec (.berWindowEnd p) s = .next (State.settle
        (if (s.port p).windowOk w s.draw.1 = true then (s.draw.2.admitPort p).windowOver p
         else (((s.draw.2.loseLink p).updPort p (fun q => { q with
            st := .down, cause := 9, failures := q.failures + 1,
              retry := retryMs (q.failures + 1) })).portEvent 0x15 p).windowOver p)))
    ∧ (s.serves m { fm := true, query := true, rom := true } = true →
      exec (.bootQuery m) s = .next (s.respond m (okBody [(8, s.bootWord)])).settle)
    ∧ (s.serves m { fm := true } = true →
      exec (.bootProceed m) s = .next (State.settle
        (if s.boot.stage = 9 then s.enterReady.respond m okResp else s.respond m { status := .okEmpty }))
      ∧ (∀ store t, store ≤ 1 → (∀ p < 96, (t.entry p).isSome = true → s.portPresent p = true) →
        firstFail (topoBad t) = none → ∃ u : State,
          u = (if store = 1 then { s.updBoot (fun b => { b with topo := some t }) with
                flash := { (s.updBoot (fun b => { b with topo := some t })).flash with topo := some t } }
               else s.updBoot (fun b => { b with topo := some t }))
          ∧ exec (.topoExpectSet m store t) s = .next (State.settle
              ((if s.boot.stage = 7 ∨ s.boot.stage = 9 then u.enterTopo else u).respond m okResp))))
    ∧ (s.serves m { fm := true, query := true } = true →
      (∀ t, s.boot.topo = some t → exec (.topoExpectQuery m) s = .next (State.settle (s.respond m (okBody
        ((1, b2n (s.flash.topo == some t)) :: (8, t.policy.toNat)
          :: recs 4 (t.ports.map (·.toNat)) ++ recs 8 (t.neighbours.map (·.toNat)))))))
      ∧ (s.boot.topo = none → exec (.topoExpectQuery m) s = .next (s.respond m { status := .okEmpty }).settle))

/-! The mailbox. -/

/-- Accesses of mailbox registers and buffers that are let in, and the start and end of the command that a mailbox holds.
Rows of R365, R369, R374. Completion of `mbLockRead`, `mbLockWrite`, `mbDoorbellWrite`, `mbRejectsRead`, `mbRequestWrite`,
`mbHolderTimeout`, `mbCommandStart`, `mbCommandEnd`. -/
def Obligations.MailboxAccessesComplete : Prop :=
  ∀ (s : State) (m : Nat),
    (∀ src, s.mbOpen src m = true →
      exec (.mbLockRead src m) s = .next (State.settle
        (((s.mbBase src).lockRead src m).2.mbAnswer src ((s.mbBase src).lockRead src m).1))
      ∧ (∀ val, exec (.mbLockWrite src m val) s = .next (((s.mbBase src).lockWrite src m val).mbAnswer src 0).settle
        ∧ exec (.mbDoorbellWrite src m val) s = .next (((s.mbBase src).mbSubmit src m val).mbAnswer src 0).settle)
      ∧ exec (.mbRejectsRead src m) s = .next (State.settle
          (((s.mbBase src).updMb m (fun b => { b with rejects := 0 })).mbAnswer src ((s.mbBase src).mb m).rejects))
      ∧ (∀ off data, (match src with
          | .func _ => hostSized off data.length = true
          | .fabric _ h => h.msgLen ≤ data.length) →
        exec (.mbRequestWrite src m off data) s = .next (State.settle
          (((s.mbBase src).requestWrite src m off data).mbAnswer src 0))))
    ∧ (((s.mb m).st = .held ∨ (s.mb m).st = .done) → exec (.mbHolderTimeout m) s = .next (s.mbFree m).settle)
    ∧ (∀ c, (s.mb m).st = .running → (s.mb m).started = false → (s.mb m).cap = some c → s.cmdMayStart m (s.mb m) = true →
      exec (.mbCommandStart m) s = .next (State.settle (match c.decode m (s.mb m).heldByFabric with
        | .inl i => s.updMb m (fun b => { b with started := true, cmd := some i })
        | .inr off => (s.updMb m (fun b => { b with started := true })).respond m { status := .badArg, failOff := off })))
    ∧ (∀ c r, (s.mb m).st = .running → (s.mb m).cap = some c → (s.mb m).result = some r → ∃ u : State,
      exec (.mbCommandEnd m) s = .next u.settle ∧ (u.mb m).lastStatus = r.status.code ∧ (u.mb m).lastSeq = c.seq
        ∧ (u.mb m).cap = none ∧ (u.mb m).result = none
        ∧ (u.mb m).st = (if (s.mb m).gone = true then .free else .done))

/-- What `MB_LOCK`, the doorbell and the request buffer do to a mailbox (R367 to R370): a read of a FREE mailbox takes it
with a new ticket; the ticket releases it or submits its request; every other write is discarded and counted. -/
def Obligations.MailboxProtocol : Prop :=
  ∀ (s : State) (src : Src) (m : Nat), s.mbClosed m = false →
    ((s.mb m).st = .free → (s.lockRead src m).1 = nextTicket (s.mb m).ticket
      ∧ ((s.lockRead src m).2.mb m).st = .held ∧ ((s.lockRead src m).2.mb m).holder = some (srcOwner src)
      ∧ ((s.lockRead src m).2.mb m).ticket = nextTicket (s.mb m).ticket)
    ∧ ((s.mb m).st ≠ .free → (s.mb m).holder ≠ some (srcOwner src) → s.lockRead src m = (0, s))
    ∧ ((s.mb m).st = .held → (s.mb m).holder = some (srcOwner src) → s.lockRead src m = ((s.mb m).ticket, s))
    ∧ (∀ val, s.holds src m = true → val % 65536 = (s.mb m).ticket →
        ((s.lockWrite src m val).mb m).st = .free ∧ ((s.lockWrite src m val).mb m).holder = none)
    ∧ (∀ val, (s.holds src m = false ∨ val % 65536 ≠ (s.mb m).ticket) →
        ((s.lockWrite src m val).mb m) = { s.mb m with rejects := sat 32 ((s.mb m).rejects + 1) }
        ∧ ((s.mbSubmit src m val).mb m) = { s.mb m with rejects := sat 32 ((s.mb m).rejects + 1) })
    ∧ (∀ val, s.holds src m = true → (s.mb m).st = .held → val % 65536 = (s.mb m).ticket →
        ((s.mbSubmit src m val).mb m).st = .running
        ∧ ((s.mbSubmit src m val).mb m).cap = some (capture (s.mb m).req s.mbOrder))
    ∧ (∀ off data, s.holds src m = false → s.buffersHidden src m = false →
        ((s.requestWrite src m off data).mb m).req = (s.mb m).req)

/-- Commands of the transport, of discovery and of the time base. Rows of R367, R375, R394, R397. Completion of `mbAclSet`,
`discover`, `timeBaseLowRead`, `registerWriteDiscard`, `timeSteer`, `timeStepAbsorbed`. -/
def Obligations.TransportAndTimeComplete : Prop :=
  ∀ (s : State) (m : Nat),
    (∀ mbx pairs direct, s.serves m { fm := true } = true → mbx ≤ 64 → pairs.length ≤ 8 →
      (∀ x ∈ pairs, x.1 ≤ 0xFFFF ∧ x.2 ≤ 0xFF) → direct ≤ 1 → exec (.mbAclSet m mbx pairs direct) s = .next (State.settle
        ((s.updMb mbx (fun b => { b with acl := pairs, direct := direct == 1 })).respond m okResp)))
    ∧ (s.serves m { query := true } = true → ∃ r : Resp, exec (.discover m) s = .next (s.respond m r).settle
        ∧ r.status = .ok ∧ r.body.take 20 = recs 8 ((List.range 17).map s.capWord)
            ++ [(4, s.variant.code), (8, s.fuses.serial.toNat), (4, m)])
    ∧ (∀ fn, exec (.timeBaseLowRead fn) s = .next (State.settle { s.rouse with
        pins := { s.pins with readData := s.clock.base.toNat % 2 ^ 32 },
        clock := { s.clock with latch := s.clock.latch.put fn (s.clock.base.toNat / 2 ^ 32) } }))
    ∧ (∀ fn bar off val, exec (.registerWriteDiscard fn bar off val) s = .next s.rouse.settle)
    ∧ (∀ (step rate : Int), s.serves m { fm := true } = true → -100000 ≤ rate → rate ≤ 100000 →
      ∃ c : Clock, exec (.timeSteer m step rate) s = .next (State.settle
          (({ s with clock := c } : State).respond m (okBody [(8, c.base.toNat)])))
        ∧ c.rate = rate ∧ c.aon = s.clock.aon
        ∧ (0 ≤ step → c.base = s.clock.base + BitVec.ofInt 64 step ∧ c.absorb = s.clock.absorb)
        ∧ (step < 0 → c.base = s.clock.base ∧ c.absorb = s.clock.absorb + step.natAbs * 1000000000))
    ∧ exec .timeStepAbsorbed s = .next (State.settle { s with clock := s.clock.absorbed })

/-! Security. -/

/-- SPDM requests, in the order that the responder asks of them, and the sessions they make. A sealed record that verifies
under the next number opens into the partition's mailbox; any other ends the session. A bounce buffer is set by a sealed
command. Rows of R383, R384, R385, R387, R388. Completion of `getVersion`, `getCapabilities`, `negotiateAlgorithms`,
`getDigests`, `getCertificate`, `challenge`, `getMeasurements`, `keyExchange`, `finish`, `heartbeat`, `endSession`,
`keyUpdate`, `sealedRecord`, `bounceSet`. -/
def Obligations.SecurityAndBounceCommandsComplete : Prop :=
  (∀ (s : State) (fn : Nat), fn ≤ 64 → s.boot.held = false → s.boot.stopped = false →
      exec (.getVersion fn) s = .next ((s.setPhase fn 1).doe fn .version).settle
      ∧ (s.spdmPhase fn = 1 → exec (.getCapabilities fn) s = .next ((s.setPhase fn 2).doe fn .capabilities).settle)
      ∧ (s.spdmPhase fn = 2 → exec (.negotiateAlgorithms fn) s = .next ((s.setPhase fn 3).doe fn .algorithms).settle)
      ∧ (s.spdmPhase fn = 3 →
        exec (.getDigests fn) s = .next (s.doe fn (.digests (Config.sha384 Config.certChain))).settle
        ∧ (∀ off len, exec (.getCertificate fn 0 off len) s = .next (State.settle (s.doe fn (.certificate
            ((Config.certChain.drop off).take len)
            (Config.certChain.length - off - ((Config.certChain.drop off).take len).length)))))
        ∧ (∀ nonce, exec (.challenge fn nonce) s = .next (State.settle (s.doe fn (.challengeAuth slot0
            (Config.spdmSign (leBytes 32 nonce ++ leBytes 48 slot0.toNat))))))
        ∧ (∀ index nonce, (index ≤ 5 ∨ index = 0xFF) → exec (.getMeasurements fn index nonce) s = .next (State.settle
            (s.doe fn (.measurements (s.measurements index) (Config.spdmSign (leBytes 32 nonce
              ++ (s.measurements index).flatMap (fun x => leBytes 48 x.2.toNat)))))))
        ∧ (∀ share t id, t = (if fn = 0 then s else (s.sessionsOf fn).foldl (fun s x => s.dropSession fn x.id) s) →
          (t.sessionsOf fn).length < 4 →
          firstFree (fun i => (t.session? fn i).isSome) 0 (2 ^ 32) t.draw.1 = some id →
          ∃ (u : State) (keyIn keyOut : Nat), exec (.keyExchange fn share) s = .next (State.settle (u.doe fn (.keyExchangeRsp id
              (Config.spdmSign (leBytes 96 share ++ leBytes 4 id)))))
            ∧ u.fw.sessions = t.fw.sessions ++ [({ fn := fn, id := id, keyIn := keyIn, keyOut := keyOut } : Session)]))
      ∧ (∀ sess x mac, s.session? fn sess = some x → x.finished = false →
        exec (.finish fn sess mac) s = .next (State.settle (if Config.finishVerifies x.keyIn mac = true then
          (s.updSession fn sess (fun x => { x with finished := true, fresh := true, seqIn := 0, seqOut := 0 })).doe fn .finishRsp
          else (s.dropSession fn sess).doe fn .error)))
      ∧ (∀ sess x, s.session? fn sess = some x → x.finished = true →
        exec (.heartbeat fn sess) s = .next (s.doe fn .heartbeatAck).settle
        ∧ exec (.endSession fn sess) s = .next ((s.dropSession fn sess).doe fn .endSessionAck).settle
        ∧ (∀ dir, ∃ (k1 k2 : Nat) (t : State), t.fw.sessions = s.fw.sessions
            ∧ exec (.keyUpdate fn sess dir) s = .next (State.settle (State.doe
              (if dir = 0 then t.updSession fn sess (fun x => { x with keyIn := k1, seqIn := 0 })
               else t.updSession fn sess (fun x => { x with keyIn := k1, seqIn := 0, keyOut := k2, seqOut := 0 }))
              fn .keyUpdateAck)))))
  ∧ (∀ (s : State) (part : Nat),
      (∀ seq kind body tag x, s.partSession part = some x →
        ((seq = x.seqIn ∧ Config.gcmVerifies x.keyIn (sealNonce x.keyIn seq) (sealHeader seq body.length kind) body tag = true) →
          ∃ t : State, t = s.updSession (part + 1) x.id (fun x => { x with seqIn := x.seqIn + 1 })
            ∧ (kind ≠ 1 → exec (.sealedRecord part seq kind body tag) s = .next t.settle)
            ∧ (kind = 1 → ∃ v : State, v = { t with fw := { t.fw with
                  opened := (part, Config.gcmOpen x.keyIn (sealNonce x.keyIn seq) body) :: t.fw.opened } }
                ∧ exec (.sealedRecord part seq kind body tag) s = .next (State.settle
                  (if v.holds (.func (part + 1)) (part + 1) = true then v.updMb (part + 1) (fun b => { b with
                      req := b.req.write 0 ((Config.gcmOpen x.keyIn (sealNonce x.keyIn seq) body).take 0x1000), sealed := true })
                   else v.mbReject (part + 1)))))
        ∧ (¬(seq = x.seqIn ∧ Config.gcmVerifies x.keyIn (sealNonce x.keyIn seq) (sealHeader seq body.length kind) body tag = true)
            → exec (.sealedRecord part seq kind body tag) s = .next (s.dropSession (part + 1) x.id).settle))
      ∧ (∀ m base len p, s.serves m { own := [some part] } = true → part ≤ 63 → bounceOk base len = true →
        s.part? part = some p → (s.mb m).sealed = true → m = part + 1 →
        (p.bounce.isSome = true ∨ (s.freshSession m = true ∧ len ≠ 0)) →
        exec (.bounceSet m part base len) s = .next (State.settle ((s.modPart part (fun p => { p with
          bounce := if len = 0 then none else some (base, len), hostClosed := false })).respond m okResp))))

/-! Power and temperature. -/

/-- Limits, averages, throttles and trips. Rows of R1, R415, R416, R418, R419, R423, R424. Completion of `powerLimitSet`,
`powerAverageTick`, `throttleNAssert`, `throttleNDeassert`, `regulatorNack`, `thermalThrottle`, `thermalTrip`, `railFault`,
`aonRailFault`. -/
def Obligations.PowerAndThermalComplete : Prop :=
  ∀ s : State,
    (∀ m watts mhz, s.serves m { fm := true } = true → watts ≤ s.variant.watts → mhz ≤ s.variant.mhz →
      exec (.powerLimitSet m watts mhz) s = .next (State.settle
        ((s.updPower (fun p => { p with limitW := watts, limitMhz := mhz })).respond m okResp)))
    ∧ (∀ watts, s.boot.held = false → s.boot.stopped = false → ∃ t : State,
        t = s.updPower (fun p => { p with watts, hotMhz := p.hotMhz.map (fun x => (x.1, stepDown x.2)) })
        ∧ exec (.powerAverageTick watts) s = .next (State.settle (if s.power.limitW < watts then t.averageHigh
            else if watts * 100 ≤ s.power.limitW * 95 then t.averageLow else t)))
    ∧ (s.pins.throttle = false → exec .throttleNAssert s = .next (State.settle
        (State.hubEvents { s with pins := { s.pins with throttle := true } } s.hubList 1 false)))
    ∧ (s.pins.throttle = true → exec .throttleNDeassert s = .next (State.settle
        (State.hubEvents { s with pins := { s.pins with throttle := false } } s.hubList 1 true)))
    ∧ (∀ hub, hub < s.hubs → s.power.nack.contains hub = false → exec (.regulatorNack hub) s = .next (State.settle
        ((s.updPower (fun p => { p with nack := addSorted p.nack hub })).hubEvents [hub] 1 false)))
    ∧ (∀ unit temp on off, s.hasSensor unit = true → throttlePoint unit = some (on, off) → s.boot.held = false →
      s.boot.stopped = false →
      exec (.thermalThrottle unit temp) s = .next (State.settle
        (if on ≤ temp ∧ (s.record unit temp).power.hotUnits.contains unit = false then (s.record unit temp).hotOn unit
         else if temp < off ∧ (s.record unit temp).power.hotUnits.contains unit = true then (s.record unit temp).hotOff unit
         else s.record unit temp)))
    ∧ (∀ unit temp, s.hasSensor unit = true → throttlePoint unit = none →
      exec (.thermalThrottle unit temp) s = .next (s.record unit temp).settle)
    ∧ (∀ sensor, s.hasSensor sensor = true → sensor < 0x8000 → ∃ u : State, exec (.thermalTrip sensor) s = .next u.settle
        ∧ u.power.trip = true ∧ u.pins.therm = true ∧ 4 ∈ u.pins.alert)
    ∧ (∀ rail, ∃ u : State, exec (.railFault rail) s = .next u.settle ∧ u.power.rail = true ∧ 3 ∈ u.pins.alert)
    ∧ exec .aonRailFault s = .next (s.coldReset 0 true false).settle

/-- Clock and power gates, self-refresh, standby and the test access port. Rows of R392, R420, R421. Completion of
`engineClockGate`, `enginePowerGate`, `pcPowerDown`, `selfRefreshEntry`, `unitWake`, `standbyEntry`, `standbyWake`,
`tapInstructionLoad`, `tapReset`. -/
def Obligations.GatingStandbyAndTapComplete : Prop :=
  ∀ s : State,
    (∀ e, s.enginePresent e = true → (s.engine e).idle = true →
      ((s.engine e).gate = 0 → exec (.engineClockGate e) s = .next (s.updEngine e (fun g => { g with gate := 1 })).settle)
      ∧ (e < 0x100 → exec (.enginePowerGate e) s = .next (s.updEngine e (fun g => { g with gate := 2 })).settle))
    ∧ (∀ u, s.unitPresent u = true →
      ((s.unit u).power = 0 → (s.unit u).quiet = true → s.strictGroup (unitGroup u) = false →
        exec (.pcPowerDown u) s = .next (s.updUnit u (fun m => { m.precharge s.clock.aon with power := 1 })).settle)
      ∧ (s.maySelfRefresh u = true → exec (.selfRefreshEntry u) s = .next (State.settle ((refreshUnits u).foldl (fun s x =>
          s.updUnit x (fun m => { m.precharge s.clock.aon with power := 2 })) s)))
      ∧ ((s.unit u).power = 2 → exec (.unitWake u) s = .next (State.settle
          ((refreshUnits u).foldl (fun s x => s.updUnit x (fun m => { m with power := 0 })) s)))
      ∧ ((s.unit u).power = 0 → exec (.unitWake u) s = .next s.settle)
      ∧ ((s.unit u).power ≠ 0 → (s.unit u).power ≠ 2 →
        exec (.unitWake u) s = .next (s.updUnit u (fun m => { m with power := 0 })).settle))
    ∧ (s.power.standby = false → s.boot.held = false → s.boot.stopped = false → s.mayStandby = true →
      exec .standbyEntry s = .next ((s.flushAll).updPower (fun p => { p with standby := true })).settle)
    ∧ exec .standbyWake s = .next (s.updPower (fun p => { p with standby := false })).settle
    ∧ (∀ ir, ¬(tapIr (ir % 256) = .privateCode ∧ s.fuses.debugLock = true) → ∃ t : State,
        t.fw.tapLog = s.fw.tapLog ++ [ir % 256]
        ∧ exec (.tapInstructionLoad ir) s = .next (State.settle (if tapIr (ir % 256) = .extest then t.tapIsolate else t)))
    ∧ (s.power.tapTest = true → exec .tapReset s = .next (s.coldReset 2 false false).settle)
    ∧ (s.power.tapTest = false → exec .tapReset s = .next s.settle)

/-! Rules of the manual over the whole machine. -/

/-- R1 whole: what each ordering code contains (Table 00-1), that no command changes it, and that a limit above the fused one
is answered `ST_NOT_PERMITTED` and changes nothing. -/
def Obligations.FusedLimitRule : Prop :=
  (∀ v : Variant, (v.hubs, v.stackCount, v.iods, v.ports, v.dcs, v.oes, v.tes, v.mirror, v.mhz, v.watts) = match v with
    | .v9612H => (2, 12, 4, 96, 16, 24, 48, true, 1800, 1150)
    | .v9612M => (2, 12, 4, 96, 16, 24, 48, true, 1500, 950)
    | .v9608H => (2, 8, 4, 96, 16, 24, 48, true, 1800, 1020)
    | .v4806M => (1, 6, 2, 48, 0, 12, 24, false, 1500, 520))
  ∧ (∀ s t : State, step s = .next t → t.variant = s.variant ∧ t.fuses.serial = s.fuses.serial
      ∧ t.fuses.stepping = s.fuses.stepping ∧ t.fuses.keyHash = s.fuses.keyHash ∧ t.fuses.debugLock = s.fuses.debugLock)
  ∧ (∀ (s : State) (m watts mhz : Nat), s.serves m { fm := true } = true → (s.variant.watts < watts ∨ s.variant.mhz < mhz) →
      exec (.powerLimitSet m watts mhz) s = .next (s.respond m { status := .notPermitted }).settle)

/-- R382 whole: only `FW_SVN_RAISE` moves the fused security version, up to the running image's; when it may, and what it
answers; no command lowers it; an image of a lower version fails verification, and `FW_COMMIT` says so. -/
def Obligations.SecurityVersionRule : Prop :=
  (∀ (c : Instr) (s t : State), exec c s = .next t → s.fuses.svn ≤ t.fuses.svn
    ∧ (t.fuses.svn ≠ s.fuses.svn → t.fuses.svn = s.fw.svnRun ∧ ∃ m, c = .fwSvnRaise m))
  ∧ (∀ (s : State) (m : Nat), s.serves m { fm := true } = true →
      (¬(s.fw.fromA = true ∧ s.flash.slotA.mem = s.fw.caddy.mem ∧ s.boot.readyOnce = true) →
        exec (.fwSvnRaise m) s = .next (s.respond m { status := .notPermitted }).settle)
      ∧ (s.fw.fromA = true → s.flash.slotA.mem = s.fw.caddy.mem → s.boot.readyOnce = true → s.fw.svnRun ≤ s.fuses.svn →
        exec (.fwSvnRaise m) s = .next (State.settle (s.respond m { status := .okEmpty, body := [(1, s.fuses.svn)] })))
      ∧ (s.fw.fromA = true → s.flash.slotA.mem = s.fw.caddy.mem → s.boot.readyOnce = true → s.fuses.svn < s.fw.svnRun →
        exec (.fwSvnRaise m) s = .next (State.settle (({ s with fuses := { s.fuses with svn := s.fw.svnRun } } : State).respond m
          (okBody [(1, s.fw.svnRun)])))))
  ∧ (∀ (s : State) (i : Image), i.svn < s.fuses.svn → s.verifies i = false)
  ∧ (∀ (s : State) (m len : Nat), s.serves m { fm := true, rom := true } = true → 1 ≤ len → len ≤ 0x3000000 →
      s.verifies { s.flash.slotB with len := len } = false →
      exec (.fwCommit m len) s = .next (s.respond m { status := .authFail }).settle)

/-- R29 whole: a CVA of more than 52 bits faults with cause `ADDR_RANGE` (5), level 0, on every access. -/
def Obligations.AddressRangeFault : Prop :=
  ∀ (s : State) (c : Context) (cva acc : Nat), 2 ^ 52 ≤ cva →
    s.transPage c cva acc = .fault 5 0 ∧ causeStatus 5 = .faultUnmapped

/-- R90 whole: indices are modulo 2^32; index `i` is in slot `i` mod 2^n of both rings; `QUEUE_CREATE` and `QUEUE_RESET` zero
both indices. -/
def Obligations.QueueIndexRule : Prop :=
  (∀ (u : Queue) (i : BitVec 32), u.slot i = u.ring + i.toNat % 2 ^ u.log2 * 64
    ∧ u.comSlot i = u.comp + i.toNat % 2 ^ u.log2 * 16)
  ∧ (∀ (u : Queue), (Queue.advance 1
      { u with ci := BitVec.ofNat 32 (2 ^ 32 - 1), written := [BitVec.ofNat 32 (2 ^ 32 - 1)] }).ci = 0)
  ∧ (∀ (s t : State) (m : Nat) (r : QueueReq) (v : Queue), exec (.queueCreate m r) s = .next t → s.queue? r.q = none →
      t.queue? r.q = some v → v.pi = 0 ∧ v.ci = 0)
  ∧ (∀ (s : State) (q m : Nat) (u : Queue), s.queue? q = some u → u.resetMb = some m → s.descsOf q = [] →
      (u.runsLost = false ∨ ∃ c, s.ctx? u.ctx = some c ∧ s.ringChecks c u = none) →
      ∃ v, (s.resetIf q).queue? q = some v ∧ v.pi = 0 ∧ v.ci = 0)

/-- Every step keeps both flash images in canonical form: addresses strictly rising, no byte listed that reads as zero
anyway. -/
def Obligations.StepKeepsFlashImagesCanonical : Prop :=
  ∀ s t : State, s.flash.slotA.mem.wf = true → s.flash.slotB.mem.wf = true → step s = .next t →
    t.flash.slotA.mem.wf = true ∧ t.flash.slotB.mem.wf = true

/-- What holds at power-on: the limits are the fused ones, flash images are canonical, no command waits. -/
def Obligations.ResetHasInvariants : Prop :=
  FusedLimits State.reset ∧ State.reset.flash.slotA.mem.wf = true ∧ State.reset.flash.slotB.mem.wf = true
    ∧ State.reset.pending = []

/-- The clock of a hub is never above the limit in force, nor above half the fused clock while `THROTTLE_N` is low, nor above
the caps of the power average and of the hub's temperature. -/
def Obligations.HubClockBounds : Prop :=
  ∀ (s : State) (h : Nat), s.hubMhz h ≤ s.power.limitMhz
    ∧ (s.pins.throttle = true → s.hubMhz h ≤ s.variant.mhz / 2)
    ∧ (∀ c, s.power.avgMhz = some c → s.hubMhz h ≤ c) ∧ (∀ c, s.power.hotMhz.at? h = some c → s.hubMhz h ≤ c)

/-- What a cold reset leaves (Table 13-5): fuses, boot flash, with the remaps, absences and retirements brought up to date
(R6), but for what a cold reset discards there, the context generations, the measurements and the error log but at power-on;
every object is gone and the limits are the fused ones. -/
def Obligations.ColdResetLeaves : Prop :=
  ∀ (s : State) (kind : Nat) (held renumber : Bool), ∃ n : State, n = s.coldReset kind held renumber
    ∧ n.fuses = s.fuses ∧ n.flash = s.flashUnits.atCold s.pool.unretire renumber ∧ n.gens = s.flash.gens
    ∧ n.parts = [] ∧ n.ctxs = [] ∧ n.regions = [] ∧ n.extents = [] ∧ n.tables = [] ∧ n.queues = [] ∧ n.descs = []
    ∧ n.eqs = [] ∧ n.colls = [] ∧ n.shapers = [] ∧ n.pubs = [] ∧ n.mirror.role = .unpaired
    ∧ n.mirror.highest = s.flash.claim ∧ n.power.limitW = s.variant.watts ∧ n.power.limitMhz = s.variant.mhz
    ∧ n.boot.stage = 0 ∧ n.boot.kind = kind ∧ n.boot.held = held ∧ n.pending = s.pending
    ∧ (kind ≠ 0 → n.clock.aon = s.clock.aon ∧ n.fw.measure = s.fw.measure ∧ n.quarantine = s.quarantine
        ∧ n.pool.log = s.pool.log ∧ n.pool.logSeq = s.pool.logSeq)

/-- A query answers, and changes nothing else: whatever the state, its mailbox alone is written. -/
def Obligations.QueriesOnlyAnswer : Prop :=
  ∀ (s : State) (m : Nat) (q : Instr), (match q with
      | .partitionQuery n _ | .memSlotQuery n _ _ | .ctxTableRead n _ _ _ _ | .regionQuery n _ | .faultQuery n _
      | .queueQuery n _ | .queueSamples n _ | .collQuery n _ _ _ | .cohDirRead n _ _ _ | .cohStats n _ | .portQuery n _
      | .routeQuery n _ _ _ | .memConfigQuery n _ | .memAddrDecode n _ | .memPcSnapshot n _ | .logRead n _ _ _
      | .memRetireQuery n _ | .mirrorQuery n | .fwQuery n | .bootQuery n | .topoExpectQuery n | .bootServeQuery n _
      | .discover n => n = m
      | _ => False) →
    ∃ r : Resp, exec q s = .next (s.respond m r).settle

/-- The commands that alone may change boot flash, the clocks, the context generations, the quarantine, the watchdog of the
controller, the power state and the manager's event queue; resets may change each. -/
def Obligations.ConfigurationFrame : Prop :=
  ∀ (c : Instr) (s t : State), exec c s = .next t → (match c with
    | .powerOn | .sysRstNAssert | .resetDelayExpiry | .aonRailFault | .tapReset | .thermalTrip .. | .railFault ..
    | .mpcWdExpiry .. => True
    | c =>
      (match c with
        | .topoExpectSet .. | .fwWrite .. | .fwCommit .. | .claimFlashCopy | .recordFlashCopy | .retireFlashCopy
        | .bringUpStageDone .. | .partitionReset .. | .ctxTeardown .. | .ctxDestroy .. | .vfFlr .. | .sheepdogExpiry .. => True
        | _ => t.flash = s.flash)
      ∧ (match c with
        | .timeSteer .. | .timeBaseLowRead .. | .timeStepAbsorbed | .vfFlr .. | .pfFlr | .perstN => True
        | _ => t.clock = s.clock)
      ∧ (match c with
        | .partitionReset .. | .ctxTeardown .. | .ctxDestroy .. | .vfFlr .. | .sheepdogExpiry .. => True
        | _ => t.gens = s.gens)
      ∧ (match c with
        | .quarantineExpiry .. | .teardownComplete .. => True
        | _ => t.quarantine = s.quarantine)
      ∧ (match c with
        | .mpcRestartDone | .mpcWatchdogKick | .bringUpStageDone .. => True
        | _ => t.mpc = s.mpc)
      ∧ (match c with
        | .tapInstructionLoad .. | .regulatorNack .. | .standbyEntry | .powerAverageTick .. | .thermalThrottle ..
        | .powerLimitSet .. | .bringUpStageDone .. => True
        | .standbyWake | .signalDetect .. | .dbPiWrite .. | .dbRejectsRead .. | .eqCiWrite .. | .eqDroppedRead ..
        | .timeBaseLowRead .. | .registerWriteDiscard .. | .mbLockRead .. | .mbLockWrite .. | .mbDoorbellWrite ..
        | .mbRejectsRead .. | .mbRequestWrite .. | .transitForward .. | .mcWr .. | .transactionTake ..
          | .messageTrackerTake .. =>
          t.power = s.power ∨ t.power = { s.power with standby := false }
        | _ => t.power = s.power)
      ∧ (match c with
        | .fmEqSet .. => True
        | _ => t.fmEq = s.fmEq)
      ∧ (match c with
        | .fwSvnRaise .. => True
        | _ => t.fuses = s.fuses))

/-- The commands that alone may change page tables, extents, publications, collectives and shapers; resets may change each.
-/
def Obligations.TablesFrame : Prop :=
  ∀ (c : Instr) (s t : State), exec c s = .next t → (match c with
    | .powerOn | .sysRstNAssert | .resetDelayExpiry | .aonRailFault | .tapReset | .thermalTrip .. | .railFault ..
    | .mpcWdExpiry .. => True
    | c =>
      (match c with
        | .ctxCreate .. | .mapZero .. | .regionMap .. | .unmapDrainDone .. | .advise .. | .teardownComplete ..
        | .ctxDestroy .. | .retireCopyDone .. | .partitionResetDone .. => True
        | _ => t.tables = s.tables)
      ∧ (match c with
        | .regionCreate .. | .regionDrainDone .. | .migrate .. | .migrateChunkDone .. | .descriptorComplete ..
        | .queueDestroy .. | .teardownComplete .. | .retireCopyDone .. | .partitionResetDone .. | .ctxDestroy .. => True
        | _ => t.extents = s.extents)
      ∧ (match c with
        | .regionPublish .. | .publish .. | .publicationHead .. | .publicationSwap .. | .mirAck .. | .pairFence
        | .mirBeat .. | .hbxBeat .. | .mirrorUnpair .. | .transactionTake .. | .messageTrackerTake .. => True
        | _ => t.pubs = s.pubs)
      ∧ (match c with
        | .collCreate .. | .collDestroy .. | .collContrib .. | .collWr .. | .collStepTimeout .. | .messageTrackerTake ..
        | .transactionTake .. | .retireCopyDone .. | .partitionReset .. | .ctxTeardown .. | .ctxDestroy ..
          | .vfFlr .. | .sheepdogExpiry .. => True
        | _ => t.colls = s.colls)
      ∧ (match c with
        | .shaperAlloc .. | .shaperFree .. | .shaperSet .. | .descriptorStart .. | .partitionDestroy ..
        | .partitionResetDone .. => True
        | _ => t.shapers = s.shapers))

/-- The commands that alone may change queues; resets may. -/
def Obligations.QueuesFrame : Prop :=
  ∀ (c : Instr) (s t : State), exec c s = .next t → (match c with
    | .powerOn | .sysRstNAssert | .resetDelayExpiry | .aonRailFault | .tapReset | .thermalTrip .. | .railFault ..
    | .mpcWdExpiry .. => True
    | .queueSampleTick | .queueCreate .. | .queueDestroy .. | .queueEnable .. | .queueDisable .. | .queueReset ..
    | .queueSetWatchdog .. | .shaperAttach .. | .dbPiWrite .. | .fabricDoorbell .. | .dbRejectsRead ..
    | .descriptorAdmit .. | .descriptorComplete .. | .heldQueueRetry .. | .shaperWheelVisit .. | .fence ..
    | .resolveFault .. | .faultTimeout .. | .partitionReset .. | .partitionResetDone .. | .partitionResize ..
    | .ctxTeardown .. | .ctxDestroy .. | .teardownComplete .. | .sheepdogExpiry .. | .vfFlr .. | .pairFence | .mirBeat ..
    | .hbxBeat .. | .transactionTake .. | .messageTrackerTake .. => True
    | _ => t.queues = s.queues)

/-- A request that the decoder of a mailbox accepts makes a well-formed command (R371, R372). -/
def Obligations.DecodedCommandsAreWellFormed : Prop :=
  ∀ (m op : Nat) (body : List Byte) (i : Instr) (n : Nat), m ≤ 64 → cmdOf m op body = some (i, n) → i.wf = true
end

