-- ==== Sys2Proof/Laws/Views.lean ====
section
/-! SUPPORT. Views of the state that ignore some of its fields: a shared operation that changes only ignored fields keeps the
view. A mask names the ignored fields, bit i for the i-th field of `State`. -/

namespace Sys2Proof.Laws
open Sys2Proof.Machine

set_option Elab.async false

/-- A view of the state does not depend on field `i`, in the order in which `State` names its fields. -/
def Ignores {α : Type} (v : State → α) : Nat → Prop
  | 0 => ∀ s x, v { s with fuses := x } = v s
  | 1 => ∀ s x, v { s with flash := x } = v s
  | 2 => ∀ s x, v { s with clock := x } = v s
  | 3 => ∀ s x, v { s with boot := x } = v s
  | 4 => ∀ s x, v { s with pins := x } = v s
  | 5 => ∀ s x, v { s with mbs := x } = v s
  | 6 => ∀ s x, v { s with mbOrder := x } = v s
  | 7 => ∀ s x, v { s with parts := x } = v s
  | 8 => ∀ s x, v { s with fmEq := x } = v s
  | 9 => ∀ s x, v { s with fmUnbound := x } = v s
  | 10 => ∀ s x, v { s with ctxs := x } = v s
  | 11 => ∀ s x, v { s with gens := x } = v s
  | 12 => ∀ s x, v { s with quarantine := x } = v s
  | 13 => ∀ s x, v { s with tables := x } = v s
  | 14 => ∀ s x, v { s with tcache := x } = v s
  | 15 => ∀ s x, v { s with regions := x } = v s
  | 16 => ∀ s x, v { s with extents := x } = v s
  | 17 => ∀ s x, v { s with chunks := x } = v s
  | 18 => ∀ s x, v { s with pubs := x } = v s
  | 19 => ∀ s x, v { s with queues := x } = v s
  | 20 => ∀ s x, v { s with descs := x } = v s
  | 21 => ∀ s x, v { s with descOrder := x } = v s
  | 22 => ∀ s x, v { s with heldOrder := x } = v s
  | 23 => ∀ s x, v { s with eqs := x } = v s
  | 24 => ∀ s x, v { s with faults := x } = v s
  | 25 => ∀ s x, v { s with coh := x } = v s
  | 26 => ∀ s x, v { s with pool := x } = v s
  | 27 => ∀ s x, v { s with engines := x } = v s
  | 28 => ∀ s x, v { s with colls := x } = v s
  | 29 => ∀ s x, v { s with ownOut := x } = v s
  | 30 => ∀ s x, v { s with shapers := x } = v s
  | 31 => ∀ s x, v { s with wheel := x } = v s
  | 32 => ∀ s x, v { s with ports := x } = v s
  | 33 => ∀ s x, v { s with net := x } = v s
  | 34 => ∀ s x, v { s with mirror := x } = v s
  | 35 => ∀ s x, v { s with fw := x } = v s
  | 36 => ∀ s x, v { s with mpc := x } = v s
  | 37 => ∀ s x, v { s with power := x } = v s
  | 38 => ∀ s x, v { s with free := x } = v s
  | 39 => ∀ s x, v { s with pending := x } = v s
  | _ => True
/-- A view of the state does not depend on the fields of a mask. -/
def Ig {α : Type} (m : Nat) (v : State → α) : Prop := ∀ i, m.testBit i = true → Ignores v i
/-- A field of the mask is ignored. -/
theorem Ig.at {α : Type} {m : Nat} {v : State → α} (h : Ig m v) (i : Nat) (e : m.testBit i = true) : Ignores v i := h i e
/-- A smaller mask. -/
theorem Ig.sub {α : Type} {m n : Nat} {v : State → α} (h : Ig m v) (e : (n &&& m == n) = true) : Ig n v := by
  intro i hi
  apply h
  have e : n &&& m = n := by simpa using e
  rw [← e, Nat.testBit_land] at hi
  simp at hi
  exact hi.2
theorem Ig.fuses {α : Type} {m : Nat} {v : State → α} (h : Ig m v) (e : m.testBit 0 = true) (s : State) (x : _) : v { s with fuses := x } = v s := h 0 e s x
theorem Ig.flash {α : Type} {m : Nat} {v : State → α} (h : Ig m v) (e : m.testBit 1 = true) (s : State) (x : _) : v { s with flash := x } = v s := h 1 e s x
theorem Ig.clock {α : Type} {m : Nat} {v : State → α} (h : Ig m v) (e : m.testBit 2 = true) (s : State) (x : _) : v { s with clock := x } = v s := h 2 e s x
theorem Ig.boot {α : Type} {m : Nat} {v : State → α} (h : Ig m v) (e : m.testBit 3 = true) (s : State) (x : _) : v { s with boot := x } = v s := h 3 e s x
theorem Ig.pins {α : Type} {m : Nat} {v : State → α} (h : Ig m v) (e : m.testBit 4 = true) (s : State) (x : _) : v { s with pins := x } = v s := h 4 e s x
theorem Ig.mbs {α : Type} {m : Nat} {v : State → α} (h : Ig m v) (e : m.testBit 5 = true) (s : State) (x : _) : v { s with mbs := x } = v s := h 5 e s x
theorem Ig.mbOrder {α : Type} {m : Nat} {v : State → α} (h : Ig m v) (e : m.testBit 6 = true) (s : State) (x : _) : v { s with mbOrder := x } = v s := h 6 e s x
theorem Ig.parts {α : Type} {m : Nat} {v : State → α} (h : Ig m v) (e : m.testBit 7 = true) (s : State) (x : _) : v { s with parts := x } = v s := h 7 e s x
theorem Ig.fmEq {α : Type} {m : Nat} {v : State → α} (h : Ig m v) (e : m.testBit 8 = true) (s : State) (x : _) : v { s with fmEq := x } = v s := h 8 e s x
theorem Ig.fmUnbound {α : Type} {m : Nat} {v : State → α} (h : Ig m v) (e : m.testBit 9 = true) (s : State) (x : _) : v { s with fmUnbound := x } = v s := h 9 e s x
theorem Ig.ctxs {α : Type} {m : Nat} {v : State → α} (h : Ig m v) (e : m.testBit 10 = true) (s : State) (x : _) : v { s with ctxs := x } = v s := h 10 e s x
theorem Ig.gens {α : Type} {m : Nat} {v : State → α} (h : Ig m v) (e : m.testBit 11 = true) (s : State) (x : _) : v { s with gens := x } = v s := h 11 e s x
theorem Ig.quarantine {α : Type} {m : Nat} {v : State → α} (h : Ig m v) (e : m.testBit 12 = true) (s : State) (x : _) : v { s with quarantine := x } = v s := h 12 e s x
theorem Ig.tables {α : Type} {m : Nat} {v : State → α} (h : Ig m v) (e : m.testBit 13 = true) (s : State) (x : _) : v { s with tables := x } = v s := h 13 e s x
theorem Ig.tcache {α : Type} {m : Nat} {v : State → α} (h : Ig m v) (e : m.testBit 14 = true) (s : State) (x : _) : v { s with tcache := x } = v s := h 14 e s x
theorem Ig.regions {α : Type} {m : Nat} {v : State → α} (h : Ig m v) (e : m.testBit 15 = true) (s : State) (x : _) : v { s with regions := x } = v s := h 15 e s x
theorem Ig.extents {α : Type} {m : Nat} {v : State → α} (h : Ig m v) (e : m.testBit 16 = true) (s : State) (x : _) : v { s with extents := x } = v s := h 16 e s x
theorem Ig.chunks {α : Type} {m : Nat} {v : State → α} (h : Ig m v) (e : m.testBit 17 = true) (s : State) (x : _) : v { s with chunks := x } = v s := h 17 e s x
theorem Ig.pubs {α : Type} {m : Nat} {v : State → α} (h : Ig m v) (e : m.testBit 18 = true) (s : State) (x : _) : v { s with pubs := x } = v s := h 18 e s x
theorem Ig.queues {α : Type} {m : Nat} {v : State → α} (h : Ig m v) (e : m.testBit 19 = true) (s : State) (x : _) : v { s with queues := x } = v s := h 19 e s x
theorem Ig.descs {α : Type} {m : Nat} {v : State → α} (h : Ig m v) (e : m.testBit 20 = true) (s : State) (x : _) : v { s with descs := x } = v s := h 20 e s x
theorem Ig.descOrder {α : Type} {m : Nat} {v : State → α} (h : Ig m v) (e : m.testBit 21 = true) (s : State) (x : _) : v { s with descOrder := x } = v s := h 21 e s x
theorem Ig.heldOrder {α : Type} {m : Nat} {v : State → α} (h : Ig m v) (e : m.testBit 22 = true) (s : State) (x : _) : v { s with heldOrder := x } = v s := h 22 e s x
theorem Ig.eqs {α : Type} {m : Nat} {v : State → α} (h : Ig m v) (e : m.testBit 23 = true) (s : State) (x : _) : v { s with eqs := x } = v s := h 23 e s x
theorem Ig.faults {α : Type} {m : Nat} {v : State → α} (h : Ig m v) (e : m.testBit 24 = true) (s : State) (x : _) : v { s with faults := x } = v s := h 24 e s x
theorem Ig.coh {α : Type} {m : Nat} {v : State → α} (h : Ig m v) (e : m.testBit 25 = true) (s : State) (x : _) : v { s with coh := x } = v s := h 25 e s x
theorem Ig.pool {α : Type} {m : Nat} {v : State → α} (h : Ig m v) (e : m.testBit 26 = true) (s : State) (x : _) : v { s with pool := x } = v s := h 26 e s x
theorem Ig.engines {α : Type} {m : Nat} {v : State → α} (h : Ig m v) (e : m.testBit 27 = true) (s : State) (x : _) : v { s with engines := x } = v s := h 27 e s x
theorem Ig.colls {α : Type} {m : Nat} {v : State → α} (h : Ig m v) (e : m.testBit 28 = true) (s : State) (x : _) : v { s with colls := x } = v s := h 28 e s x
theorem Ig.ownOut {α : Type} {m : Nat} {v : State → α} (h : Ig m v) (e : m.testBit 29 = true) (s : State) (x : _) : v { s with ownOut := x } = v s := h 29 e s x
theorem Ig.shapers {α : Type} {m : Nat} {v : State → α} (h : Ig m v) (e : m.testBit 30 = true) (s : State) (x : _) : v { s with shapers := x } = v s := h 30 e s x
theorem Ig.wheel {α : Type} {m : Nat} {v : State → α} (h : Ig m v) (e : m.testBit 31 = true) (s : State) (x : _) : v { s with wheel := x } = v s := h 31 e s x
theorem Ig.ports {α : Type} {m : Nat} {v : State → α} (h : Ig m v) (e : m.testBit 32 = true) (s : State) (x : _) : v { s with ports := x } = v s := h 32 e s x
theorem Ig.net {α : Type} {m : Nat} {v : State → α} (h : Ig m v) (e : m.testBit 33 = true) (s : State) (x : _) : v { s with net := x } = v s := h 33 e s x
theorem Ig.mirror {α : Type} {m : Nat} {v : State → α} (h : Ig m v) (e : m.testBit 34 = true) (s : State) (x : _) : v { s with mirror := x } = v s := h 34 e s x
theorem Ig.fw {α : Type} {m : Nat} {v : State → α} (h : Ig m v) (e : m.testBit 35 = true) (s : State) (x : _) : v { s with fw := x } = v s := h 35 e s x
theorem Ig.mpc {α : Type} {m : Nat} {v : State → α} (h : Ig m v) (e : m.testBit 36 = true) (s : State) (x : _) : v { s with mpc := x } = v s := h 36 e s x
theorem Ig.power {α : Type} {m : Nat} {v : State → α} (h : Ig m v) (e : m.testBit 37 = true) (s : State) (x : _) : v { s with power := x } = v s := h 37 e s x
theorem Ig.free {α : Type} {m : Nat} {v : State → α} (h : Ig m v) (e : m.testBit 38 = true) (s : State) (x : _) : v { s with free := x } = v s := h 38 e s x
theorem Ig.pending {α : Type} {m : Nat} {v : State → α} (h : Ig m v) (e : m.testBit 39 = true) (s : State) (x : _) : v { s with pending := x } = v s := h 39 e s x
/-- Two states agree on every field outside a mask. -/
def Agree (m : Nat) (s t : State) : Prop :=
  (m.testBit 0 = true ∨ t.fuses = s.fuses) ∧
  (m.testBit 1 = true ∨ t.flash = s.flash) ∧
  (m.testBit 2 = true ∨ t.clock = s.clock) ∧
  (m.testBit 3 = true ∨ t.boot = s.boot) ∧
  (m.testBit 4 = true ∨ t.pins = s.pins) ∧
  (m.testBit 5 = true ∨ t.mbs = s.mbs) ∧
  (m.testBit 6 = true ∨ t.mbOrder = s.mbOrder) ∧
  (m.testBit 7 = true ∨ t.parts = s.parts) ∧
  (m.testBit 8 = true ∨ t.fmEq = s.fmEq) ∧
  (m.testBit 9 = true ∨ t.fmUnbound = s.fmUnbound) ∧
  (m.testBit 10 = true ∨ t.ctxs = s.ctxs) ∧
  (m.testBit 11 = true ∨ t.gens = s.gens) ∧
  (m.testBit 12 = true ∨ t.quarantine = s.quarantine) ∧
  (m.testBit 13 = true ∨ t.tables = s.tables) ∧
  (m.testBit 14 = true ∨ t.tcache = s.tcache) ∧
  (m.testBit 15 = true ∨ t.regions = s.regions) ∧
  (m.testBit 16 = true ∨ t.extents = s.extents) ∧
  (m.testBit 17 = true ∨ t.chunks = s.chunks) ∧
  (m.testBit 18 = true ∨ t.pubs = s.pubs) ∧
  (m.testBit 19 = true ∨ t.queues = s.queues) ∧
  (m.testBit 20 = true ∨ t.descs = s.descs) ∧
  (m.testBit 21 = true ∨ t.descOrder = s.descOrder) ∧
  (m.testBit 22 = true ∨ t.heldOrder = s.heldOrder) ∧
  (m.testBit 23 = true ∨ t.eqs = s.eqs) ∧
  (m.testBit 24 = true ∨ t.faults = s.faults) ∧
  (m.testBit 25 = true ∨ t.coh = s.coh) ∧
  (m.testBit 26 = true ∨ t.pool = s.pool) ∧
  (m.testBit 27 = true ∨ t.engines = s.engines) ∧
  (m.testBit 28 = true ∨ t.colls = s.colls) ∧
  (m.testBit 29 = true ∨ t.ownOut = s.ownOut) ∧
  (m.testBit 30 = true ∨ t.shapers = s.shapers) ∧
  (m.testBit 31 = true ∨ t.wheel = s.wheel) ∧
  (m.testBit 32 = true ∨ t.ports = s.ports) ∧
  (m.testBit 33 = true ∨ t.net = s.net) ∧
  (m.testBit 34 = true ∨ t.mirror = s.mirror) ∧
  (m.testBit 35 = true ∨ t.fw = s.fw) ∧
  (m.testBit 36 = true ∨ t.mpc = s.mpc) ∧
  (m.testBit 37 = true ∨ t.power = s.power) ∧
  (m.testBit 38 = true ∨ t.free = s.free) ∧
  (m.testBit 39 = true ∨ t.pending = s.pending)
/-- One field replaced. -/
theorem view_one {α : Type} {v : State → α} {b : Bool} {x y : State} {p : Prop} (hb : b = true → v x = v y)
    (hp : p → x = y) (h : b = true ∨ p) : v x = v y := by
  rcases h with h | h
  · exact hb h
  · rw [hp h]
/-- A view that ignores a mask is the same on states that agree outside it. -/
theorem Ig.ext {α : Type} {m : Nat} {v : State → α} (h : Ig m v) (s t : State) (e : Agree m s t) : v t = v s := by
  obtain ⟨e0, e1, e2, e3, e4, e5, e6, e7, e8, e9, e10, e11, e12, e13, e14, e15, e16, e17, e18, e19, e20, e21, e22, e23, e24, e25, e26, e27, e28, e29, e30, e31, e32, e33, e34, e35, e36, e37, e38, e39⟩ := e
  let t0 : State := { s with fuses := t.fuses }
  have h0 : v t0 = v s := view_one (fun a => h 0 a s t.fuses) (fun a => by simp only [t0]; rw [a]) e0
  let t1 : State := { t0 with flash := t.flash }
  have h1 : v t1 = v t0 := view_one (fun a => h 1 a t0 t.flash) (fun a => by simp only [t1]; rw [a]) e1
  let t2 : State := { t1 with clock := t.clock }
  have h2 : v t2 = v t1 := view_one (fun a => h 2 a t1 t.clock) (fun a => by simp only [t2]; rw [a]) e2
  let t3 : State := { t2 with boot := t.boot }
  have h3 : v t3 = v t2 := view_one (fun a => h 3 a t2 t.boot) (fun a => by simp only [t3]; rw [a]) e3
  let t4 : State := { t3 with pins := t.pins }
  have h4 : v t4 = v t3 := view_one (fun a => h 4 a t3 t.pins) (fun a => by simp only [t4]; rw [a]) e4
  let t5 : State := { t4 with mbs := t.mbs }
  have h5 : v t5 = v t4 := view_one (fun a => h 5 a t4 t.mbs) (fun a => by simp only [t5]; rw [a]) e5
  let t6 : State := { t5 with mbOrder := t.mbOrder }
  have h6 : v t6 = v t5 := view_one (fun a => h 6 a t5 t.mbOrder) (fun a => by simp only [t6]; rw [a]) e6
  let t7 : State := { t6 with parts := t.parts }
  have h7 : v t7 = v t6 := view_one (fun a => h 7 a t6 t.parts) (fun a => by simp only [t7]; rw [a]) e7
  let t8 : State := { t7 with fmEq := t.fmEq }
  have h8 : v t8 = v t7 := view_one (fun a => h 8 a t7 t.fmEq) (fun a => by simp only [t8]; rw [a]) e8
  let t9 : State := { t8 with fmUnbound := t.fmUnbound }
  have h9 : v t9 = v t8 := view_one (fun a => h 9 a t8 t.fmUnbound) (fun a => by simp only [t9]; rw [a]) e9
  let t10 : State := { t9 with ctxs := t.ctxs }
  have h10 : v t10 = v t9 := view_one (fun a => h 10 a t9 t.ctxs) (fun a => by simp only [t10]; rw [a]) e10
  let t11 : State := { t10 with gens := t.gens }
  have h11 : v t11 = v t10 := view_one (fun a => h 11 a t10 t.gens) (fun a => by simp only [t11]; rw [a]) e11
  let t12 : State := { t11 with quarantine := t.quarantine }
  have h12 : v t12 = v t11 := view_one (fun a => h 12 a t11 t.quarantine) (fun a => by simp only [t12]; rw [a]) e12
  let t13 : State := { t12 with tables := t.tables }
  have h13 : v t13 = v t12 := view_one (fun a => h 13 a t12 t.tables) (fun a => by simp only [t13]; rw [a]) e13
  let t14 : State := { t13 with tcache := t.tcache }
  have h14 : v t14 = v t13 := view_one (fun a => h 14 a t13 t.tcache) (fun a => by simp only [t14]; rw [a]) e14
  let t15 : State := { t14 with regions := t.regions }
  have h15 : v t15 = v t14 := view_one (fun a => h 15 a t14 t.regions) (fun a => by simp only [t15]; rw [a]) e15
  let t16 : State := { t15 with extents := t.extents }
  have h16 : v t16 = v t15 := view_one (fun a => h 16 a t15 t.extents) (fun a => by simp only [t16]; rw [a]) e16
  let t17 : State := { t16 with chunks := t.chunks }
  have h17 : v t17 = v t16 := view_one (fun a => h 17 a t16 t.chunks) (fun a => by simp only [t17]; rw [a]) e17
  let t18 : State := { t17 with pubs := t.pubs }
  have h18 : v t18 = v t17 := view_one (fun a => h 18 a t17 t.pubs) (fun a => by simp only [t18]; rw [a]) e18
  let t19 : State := { t18 with queues := t.queues }
  have h19 : v t19 = v t18 := view_one (fun a => h 19 a t18 t.queues) (fun a => by simp only [t19]; rw [a]) e19
  let t20 : State := { t19 with descs := t.descs }
  have h20 : v t20 = v t19 := view_one (fun a => h 20 a t19 t.descs) (fun a => by simp only [t20]; rw [a]) e20
  let t21 : State := { t20 with descOrder := t.descOrder }
  have h21 : v t21 = v t20 := view_one (fun a => h 21 a t20 t.descOrder) (fun a => by simp only [t21]; rw [a]) e21
  let t22 : State := { t21 with heldOrder := t.heldOrder }
  have h22 : v t22 = v t21 := view_one (fun a => h 22 a t21 t.heldOrder) (fun a => by simp only [t22]; rw [a]) e22
  let t23 : State := { t22 with eqs := t.eqs }
  have h23 : v t23 = v t22 := view_one (fun a => h 23 a t22 t.eqs) (fun a => by simp only [t23]; rw [a]) e23
  let t24 : State := { t23 with faults := t.faults }
  have h24 : v t24 = v t23 := view_one (fun a => h 24 a t23 t.faults) (fun a => by simp only [t24]; rw [a]) e24
  let t25 : State := { t24 with coh := t.coh }
  have h25 : v t25 = v t24 := view_one (fun a => h 25 a t24 t.coh) (fun a => by simp only [t25]; rw [a]) e25
  let t26 : State := { t25 with pool := t.pool }
  have h26 : v t26 = v t25 := view_one (fun a => h 26 a t25 t.pool) (fun a => by simp only [t26]; rw [a]) e26
  let t27 : State := { t26 with engines := t.engines }
  have h27 : v t27 = v t26 := view_one (fun a => h 27 a t26 t.engines) (fun a => by simp only [t27]; rw [a]) e27
  let t28 : State := { t27 with colls := t.colls }
  have h28 : v t28 = v t27 := view_one (fun a => h 28 a t27 t.colls) (fun a => by simp only [t28]; rw [a]) e28
  let t29 : State := { t28 with ownOut := t.ownOut }
  have h29 : v t29 = v t28 := view_one (fun a => h 29 a t28 t.ownOut) (fun a => by simp only [t29]; rw [a]) e29
  let t30 : State := { t29 with shapers := t.shapers }
  have h30 : v t30 = v t29 := view_one (fun a => h 30 a t29 t.shapers) (fun a => by simp only [t30]; rw [a]) e30
  let t31 : State := { t30 with wheel := t.wheel }
  have h31 : v t31 = v t30 := view_one (fun a => h 31 a t30 t.wheel) (fun a => by simp only [t31]; rw [a]) e31
  let t32 : State := { t31 with ports := t.ports }
  have h32 : v t32 = v t31 := view_one (fun a => h 32 a t31 t.ports) (fun a => by simp only [t32]; rw [a]) e32
  let t33 : State := { t32 with net := t.net }
  have h33 : v t33 = v t32 := view_one (fun a => h 33 a t32 t.net) (fun a => by simp only [t33]; rw [a]) e33
  let t34 : State := { t33 with mirror := t.mirror }
  have h34 : v t34 = v t33 := view_one (fun a => h 34 a t33 t.mirror) (fun a => by simp only [t34]; rw [a]) e34
  let t35 : State := { t34 with fw := t.fw }
  have h35 : v t35 = v t34 := view_one (fun a => h 35 a t34 t.fw) (fun a => by simp only [t35]; rw [a]) e35
  let t36 : State := { t35 with mpc := t.mpc }
  have h36 : v t36 = v t35 := view_one (fun a => h 36 a t35 t.mpc) (fun a => by simp only [t36]; rw [a]) e36
  let t37 : State := { t36 with power := t.power }
  have h37 : v t37 = v t36 := view_one (fun a => h 37 a t36 t.power) (fun a => by simp only [t37]; rw [a]) e37
  let t38 : State := { t37 with free := t.free }
  have h38 : v t38 = v t37 := view_one (fun a => h 38 a t37 t.free) (fun a => by simp only [t38]; rw [a]) e38
  let t39 : State := { t38 with pending := t.pending }
  have h39 : v t39 = v t38 := view_one (fun a => h 39 a t38 t.pending) (fun a => by simp only [t39]; rw [a]) e39
  have hh : v t = v t39 := rfl
  rw [hh, h39, h38, h37, h36, h35, h34, h33, h32, h31, h30, h29, h28, h27, h26, h25, h24, h23, h22, h21, h20, h19, h18, h17, h16, h15, h14, h13, h12, h11, h10, h9, h8, h7, h6, h5, h4, h3, h2, h1, h0]
theorem foldl_keep222 {α β γ δ ε : Type} {v : State → α} {g : γ × δ × ε × State → β → γ × δ × ε × State}
    (h : ∀ s x, v (g s x).2.2.2 = v s.2.2.2) (l : List β) (s : γ × δ × ε × State) : v (l.foldl g s).2.2.2 = v s.2.2.2 := by
  induction l generalizing s with
  | nil => rfl
  | cons x l ih => rw [List.foldl_cons, ih, h]
theorem foldl_keep2222 {α β γ δ ε ζ : Type} {v : State → α} {g : γ × δ × ε × ζ × State → β → γ × δ × ε × ζ × State}
    (h : ∀ s x, v (g s x).2.2.2.2 = v s.2.2.2.2) (l : List β) (s : γ × δ × ε × ζ × State) :
    v (l.foldl g s).2.2.2.2 = v s.2.2.2.2 := by
  induction l generalizing s with
  | nil => rfl
  | cons x l ih => rw [List.foldl_cons, ih, h]
theorem foldl_keepO {α β : Type} {v : State → α} {g : Option State → β → Option State} {a : α}
    (h : ∀ r x u, g r x = some u → ∃ s, r = some s ∧ v u = v s) (l : List β) (r : Option State) (t : State)
    (h0 : ∀ s, r = some s → v s = a) (ht : l.foldl g r = some t) : v t = a := by
  induction l generalizing r with
  | nil => exact h0 t ht
  | cons x l ih =>
    refine ih (g r x) ?_ ht
    intro u hu
    obtain ⟨s, hs, e⟩ := h r x u hu
    rw [e]
    exact h0 s hs
theorem foldl_keep1 {α β γ : Type} {v : State → α} {g : State × γ → β → State × γ} (h : ∀ s x, v (g s x).1 = v s.1) (l : List β)
    (s : State × γ) : v (l.foldl g s).1 = v s.1 := by
  induction l generalizing s with
  | nil => rfl
  | cons x l ih => rw [List.foldl_cons, ih, h]
theorem getD_keep {α : Type} {v : State → α} {o : Option State} {d s : State} (h : ∀ t, o = some t → v t = v s) (hd : v d = v s) :
    v (o.getD d) = v s := by
  cases o with
  | none => exact hd
  | some t => exact h t rfl
theorem foldl_keep {α β : Type} {v : State → α} {g : State → β → State} (h : ∀ s x, v (g s x) = v s) (l : List β) (s : State) :
    v (l.foldl g s) = v s := by
  induction l generalizing s with
  | nil => rfl
  | cons x l ih => rw [List.foldl_cons, ih, h]
theorem foldl_keep2 {α β γ : Type} {v : State → α} {g : γ × State → β → γ × State} (h : ∀ s x, v (g s x).2 = v s.2) (l : List β)
    (s : γ × State) : v (l.foldl g s).2 = v s.2 := by
  induction l generalizing s with
  | nil => rfl
  | cons x l ih => rw [List.foldl_cons, ih, h]
theorem foldl_keep22 {α β γ δ : Type} {v : State → α} {g : γ × δ × State → β → γ × δ × State} (h : ∀ s x, v (g s x).2.2 = v s.2.2)
    (l : List β) (s : γ × δ × State) : v (l.foldl g s).2.2 = v s.2.2 := by
  induction l generalizing s with
  | nil => rfl
  | cons x l ih => rw [List.foldl_cons, ih, h]

/-! Each field is a view that ignores every other field. -/

/-- The mask of every field but one. -/
def allBut (i : Nat) : Nat := 2 ^ 40 - 1 - 2 ^ i
theorem ig_fuses : Ig (allBut 0) State.fuses := by
  intro i hi
  unfold Ignores
  split <;> first | (intro _ _; rfl) | (exfalso; revert hi; decide) | trivial
theorem ig_flash : Ig (allBut 1) State.flash := by
  intro i hi
  unfold Ignores
  split <;> first | (intro _ _; rfl) | (exfalso; revert hi; decide) | trivial
theorem ig_clock : Ig (allBut 2) State.clock := by
  intro i hi
  unfold Ignores
  split <;> first | (intro _ _; rfl) | (exfalso; revert hi; decide) | trivial
theorem ig_boot : Ig (allBut 3) State.boot := by
  intro i hi
  unfold Ignores
  split <;> first | (intro _ _; rfl) | (exfalso; revert hi; decide) | trivial
theorem ig_pins : Ig (allBut 4) State.pins := by
  intro i hi
  unfold Ignores
  split <;> first | (intro _ _; rfl) | (exfalso; revert hi; decide) | trivial
theorem ig_mbs : Ig (allBut 5) State.mbs := by
  intro i hi
  unfold Ignores
  split <;> first | (intro _ _; rfl) | (exfalso; revert hi; decide) | trivial
theorem ig_mbOrder : Ig (allBut 6) State.mbOrder := by
  intro i hi
  unfold Ignores
  split <;> first | (intro _ _; rfl) | (exfalso; revert hi; decide) | trivial
theorem ig_parts : Ig (allBut 7) State.parts := by
  intro i hi
  unfold Ignores
  split <;> first | (intro _ _; rfl) | (exfalso; revert hi; decide) | trivial
theorem ig_fmEq : Ig (allBut 8) State.fmEq := by
  intro i hi
  unfold Ignores
  split <;> first | (intro _ _; rfl) | (exfalso; revert hi; decide) | trivial
theorem ig_fmUnbound : Ig (allBut 9) State.fmUnbound := by
  intro i hi
  unfold Ignores
  split <;> first | (intro _ _; rfl) | (exfalso; revert hi; decide) | trivial
theorem ig_ctxs : Ig (allBut 10) State.ctxs := by
  intro i hi
  unfold Ignores
  split <;> first | (intro _ _; rfl) | (exfalso; revert hi; decide) | trivial
theorem ig_gens : Ig (allBut 11) State.gens := by
  intro i hi
  unfold Ignores
  split <;> first | (intro _ _; rfl) | (exfalso; revert hi; decide) | trivial
theorem ig_quarantine : Ig (allBut 12) State.quarantine := by
  intro i hi
  unfold Ignores
  split <;> first | (intro _ _; rfl) | (exfalso; revert hi; decide) | trivial
theorem ig_tables : Ig (allBut 13) State.tables := by
  intro i hi
  unfold Ignores
  split <;> first | (intro _ _; rfl) | (exfalso; revert hi; decide) | trivial
theorem ig_tcache : Ig (allBut 14) State.tcache := by
  intro i hi
  unfold Ignores
  split <;> first | (intro _ _; rfl) | (exfalso; revert hi; decide) | trivial
theorem ig_regions : Ig (allBut 15) State.regions := by
  intro i hi
  unfold Ignores
  split <;> first | (intro _ _; rfl) | (exfalso; revert hi; decide) | trivial
theorem ig_extents : Ig (allBut 16) State.extents := by
  intro i hi
  unfold Ignores
  split <;> first | (intro _ _; rfl) | (exfalso; revert hi; decide) | trivial
theorem ig_chunks : Ig (allBut 17) State.chunks := by
  intro i hi
  unfold Ignores
  split <;> first | (intro _ _; rfl) | (exfalso; revert hi; decide) | trivial
theorem ig_pubs : Ig (allBut 18) State.pubs := by
  intro i hi
  unfold Ignores
  split <;> first | (intro _ _; rfl) | (exfalso; revert hi; decide) | trivial
theorem ig_queues : Ig (allBut 19) State.queues := by
  intro i hi
  unfold Ignores
  split <;> first | (intro _ _; rfl) | (exfalso; revert hi; decide) | trivial
theorem ig_descs : Ig (allBut 20) State.descs := by
  intro i hi
  unfold Ignores
  split <;> first | (intro _ _; rfl) | (exfalso; revert hi; decide) | trivial
theorem ig_descOrder : Ig (allBut 21) State.descOrder := by
  intro i hi
  unfold Ignores
  split <;> first | (intro _ _; rfl) | (exfalso; revert hi; decide) | trivial
theorem ig_heldOrder : Ig (allBut 22) State.heldOrder := by
  intro i hi
  unfold Ignores
  split <;> first | (intro _ _; rfl) | (exfalso; revert hi; decide) | trivial
theorem ig_eqs : Ig (allBut 23) State.eqs := by
  intro i hi
  unfold Ignores
  split <;> first | (intro _ _; rfl) | (exfalso; revert hi; decide) | trivial
theorem ig_faults : Ig (allBut 24) State.faults := by
  intro i hi
  unfold Ignores
  split <;> first | (intro _ _; rfl) | (exfalso; revert hi; decide) | trivial
theorem ig_coh : Ig (allBut 25) State.coh := by
  intro i hi
  unfold Ignores
  split <;> first | (intro _ _; rfl) | (exfalso; revert hi; decide) | trivial
theorem ig_pool : Ig (allBut 26) State.pool := by
  intro i hi
  unfold Ignores
  split <;> first | (intro _ _; rfl) | (exfalso; revert hi; decide) | trivial
theorem ig_engines : Ig (allBut 27) State.engines := by
  intro i hi
  unfold Ignores
  split <;> first | (intro _ _; rfl) | (exfalso; revert hi; decide) | trivial
theorem ig_colls : Ig (allBut 28) State.colls := by
  intro i hi
  unfold Ignores
  split <;> first | (intro _ _; rfl) | (exfalso; revert hi; decide) | trivial
theorem ig_ownOut : Ig (allBut 29) State.ownOut := by
  intro i hi
  unfold Ignores
  split <;> first | (intro _ _; rfl) | (exfalso; revert hi; decide) | trivial
theorem ig_shapers : Ig (allBut 30) State.shapers := by
  intro i hi
  unfold Ignores
  split <;> first | (intro _ _; rfl) | (exfalso; revert hi; decide) | trivial
theorem ig_wheel : Ig (allBut 31) State.wheel := by
  intro i hi
  unfold Ignores
  split <;> first | (intro _ _; rfl) | (exfalso; revert hi; decide) | trivial
theorem ig_ports : Ig (allBut 32) State.ports := by
  intro i hi
  unfold Ignores
  split <;> first | (intro _ _; rfl) | (exfalso; revert hi; decide) | trivial
theorem ig_net : Ig (allBut 33) State.net := by
  intro i hi
  unfold Ignores
  split <;> first | (intro _ _; rfl) | (exfalso; revert hi; decide) | trivial
theorem ig_mirror : Ig (allBut 34) State.mirror := by
  intro i hi
  unfold Ignores
  split <;> first | (intro _ _; rfl) | (exfalso; revert hi; decide) | trivial
theorem ig_fw : Ig (allBut 35) State.fw := by
  intro i hi
  unfold Ignores
  split <;> first | (intro _ _; rfl) | (exfalso; revert hi; decide) | trivial
theorem ig_mpc : Ig (allBut 36) State.mpc := by
  intro i hi
  unfold Ignores
  split <;> first | (intro _ _; rfl) | (exfalso; revert hi; decide) | trivial
theorem ig_power : Ig (allBut 37) State.power := by
  intro i hi
  unfold Ignores
  split <;> first | (intro _ _; rfl) | (exfalso; revert hi; decide) | trivial
theorem ig_free : Ig (allBut 38) State.free := by
  intro i hi
  unfold Ignores
  split <;> first | (intro _ _; rfl) | (exfalso; revert hi; decide) | trivial
theorem ig_pending : Ig (allBut 39) State.pending := by
  intro i hi
  unfold Ignores
  split <;> first | (intro _ _; rfl) | (exfalso; revert hi; decide) | trivial

end Sys2Proof.Laws
end

