-- ==== Sys2Proof/Laws/KeepA.lean ====
section
/-! SUPPORT. What each operation of the block leaves alone, part 1 of 4: a view that ignores the fields an operation may change
is the same after it. -/

namespace Sys2Proof.Laws
open Sys2Proof.Machine

set_option linter.all false
set_option Elab.async false

theorem keep_updCoh {α : Type} {v : State → α} (hv : Ig 33554432 v) (s : State) (f : Coherence → Coherence) :
    v (State.updCoh s f) = v s := by
  simp [State.updCoh, hv.coh rfl, foldl_keep, foldl_keep2, foldl_keep22, foldl_keep1, apply_ite v]; done
theorem keep_modTxn {α : Type} {v : State → α} (hv : Ig 33554432 v) (s : State) (id : ℕ) (f : Txn → Txn) :
    v (State.modTxn s id f) = v s := by
  simp [State.modTxn, keep_updCoh (hv.sub rfl), foldl_keep, foldl_keep2, foldl_keep22, foldl_keep1, apply_ite v]; done
theorem keep_modEq {α : Type} {v : State → α} (hv : Ig 8388608 v) (s : State) (e : ℕ) (f : EventQ → EventQ) :
    v (State.modEq s e f) = v s := by
  simp [State.modEq, hv.eqs rfl, foldl_keep, foldl_keep2, foldl_keep22, foldl_keep1, apply_ite v]; done
theorem keep_postEq {α : Type} {v : State → α} (hv : Ig 8388608 v) (s : State) (q : ℕ) (ev : Ev) :
    v (State.postEq s q ev) = v s := by
  simp [State.postEq, keep_modEq (hv.sub rfl), foldl_keep, foldl_keep2, foldl_keep22, foldl_keep1, apply_ite v]; done
theorem keep_postFm {α : Type} {v : State → α} (hv : Ig 8389120 v) (s : State) (ev : Ev) :
    v (State.postFm s ev) = v s := by
  unfold State.postFm; (repeat' split) <;> first | (simp [keep_postEq (hv.sub rfl), hv.fmUnbound rfl, foldl_keep, foldl_keep2, foldl_keep22, foldl_keep1, apply_ite v]; done) | grind [keep_postEq (hv.sub rfl), hv.fmUnbound rfl]
theorem keep_logOn {α : Type} {v : State → α} (hv : Ig 67108864 v) (s : State) (hub : ℕ) (kind : ℕ) (u : ℕ) (ppa : ℕ) (count : ℕ) (detail : ℕ) (synd : List ℕ) (tag : Option ℕ) :
    v (State.logOn s hub kind u ppa count detail synd tag) = v s := by
  simp [State.logOn, hv.pool rfl, foldl_keep, foldl_keep2, foldl_keep22, foldl_keep1, apply_ite v]; done
theorem keep_log {α : Type} {v : State → α} (hv : Ig 67108864 v) (s : State) (kind : ℕ) (u : ℕ) (ppa : ℕ) (count : ℕ) (detail : ℕ) (synd : List ℕ) (tag : Option ℕ) :
    v (State.log s kind u ppa count detail synd tag) = v s := by
  simp [State.log, keep_logOn (hv.sub rfl), foldl_keep, foldl_keep2, foldl_keep22, foldl_keep1, apply_ite v]; done
theorem keep_updPool {α : Type} {v : State → α} (hv : Ig 67108864 v) (s : State) (f : Pool → Pool) :
    v (State.updPool s f) = v s := by
  simp [State.updPool, hv.pool rfl, foldl_keep, foldl_keep2, foldl_keep22, foldl_keep1, apply_ite v]; done
theorem keep_setMeta {α : Type} {v : State → α} (hv : Ig 67108864 v) (s : State) (sec : ℕ) (m : SectorMeta) :
    v (State.setMeta s sec m) = v s := by
  simp [State.setMeta, keep_updPool (hv.sub rfl), foldl_keep, foldl_keep2, foldl_keep22, foldl_keep1, apply_ite v]; done
theorem keep_fireFlip {α : Type} {v : State → α} (hv : Ig 75497984 v) (s : State) (u : ℕ) (sec : ℕ) (tag : Option ℕ) :
    v (State.fireFlip s u sec tag) = v s := by
  unfold State.fireFlip; (repeat' split) <;> first | (simp [keep_postFm (hv.sub rfl), keep_log (hv.sub rfl), keep_updPool (hv.sub rfl), keep_setMeta (hv.sub rfl), foldl_keep, foldl_keep2, foldl_keep22, foldl_keep1, apply_ite v]; done) | grind [keep_postFm (hv.sub rfl), keep_log (hv.sub rfl), keep_updPool (hv.sub rfl), keep_setMeta (hv.sub rfl)]
theorem keep_store {α : Type} {v : State → α} (hv : Ig 75497984 v) (s : State) (u : ℕ) (e : QEntry) (md : SectorMeta) :
    v (State.store s u e md) = v s := by
  unfold State.store; (repeat' split) <;> first | (simp [keep_fireFlip (hv.sub rfl), keep_setMeta (hv.sub rfl), keep_updPool (hv.sub rfl), foldl_keep, foldl_keep2, foldl_keep22, foldl_keep1, apply_ite v]; done) | grind [keep_fireFlip (hv.sub rfl), keep_setMeta (hv.sub rfl), keep_updPool (hv.sub rfl)]
theorem keep_commitWrite {α : Type} {v : State → α} (hv : Ig 75497984 v) (s : State) (u : ℕ) (e : QEntry) :
    v (State.commitWrite s u e) = v s := by
  simp [State.commitWrite, keep_store (hv.sub rfl), foldl_keep, foldl_keep2, foldl_keep22, foldl_keep1, apply_ite v]; done
theorem keep_updUnit {α : Type} {v : State → α} (hv : Ig 67108864 v) (s : State) (u : ℕ) (f : MemUnit → MemUnit) :
    v (State.updUnit s u f) = v s := by
  simp [State.updUnit, hv.pool rfl, foldl_keep, foldl_keep2, foldl_keep22, foldl_keep1, apply_ite v]; done
theorem keep_wakeUnit {α : Type} {v : State → α} (hv : Ig 67108864 v) (s : State) (u : ℕ) :
    v (State.wakeUnit s u) = v s := by
  simp [State.wakeUnit, keep_updUnit (hv.sub rfl), foldl_keep, foldl_keep2, foldl_keep22, foldl_keep1, apply_ite v]; done
theorem keep_neighbourRefresh {α : Type} {v : State → α} (hv : Ig 75497984 v) (s : State) (u : ℕ) (bank : ℕ) (x : ℕ) :
    v (State.neighbourRefresh s u bank x) = v s := by
  simp [State.neighbourRefresh, keep_updUnit (hv.sub rfl), keep_postFm (hv.sub rfl), foldl_keep, foldl_keep2, foldl_keep22, foldl_keep1, apply_ite v]; done
theorem keep_activate {α : Type} {v : State → α} (hv : Ig 75497984 v) (s : State) (u : ℕ) (l : Loc) :
    v (State.activate s u l) = v s := by
  simp [State.activate, keep_updUnit (hv.sub rfl), keep_neighbourRefresh (hv.sub rfl), foldl_keep, foldl_keep2, foldl_keep22, foldl_keep1, apply_ite v]; done
theorem keep_command_ {α : Type} {v : State → α} (hv : Ig 75497984 v) (s : State) (u : ℕ) (e : QEntry) :
    v (State.command_ s u e) = v s := by
  simp [State.command_, keep_wakeUnit (hv.sub rfl), keep_activate (hv.sub rfl), keep_updUnit (hv.sub rfl), foldl_keep, foldl_keep2, foldl_keep22, foldl_keep1, apply_ite v]; done
theorem keep_updMb {α : Type} {v : State → α} (hv : Ig 32 v) (s : State) (m : ℕ) (f : Mailbox → Mailbox) :
    v (State.updMb s m f) = v s := by
  simp [State.updMb, hv.mbs rfl, foldl_keep, foldl_keep2, foldl_keep22, foldl_keep1, apply_ite v]; done
theorem keep_respond {α : Type} {v : State → α} (hv : Ig 32 v) (s : State) (m : ℕ) (r : Resp) :
    v (State.respond s m r) = v s := by
  simp [State.respond, keep_updMb (hv.sub rfl), foldl_keep, foldl_keep2, foldl_keep22, foldl_keep1, apply_ite v]; done
theorem keep_respondQ {α : Type} {v : State → α} (hv : Ig 32 v) (s : State) (m : Option ℕ) (r : Resp) :
    v (State.respond? s m r) = v s := by
  unfold State.respond?; (repeat' split) <;> first | (simp [keep_respond (hv.sub rfl), foldl_keep, foldl_keep2, foldl_keep22, foldl_keep1, apply_ite v]; done) | grind [keep_respond (hv.sub rfl)]
theorem keep_modDesc {α : Type} {v : State → α} (hv : Ig 1048576 v) (s : State) (q : ℕ) (i : BitVec 32) (f : Desc → Desc) :
    v (State.modDesc s q i f) = v s := by
  simp [State.modDesc, hv.descs rfl, foldl_keep, foldl_keep2, foldl_keep22, foldl_keep1, apply_ite v]; done
theorem keep_answerDenied {α : Type} {v : State → α} (hv : Ig 34603008 v) (s : State) (st : Status) (es : List QEntry) :
    v (State.answerDenied s st es) = v s := by
  unfold State.answerDenied; repeat' first | rfl | (simp [keep_modDesc (hv.sub rfl), hv.coh rfl, foldl_keep, foldl_keep2, foldl_keep22, foldl_keep1, apply_ite v]; done) | grind [keep_modDesc (hv.sub rfl), hv.coh rfl] | rw [foldl_keep (v := v)] | rw [foldl_keep2 (v := v)] | rw [foldl_keep1 (v := v)] | rw [foldl_keep22 (v := v)] | refine getD_keep (v := v) ?_ ?_ | rw [hv.coh rfl] | split | dsimp only | intro _
theorem keep_modRegion {α : Type} {v : State → α} (hv : Ig 32768 v) (s : State) (r : ℕ) (f : Region → Region) :
    v (State.modRegion s r f) = v s := by
  simp [State.modRegion, hv.regions rfl, foldl_keep, foldl_keep2, foldl_keep22, foldl_keep1, apply_ite v]; done
theorem keep_degrade {α : Type} {v : State → α} (hv : Ig 32768 v) (s : State) (rs : List ℕ) :
    v (State.degrade s rs) = v s := by
  simp [State.degrade, keep_modRegion (hv.sub rfl), foldl_keep, foldl_keep2, foldl_keep22, foldl_keep1, apply_ite v]; done
theorem keep_modPart {α : Type} {v : State → α} (hv : Ig 128 v) (s : State) (p : ℕ) (f : Partition → Partition) :
    v (State.modPart s p f) = v s := by
  simp [State.modPart, hv.parts rfl, foldl_keep, foldl_keep2, foldl_keep22, foldl_keep1, apply_ite v]; done
theorem keep_postPart {α : Type} {v : State → α} (hv : Ig 8388736 v) (s : State) (p : ℕ) (ev : Ev) :
    v (State.postPart s p ev) = v s := by
  unfold State.postPart; (repeat' split) <;> first | (simp [keep_postEq (hv.sub rfl), keep_modPart (hv.sub rfl), foldl_keep, foldl_keep2, foldl_keep22, foldl_keep1, apply_ite v]; done) | grind [keep_postEq (hv.sub rfl), keep_modPart (hv.sub rfl)]
theorem keep_postParts {α : Type} {v : State → α} (hv : Ig 8388736 v) (s : State) (ps : List ℕ) (ev : ℕ → Ev) :
    v (State.postParts s ps ev) = v s := by
  simp [State.postParts, keep_postPart (hv.sub rfl), foldl_keep, foldl_keep2, foldl_keep22, foldl_keep1, apply_ite v]; done
theorem keep_outside {α : Type} {v : State → α} (hv : Ig 8388736 v) (s : State) (num : ℕ) (cause : ℕ) (rs : List ℕ) :
    v (State.outside s num cause rs) = v s := by
  simp [State.outside, keep_postParts (hv.sub rfl), foldl_keep, foldl_keep2, foldl_keep22, foldl_keep1, apply_ite v]; done
theorem keep_freeze {α : Type} {v : State → α} (hv : Ig 110133920 v) (s : State) (u : ℕ) (cause : ℕ) (ppa : ℕ) (synd : List ℕ) (first : Option QEntry) (tag : Option ℕ) :
    v (State.freeze s u cause ppa synd first tag) = v s := by
  unfold State.freeze; repeat' first | rfl | (simp [keep_updUnit (hv.sub rfl), keep_respondQ (hv.sub rfl), keep_answerDenied (hv.sub rfl), keep_log (hv.sub rfl), keep_degrade (hv.sub rfl), keep_postFm (hv.sub rfl), keep_outside (hv.sub rfl), foldl_keep, foldl_keep2, foldl_keep22, foldl_keep1, apply_ite v]; done) | rw [foldl_keep (v := v)] | rw [foldl_keep2 (v := v)] | rw [foldl_keep1 (v := v)] | rw [foldl_keep22 (v := v)] | refine getD_keep (v := v) ?_ ?_ | split | dsimp only | intro _ | grind [keep_updUnit (hv.sub rfl), keep_respondQ (hv.sub rfl), keep_answerDenied (hv.sub rfl), keep_log (hv.sub rfl), keep_degrade (hv.sub rfl), keep_postFm (hv.sub rfl), keep_outside (hv.sub rfl)]
theorem keep_corrected {α : Type} {v : State → α} (hv : Ig 67108864 v) (s : State) (u : ℕ) (sec : ℕ) (sym : ℕ) (synd : List ℕ) (tag : Option ℕ) :
    v (State.corrected s u sec sym synd tag) = v s := by
  simp [State.corrected, keep_updUnit (hv.sub rfl), keep_log (hv.sub rfl), foldl_keep, foldl_keep2, foldl_keep22, foldl_keep1, apply_ite v]; done
theorem keep_issueRead {α : Type} {v : State → α} (hv : Ig 110133920 v) (s : State) (u : ℕ) (e : QEntry) :
    v (State.issueRead s u e).2 = v s := by
  unfold State.issueRead; (repeat' split) <;> first | (simp [keep_command_ (hv.sub rfl), keep_freeze (hv.sub rfl), keep_corrected (hv.sub rfl), foldl_keep, foldl_keep2, foldl_keep22, foldl_keep1, apply_ite v]; done) | grind [keep_command_ (hv.sub rfl), keep_freeze (hv.sub rfl), keep_corrected (hv.sub rfl)]
theorem keep_issue {α : Type} {v : State → α} (hv : Ig 110133920 v) (s : State) (u : ℕ) (e : QEntry) :
    v (State.issue s u e) = v s := by
  simp [State.issue, keep_commitWrite (hv.sub rfl), keep_command_ (hv.sub rfl), keep_issueRead (hv.sub rfl), foldl_keep, foldl_keep2, foldl_keep22, foldl_keep1, apply_ite v]; done
theorem keep_spareMark {α : Type} {v : State → α} (hv : Ig 1048576 v) (s : State) (u : ℕ) (e : QEntry) :
    v (State.spareMark s u e) = v s := by
  unfold State.spareMark; (repeat' split) <;> first | (simp [keep_modDesc (hv.sub rfl), foldl_keep, foldl_keep2, foldl_keep22, foldl_keep1, apply_ite v]; done) | grind [keep_modDesc (hv.sub rfl)]
theorem keep_issueQueued {α : Type} {v : State → α} (hv : Ig 110133920 v) (s : State) (u : ℕ) (e : QEntry) :
    v (State.issueQueued s u e) = v s := by
  simp [State.issueQueued, keep_issue (hv.sub rfl), keep_spareMark (hv.sub rfl), keep_updUnit (hv.sub rfl), foldl_keep, foldl_keep2, foldl_keep22, foldl_keep1, apply_ite v]; done
theorem keep_makeRoom {α : Type} {v : State → α} (hv : Ig 110133920 v) (s : State) (u : ℕ) (write : Bool) (part : ℕ) :
    v (State.makeRoom s u write part) = v s := by
  unfold State.makeRoom; repeat' first | rfl | (simp [keep_issueQueued (hv.sub rfl), foldl_keep, foldl_keep2, foldl_keep22, foldl_keep1, apply_ite v]; done) | rw [foldl_keep (v := v)] | rw [foldl_keep2 (v := v)] | rw [foldl_keep1 (v := v)] | rw [foldl_keep22 (v := v)] | refine getD_keep (v := v) ?_ ?_ | split | dsimp only | intro _ | grind [keep_issueQueued (hv.sub rfl)]
theorem keep_request {α : Type} {v : State → α} (hv : Ig 110133920 v) (s : State) (u : ℕ) (sec : ℕ) (a : Acc) :
    v (State.request s u sec a) = v s := by
  simp [State.request, keep_makeRoom (hv.sub rfl), keep_updUnit (hv.sub rfl), foldl_keep, foldl_keep2, foldl_keep22, foldl_keep1, apply_ite v]; done
theorem keep_requestBelow {α : Type} {v : State → α} (hv : Ig 110133920 v) (s : State) (sec : ℕ) (a : Acc) :
    v (State.requestBelow s sec a) = v s := by
  unfold State.requestBelow; (repeat' split) <;> first | (simp [keep_request (hv.sub rfl), foldl_keep, foldl_keep2, foldl_keep22, foldl_keep1, apply_ite v]; done) | grind [keep_request (hv.sub rfl)]
theorem keep_requestMem {α : Type} {v : State → α} (hv : Ig 110133920 v) (s : State) (t : Txn) :
    v (State.requestMem s t) = v s := by
  simp [State.requestMem, keep_modTxn (hv.sub rfl), keep_requestBelow (hv.sub rfl), foldl_keep, foldl_keep2, foldl_keep22, foldl_keep1, apply_ite v]; done
theorem keep_fetch {α : Type} {v : State → α} (hv : Ig 110133920 v) (s : State) (u : ℕ) (sec : ℕ) (a : Acc) :
    v (State.fetch s u sec a).2 = v s := by
  unfold State.fetch; (repeat' split) <;> first | (simp [keep_freeze (hv.sub rfl), keep_makeRoom (hv.sub rfl), keep_issueRead (hv.sub rfl), foldl_keep, foldl_keep2, foldl_keep22, foldl_keep1, apply_ite v]; done) | grind [keep_freeze (hv.sub rfl), keep_makeRoom (hv.sub rfl), keep_issueRead (hv.sub rfl)]
theorem keep_pushWrite {α : Type} {v : State → α} (hv : Ig 110133920 v) (s : State) (u : ℕ) (sec : ℕ) (data : List Byte) (poison : Bool) (a : Acc) :
    v (State.pushWrite s u sec data poison a) = v s := by
  simp [State.pushWrite, keep_makeRoom (hv.sub rfl), keep_updUnit (hv.sub rfl), foldl_keep, foldl_keep2, foldl_keep22, foldl_keep1, apply_ite v]; done
theorem keep_writeBackLine {α : Type} {v : State → α} (hv : Ig 110133920 v) (s : State) (l : TierLine) :
    v (State.writeBackLine s l) = v s := by
  unfold State.writeBackLine; repeat' first | rfl | (simp [keep_pushWrite (hv.sub rfl), foldl_keep, foldl_keep2, foldl_keep22, foldl_keep1, apply_ite v]; done) | rw [foldl_keep (v := v)] | rw [foldl_keep2 (v := v)] | rw [foldl_keep1 (v := v)] | rw [foldl_keep22 (v := v)] | refine getD_keep (v := v) ?_ ?_ | split | dsimp only | intro _ | grind [keep_pushWrite (hv.sub rfl)]
theorem keep_tierPut {α : Type} {v : State → α} (hv : Ig 110133920 v) (s : State) (l : TierLine) :
    ∀ t', (State.tierPut s l) = some t' → v t' = v s := by
  unfold State.tierPut; (repeat' split) <;> first | (simp [keep_updPool (hv.sub rfl), keep_writeBackLine (hv.sub rfl), foldl_keep, foldl_keep2, foldl_keep22, foldl_keep1, apply_ite v]; done) | grind [keep_updPool (hv.sub rfl), keep_writeBackLine (hv.sub rfl)]
theorem keep_tierFill {α : Type} {v : State → α} (hv : Ig 110133920 v) (s : State) (u : ℕ) (line : ℕ) (i : ℕ) (a : Acc) :
    v (State.tierFill s u line i a).1 = v s := by
  unfold State.tierFill; repeat' first | rfl | (simp [keep_fetch (hv.sub rfl), foldl_keep, foldl_keep2, foldl_keep22, foldl_keep1, apply_ite v]; done) | rw [foldl_keep (v := v)] | rw [foldl_keep2 (v := v)] | rw [foldl_keep1 (v := v)] | rw [foldl_keep22 (v := v)] | refine getD_keep (v := v) ?_ ?_ | split | dsimp only | intro _ | grind [keep_fetch (hv.sub rfl)]
theorem keep_readBelow {α : Type} {v : State → α} (hv : Ig 110133920 v) (s : State) (sec : ℕ) (a : Acc) :
    v (State.readBelow s sec a).2 = v s := by
  unfold State.readBelow
  have tf : ∀ (s : State) a b c d, v (s.tierFill a b c d).1 = v s := fun s a b c d => keep_tierFill (hv.sub rfl) s a b c d
  have tp : ∀ (s : State) l d, v d = v s → v ((s.tierPut l).getD d) = v s := fun s l d h => getD_keep (fun t h => keep_tierPut (hv.sub rfl) s l t h) h
  have ft : ∀ (s : State) a b c, v (s.fetch a b c).2 = v s := fun s a b c => keep_fetch (hv.sub rfl) s a b c
  split
  · rfl
  · rename_i u hu
    split
    · exact ft _ _ _ _
    · split
      · split
        · exact ft _ _ _ _
        · split
          · exact tp _ _ _ rfl
          · generalize e : s.tierFill u (sec / 1024) (tierIdx sec) a = r
            have k := tf s u (sec / 1024) (tierIdx sec) a
            rw [e] at k
            exact (tp _ _ _ rfl).trans k
      · split
        · exact ft _ _ _ _
        · split
          · rfl
          · generalize e : s.tierFill u (sec / 1024) (tierIdx sec) a = r
            have k := tf s u (sec / 1024) (tierIdx sec) a
            rw [e] at k
            dsimp only
            split
            · exact (tp _ _ _ rfl).trans k
            · exact k
theorem keep_dirTouch {α : Type} {v : State → α} (hv : Ig 33554432 v) (s : State) (g : ℕ) :
    v (State.dirTouch s g) = v s := by
  simp [State.dirTouch, keep_updCoh (hv.sub rfl), foldl_keep, foldl_keep2, foldl_keep22, foldl_keep1, apply_ite v]; done
theorem keep_bucketRead {α : Type} {v : State → α} (hv : Ig 110133920 v) (s : State) (b : ℕ) (a : Acc) :
    v (State.bucketRead s b a).2 = v s := by
  simp [State.bucketRead, keep_readBelow (hv.sub rfl), foldl_keep, foldl_keep2, foldl_keep22, foldl_keep1, apply_ite v]; done
theorem keep_dirFetch {α : Type} {v : State → α} (hv : Ig 110133920 v) (s : State) (g : ℕ) (part : ℕ) (tag : ℕ) :
    v (State.dirFetch s g part tag).2 = v s := by
  unfold State.dirFetch; (repeat' split) <;> first | (simp [keep_dirTouch (hv.sub rfl), keep_bucketRead (hv.sub rfl), foldl_keep, foldl_keep2, foldl_keep22, foldl_keep1, apply_ite v]; done) | grind [keep_dirTouch (hv.sub rfl), keep_bucketRead (hv.sub rfl)]
theorem keep_updNet {α : Type} {v : State → α} (hv : Ig 8589934592 v) (s : State) (f : Routing → Routing) :
    v (State.updNet s f) = v s := by
  simp [State.updNet, hv.net rfl, foldl_keep, foldl_keep2, foldl_keep22, foldl_keep1, apply_ite v]; done
theorem keep_modMsg {α : Type} {v : State → α} (hv : Ig 8589934592 v) (s : State) (k : MsgKey) (f : OpenMsg → OpenMsg) :
    v (State.modMsg s k f) = v s := by
  simp [State.modMsg, keep_updNet (hv.sub rfl), foldl_keep, foldl_keep2, foldl_keep22, foldl_keep1, apply_ite v]; done
theorem keep_dropMsg {α : Type} {v : State → α} (hv : Ig 8589934592 v) (s : State) (k : MsgKey) :
    v (State.dropMsg s k) = v s := by
  simp [State.dropMsg, keep_updNet (hv.sub rfl), foldl_keep, foldl_keep2, foldl_keep22, foldl_keep1, apply_ite v]; done
theorem keep_msgDone {α : Type} {v : State → α} (hv : Ig 8589934592 v) (s : State) (h : Hdr) (st : Status) :
    v (State.msgDone s h st).2 = v s := by
  unfold State.msgDone; (repeat' split) <;> first | (simp [keep_dropMsg (hv.sub rfl), keep_modMsg (hv.sub rfl), foldl_keep, foldl_keep2, foldl_keep22, foldl_keep1, apply_ite v]; done) | grind [keep_dropMsg (hv.sub rfl), keep_modMsg (hv.sub rfl)]
theorem keep_updPort {α : Type} {v : State → α} (hv : Ig 4294967296 v) (s : State) (p : ℕ) (f : Port → Port) :
    v (State.updPort s p f) = v s := by
  simp [State.updPort, hv.ports rfl, foldl_keep, foldl_keep2, foldl_keep22, foldl_keep1, apply_ite v]; done
theorem keep_updLink {α : Type} {v : State → α} (hv : Ig 4294967296 v) (s : State) (p : ℕ) (f : Link → Link) :
    v (State.updLink s p f) = v s := by
  simp [State.updLink, keep_updPort (hv.sub rfl), foldl_keep, foldl_keep2, foldl_keep22, foldl_keep1, apply_ite v]; done
theorem keep_egress {α : Type} {v : State → α} (hv : Ig 4294967296 v) (s : State) (p : ℕ) (src : ℕ) (pkt : Packet) :
    v (State.egress s p src pkt) = v s := by
  simp [State.egress, keep_updLink (hv.sub rfl), foldl_keep, foldl_keep2, foldl_keep22, foldl_keep1, apply_ite v]; done
theorem keep_useFlow {α : Type} {v : State → α} (hv : Ig 8589934592 v) (s : State) (h : Hdr) :
    v (State.useFlow s h).2 = v s := by
  unfold State.useFlow; (repeat' split) <;> first | (simp [keep_updNet (hv.sub rfl), foldl_keep, foldl_keep2, foldl_keep22, foldl_keep1, apply_ite v]; done) | grind [keep_updNet (hv.sub rfl)]
theorem keep_unpin {α : Type} {v : State → α} (hv : Ig 8589934592 v) (s : State) (iod : Option ℕ) (k : FlowKey) :
    v (State.unpin s iod k) = v s := by
  simp [State.unpin, keep_updNet (hv.sub rfl), foldl_keep, foldl_keep2, foldl_keep22, foldl_keep1, apply_ite v]; done
theorem keep_draw {α : Type} {v : State → α} (hv : Ig 274877906944 v) (s : State) :
    v (State.draw s).2 = v s := by
  unfold State.draw; (repeat' split) <;> first | (simp [hv.free rfl, foldl_keep, foldl_keep2, foldl_keep22, foldl_keep1, apply_ite v]; done) | grind [hv.free rfl]
theorem keep_choose {α : Type} {v : State → α} (hv : Ig 274877906944 v) {β : Type} (s : State) (l : List β) (d : β) :
    v (State.choose s l d).2 = v s := by
  unfold State.choose; (repeat' split) <;> first | (simp [keep_draw (hv.sub rfl), foldl_keep, foldl_keep2, foldl_keep22, foldl_keep1, apply_ite v]; done) | grind [keep_draw (hv.sub rfl)]
theorem keep_pickVia {α : Type} {v : State → α} (hv : Ig 274877906944 v) (s : State) (src : ℕ) (h : Hdr) (bulk : Bool) :
    v (State.pickVia s src h bulk).2 = v s := by
  unfold State.pickVia; repeat' first | rfl | (simp [keep_choose (hv.sub rfl), foldl_keep, foldl_keep2, foldl_keep22, foldl_keep1, apply_ite v]; done) | rw [foldl_keep (v := v)] | rw [foldl_keep2 (v := v)] | rw [foldl_keep1 (v := v)] | rw [foldl_keep22 (v := v)] | refine getD_keep (v := v) ?_ ?_ | split | dsimp only | intro _ | grind [keep_choose (hv.sub rfl)]
theorem keep_pinnedPort {α : Type} {v : State → α} (hv : Ig 8589934592 v) (s : State) (src : ℕ) (iod : Option ℕ) (k : FlowKey) (node : ℕ) (via : Option ℕ) :
    v (State.pinnedPort s src iod k node via).2 = v s := by
  unfold State.pinnedPort; (repeat' split) <;> first | (simp [keep_updNet (hv.sub rfl), foldl_keep, foldl_keep2, foldl_keep22, foldl_keep1, apply_ite v]; done) | grind [keep_updNet (hv.sub rfl)]
theorem keep_sentOn {α : Type} {v : State → α} (hv : Ig 8589934592 v) (s : State) (p : ℕ) (h : Hdr) :
    v (State.sentOn s p h) = v s := by
  simp [State.sentOn, keep_updNet (hv.sub rfl), foldl_keep, foldl_keep2, foldl_keep22, foldl_keep1, apply_ite v]; done
theorem keep_originate {α : Type} {v : State → α} (hv : Ig 287762808832 v) (s : State) (src : ℕ) (pkt : Packet) :
    ∀ t', (State.originate s src pkt) = some t' → v t' = v s := by
  intro t ht
  unfold State.originate at ht
  extract_lets hs h0 at ht
  split at ht
  · cases ht
    exact keep_updNet (hv.sub rfl) _ _
  · split at ht
    rename_i rep s1 e1
    have k1 : v s1 = v s := by
      split at e1
      · have := keep_useFlow (v := v) (hv.sub rfl) s h0
        rw [e1] at this; exact this
      · cases e1; rfl
    clear e1
    extract_lets s2 h1 old kp at ht
    have k2 : v s2 = v s := by
      simp only [s2]
      split
      · rw [keep_unpin (hv.sub rfl), k1]
      · exact k1
    split at ht
    rename_i via s3 e3
    have k3 : v s3 = v s := by
      split at e3
      · cases e3; exact k2
      · have := keep_pickVia (v := v) (hv.sub rfl) s2 src h1 (s2.onBulk src h1)
        rw [e3] at this; exact this.trans k2
    clear e3
    extract_lets tgt h2 at ht
    split at ht
    rename_i port s4 e4
    have k4 : v s4 = v s := by
      split at e4
      · have := keep_pinnedPort (v := v) (hv.sub rfl) s3 src none h2.flow tgt via
        rw [e4] at this; exact this.trans k3
      · cases e4; exact k3
    clear e4
    split at ht
    · cases ht
      rw [keep_sentOn (hv.sub rfl), keep_egress (hv.sub rfl), k4]
    · cases ht
theorem keep_send {α : Type} {v : State → α} (hv : Ig 287762808832 v) (s : State) (src : ℕ) (pkt : Packet) :
    v (State.send s src pkt) = v s := by
  unfold State.send; repeat' first | rfl | (simp [keep_originate (hv.sub rfl), keep_updNet (hv.sub rfl), foldl_keep, foldl_keep2, foldl_keep22, foldl_keep1, apply_ite v]; done) | rw [foldl_keep (v := v)] | rw [foldl_keep2 (v := v)] | rw [foldl_keep1 (v := v)] | rw [foldl_keep22 (v := v)] | refine getD_keep (v := v) ?_ ?_ | split | dsimp only | intro _ | grind [keep_originate (hv.sub rfl), keep_updNet (hv.sub rfl)]
theorem keep_replyPart {α : Type} {v : State → α} (hv : Ig 287762808832 v) (s : State) (p : ℕ) (src : ℕ) (h : Hdr) (op : ℕ) (msg : Msg) (data : List Byte) (poison : Bool) (addr : ℕ) (claim : Option ℕ) (total : ℕ) (last : Bool) :
    v (State.replyPart s p src h op msg data poison addr claim total last) = v s := by
  simp [State.replyPart, keep_egress (hv.sub rfl), keep_send (hv.sub rfl), foldl_keep, foldl_keep2, foldl_keep22, foldl_keep1, apply_ite v]; done
theorem keep_reply {α : Type} {v : State → α} (hv : Ig 287762808832 v) (s : State) (p : ℕ) (src : ℕ) (h : Hdr) (op : ℕ) (msg : Msg) (data : List Byte) (poison : Bool) (addr : ℕ) (claim : Option ℕ) :
    v (State.reply s p src h op msg data poison addr claim) = v s := by
  simp [State.reply, keep_replyPart (hv.sub rfl), foldl_keep, foldl_keep2, foldl_keep22, foldl_keep1, apply_ite v]; done
theorem keep_cmp {α : Type} {v : State → α} (hv : Ig 287762808832 v) (s : State) (p : ℕ) (src : ℕ) (h : Hdr) (st : Status) (result : ℕ) (claim : Option ℕ) :
    v (State.cmp s p src h st result claim) = v s := by
  simp [State.cmp, keep_reply (hv.sub rfl), foldl_keep, foldl_keep2, foldl_keep22, foldl_keep1, apply_ite v]; done
theorem keep_answerJoin {α : Type} {v : State → α} (hv : Ig 287762808832 v) (s : State) (j : Join) :
    v (State.answerJoin s j) = v s := by
  unfold State.answerJoin; (repeat' split) <;> first | (simp [keep_modMsg (hv.sub rfl), keep_msgDone (hv.sub rfl), keep_cmp (hv.sub rfl), keep_replyPart (hv.sub rfl), keep_reply (hv.sub rfl), foldl_keep, foldl_keep2, foldl_keep22, foldl_keep1, apply_ite v]; done) | grind [keep_modMsg (hv.sub rfl), keep_msgDone (hv.sub rfl), keep_cmp (hv.sub rfl), keep_replyPart (hv.sub rfl), keep_reply (hv.sub rfl)]
theorem keep_closeJoin {α : Type} {v : State → α} (hv : Ig 287796363264 v) (s : State) (id : ℕ) :
    v (State.closeJoin s id) = v s := by
  unfold State.closeJoin; (repeat' split) <;> first | (simp [keep_answerJoin (hv.sub rfl), keep_updCoh (hv.sub rfl), foldl_keep, foldl_keep2, foldl_keep22, foldl_keep1, apply_ite v]; done) | grind [keep_answerJoin (hv.sub rfl), keep_updCoh (hv.sub rfl)]
theorem keep_pieceDone {α : Type} {v : State → α} (hv : Ig 287796363264 v) (s : State) (id : ℕ) (st : Status) (f : Join → Join) :
    v (State.pieceDone s id st f) = v s := by
  simp [State.pieceDone, keep_closeJoin (hv.sub rfl), keep_updCoh (hv.sub rfl), foldl_keep, foldl_keep2, foldl_keep22, foldl_keep1, apply_ite v]; done
theorem keep_refuse {α : Type} {v : State → α} (hv : Ig 287762808832 v) (s : State) (p : ℕ) (src : ℕ) (h : Hdr) (st : Status) (claim : Option ℕ) :
    v (State.refuse s p src h st claim) = v s := by
  simp [State.refuse, keep_reply (hv.sub rfl), keep_cmp (hv.sub rfl), foldl_keep, foldl_keep2, foldl_keep22, foldl_keep1, apply_ite v]; done
theorem keep_failReq {α : Type} {v : State → α} (hv : Ig 287796363264 v) (s : State) (r : HomeReq) (st : Status) :
    v (State.failReq s r st) = v s := by
  unfold State.failReq; (repeat' split) <;> first | (simp [keep_pieceDone (hv.sub rfl), keep_refuse (hv.sub rfl), foldl_keep, foldl_keep2, foldl_keep22, foldl_keep1, apply_ite v]; done) | grind [keep_pieceDone (hv.sub rfl), keep_refuse (hv.sub rfl)]
theorem keep_consult {α : Type} {v : State → α} (hv : Ig 287872942752 v) (s : State) (t : Txn) :
    v (State.consult s t).2 = v s := by
  unfold State.consult; (repeat' split) <;> first | (simp [keep_dirFetch (hv.sub rfl), keep_failReq (hv.sub rfl), keep_modTxn (hv.sub rfl), foldl_keep, foldl_keep2, foldl_keep22, foldl_keep1, apply_ite v]; done) | grind [keep_dirFetch (hv.sub rfl), keep_failReq (hv.sub rfl), keep_modTxn (hv.sub rfl)]
theorem keep_look {α : Type} {v : State → α} (hv : Ig 287872942752 v) (s : State) (t : Txn) :
    v (State.look s t).2 = v s := by
  unfold State.look; repeat' first | rfl | (simp [keep_modTxn (hv.sub rfl), keep_requestMem (hv.sub rfl), keep_readBelow (hv.sub rfl), keep_consult (hv.sub rfl), foldl_keep, foldl_keep2, foldl_keep22, foldl_keep1, apply_ite v]; done) | rw [foldl_keep (v := v)] | rw [foldl_keep2 (v := v)] | rw [foldl_keep1 (v := v)] | rw [foldl_keep22 (v := v)] | refine getD_keep (v := v) ?_ ?_ | split | dsimp only | intro _ | grind [keep_modTxn (hv.sub rfl), keep_requestMem (hv.sub rfl), keep_readBelow (hv.sub rfl), keep_consult (hv.sub rfl)]
theorem keep_newTag {α : Type} {v : State → α} (hv : Ig 8589934592 v) (s : State) (node : ℕ) :
    v (State.newTag s node).2 = v s := by
  simp [State.newTag, keep_updNet (hv.sub rfl), foldl_keep, foldl_keep2, foldl_keep22, foldl_keep1, apply_ite v]; done
theorem keep_snoop {α : Type} {v : State → α} (hv : Ig 287762808832 v) (s : State) (t : Txn) (a : ℕ) (op : ℕ) :
    ∀ t', (State.snoop s t a op) = some t' → v t' = v s := by
  intro t' ht
  unfold State.snoop at ht
  split at ht
  · cases ht
  · split at ht
    · cases ht
    · extract_lets r at ht
      split at ht
      rename_i tag s1 e1
      have k1 : v s1 = v s := by
        have := keep_newTag (v := v) (hv.sub rfl) s
        have h := congrArg Prod.snd e1
        exact (congrArg v h.symm).trans (this _)
      clear e1
      extract_lets h s2 at ht
      have k2 : v s2 = v s := (keep_updNet (hv.sub rfl) _ _).trans k1
      clear_value s2
      split at ht
      · exact (keep_originate (hv.sub rfl) _ _ _ _ ht).trans k2
      · exact (keep_originate (hv.sub rfl) _ _ _ _ ht).trans k2
theorem keep_sendStage {α : Type} {v : State → α} (hv : Ig 287796363264 v) (s : State) (t : Txn) (st : List (ℕ × AwaitKind × ℕ)) (rest : List (List (ℕ × AwaitKind × ℕ))) :
    v (State.sendStage s t st rest).2 = v s := by
  unfold State.sendStage
  split
  rename_i left s1 h1
  have k1 : v s1 = v s := by
    have h : s1 = _ := (congrArg Prod.snd h1).symm
    rw [h, foldl_keep2 (v := v)]
    intro x a
    dsimp only
    split
    · split
      · exact keep_modTxn (hv.sub rfl) _ _ _
      · rfl
    · split
      · rename_i hs
        exact (keep_modTxn (hv.sub rfl) _ _ _).trans (keep_snoop (hv.sub rfl) _ _ _ _ _ hs)
      · rfl
  clear h1
  dsimp only
  exact (keep_modTxn (hv.sub rfl) _ _ _).trans k1
theorem keep_setDir {α : Type} {v : State → α} (hv : Ig 33554432 v) (s : State) (e : DirEnt) :
    v (State.setDir s e) = v s := by
  simp [State.setDir, keep_dirTouch (hv.sub rfl), keep_updCoh (hv.sub rfl), foldl_keep, foldl_keep2, foldl_keep22, foldl_keep1, apply_ite v]; done
theorem keep_writeBelow {α : Type} {v : State → α} (hv : Ig 110133920 v) (s : State) (sec : ℕ) (data : List Byte) (poison : Bool) (a : Acc) :
    v (State.writeBelow s sec data poison a).2 = v s := by
  unfold State.writeBelow; repeat' first | rfl | (simp [keep_pushWrite (hv.sub rfl), keep_tierPut (hv.sub rfl), foldl_keep, foldl_keep2, foldl_keep22, foldl_keep1, apply_ite v]; done) | rw [foldl_keep (v := v)] | rw [foldl_keep2 (v := v)] | rw [foldl_keep1 (v := v)] | rw [foldl_keep22 (v := v)] | refine getD_keep (v := v) ?_ ?_ | split | dsimp only | intro _ | grind [keep_pushWrite (hv.sub rfl), keep_tierPut (hv.sub rfl)]
theorem keep_kettleFlush {α : Type} {v : State → α} (hv : Ig 110133920 v) (s : State) (e : KettleEnt) :
    v (State.kettleFlush s e) = v s := by
  simp [State.kettleFlush, keep_updPool (hv.sub rfl), keep_writeBelow (hv.sub rfl), keep_readBelow (hv.sub rfl), foldl_keep, foldl_keep2, foldl_keep22, foldl_keep1, apply_ite v]; done
theorem keep_kettleWrite {α : Type} {v : State → α} (hv : Ig 110133920 v) (s : State) (sec : ℕ) (bs : List (ℕ × Byte)) (poison : Bool) (a : Acc) :
    v (State.kettleWrite s sec bs poison a).2 = v s := by
  unfold State.kettleWrite; (repeat' split) <;> first | (simp [keep_kettleFlush (hv.sub rfl), keep_updPool (hv.sub rfl), foldl_keep, foldl_keep2, foldl_keep22, foldl_keep1, apply_ite v]; done) | grind [keep_kettleFlush (hv.sub rfl), keep_updPool (hv.sub rfl)]
theorem keep_writeSector {α : Type} {v : State → α} (hv : Ig 110133920 v) (s : State) (sec : ℕ) (off : ℕ) (bs : List Byte) (poison : Bool) (a : Acc) :
    v (State.writeSector s sec off bs poison a).2 = v s := by
  unfold State.writeSector; (repeat' split) <;> first | (simp [keep_writeBelow (hv.sub rfl), keep_kettleWrite (hv.sub rfl), foldl_keep, foldl_keep2, foldl_keep22, foldl_keep1, apply_ite v]; done) | grind [keep_writeBelow (hv.sub rfl), keep_kettleWrite (hv.sub rfl)]
theorem keep_atomDrop {α : Type} {v : State → α} (hv : Ig 110133920 v) (s : State) (g : ℕ) :
    v (State.atomDrop s g) = v s := by
  unfold State.atomDrop; (repeat' split) <;> first | (simp [keep_writeSector (hv.sub rfl), hv.coh rfl, foldl_keep, foldl_keep2, foldl_keep22, foldl_keep1, apply_ite v]; done) | grind [keep_writeSector (hv.sub rfl), hv.coh rfl]
theorem keep_setRemote {α : Type} {v : State → α} (hv : Ig 67108864 v) (s : State) (gran : ℕ) (b : Bool) :
    v (State.setRemote s gran b) = v s := by
  simp [State.setRemote, keep_setMeta (hv.sub rfl), foldl_keep, foldl_keep2, foldl_keep22, foldl_keep1, apply_ite v]; done
theorem keep_newDir {α : Type} {v : State → α} (hv : Ig 110133920 v) (s : State) (r : HomeReq) (st : DirState) (owner : Option ℕ) :
    v (State.newDir s r st owner) = v s := by
  unfold State.newDir; (repeat' split) <;> first | (simp [keep_setDir (hv.sub rfl), keep_atomDrop (hv.sub rfl), keep_setRemote (hv.sub rfl), keep_dirTouch (hv.sub rfl), keep_updCoh (hv.sub rfl), foldl_keep, foldl_keep2, foldl_keep22, foldl_keep1, apply_ite v]; done) | grind [keep_setDir (hv.sub rfl), keep_atomDrop (hv.sub rfl), keep_setRemote (hv.sub rfl), keep_dirTouch (hv.sub rfl), keep_updCoh (hv.sub rfl)]
theorem keep_room {α : Type} {v : State → α} (hv : Ig 0 v) (s : State) (t : Txn) :
    v (State.room s t).2 = v s := by
  unfold State.room; (repeat' split) <;> first | (simp [foldl_keep, foldl_keep2, foldl_keep22, foldl_keep1, apply_ite v]; done) | grind []
theorem keep_freeDir {α : Type} {v : State → α} (hv : Ig 100663296 v) (s : State) (g : ℕ) :
    v (State.freeDir s g) = v s := by
  simp [State.freeDir, keep_setRemote (hv.sub rfl), keep_updCoh (hv.sub rfl), foldl_keep, foldl_keep2, foldl_keep22, foldl_keep1, apply_ite v]; done
theorem keep_writeBytes {α : Type} {v : State → α} (hv : Ig 110133920 v) (s : State) (ppa : ℕ) (bs : List (Byte × Bool)) (a : Acc) :
    v (State.writeBytes s ppa bs a).2 = v s := by
  simp [State.writeBytes, keep_writeSector (hv.sub rfl), keep_atomDrop (hv.sub rfl), foldl_keep, foldl_keep2, foldl_keep22, foldl_keep1, apply_ite v]; done
theorem keep_writeLost {α : Type} {v : State → α} (hv : Ig 110133920 v) (s : State) (g : ℕ) (a : ℕ) :
    v (State.writeLost s g a) = v s := by
  unfold State.writeLost; (repeat' split) <;> first | (simp [keep_writeBytes (hv.sub rfl), keep_log (hv.sub rfl), keep_updCoh (hv.sub rfl), foldl_keep, foldl_keep2, foldl_keep22, foldl_keep1, apply_ite v]; done) | grind [keep_writeBytes (hv.sub rfl), keep_log (hv.sub rfl), keep_updCoh (hv.sub rfl)]
theorem keep_readSector {α : Type} {v : State → α} (hv : Ig 110133920 v) (s : State) (sec : ℕ) (a : Acc) :
    v (State.readSector s sec a).2 = v s := by
  unfold State.readSector; (repeat' split) <;> first | (simp [keep_readBelow (hv.sub rfl), foldl_keep, foldl_keep2, foldl_keep22, foldl_keep1, apply_ite v]; done) | grind [keep_readBelow (hv.sub rfl)]
theorem keep_readBytes {α : Type} {v : State → α} (hv : Ig 110133920 v) (s : State) (ppa : ℕ) (n : ℕ) (a : Acc) :
    v (State.readBytes s ppa n a).2.2 = v s := by
  simp [State.readBytes, keep_readSector (hv.sub rfl), keep_atomDrop (hv.sub rfl), foldl_keep, foldl_keep2, foldl_keep22, foldl_keep1, apply_ite v]; done
theorem keep_readPiece {α : Type} {v : State → α} (hv : Ig 287872942752 v) (s : State) (r : HomeReq) :
    v (State.readPiece s r) = v s := by
  simp [State.readPiece, keep_readBytes (hv.sub rfl), keep_pieceDone (hv.sub rfl), foldl_keep, foldl_keep2, foldl_keep22, foldl_keep1, apply_ite v]; done
theorem keep_completeLost {α : Type} {v : State → α} (hv : Ig 287872942752 v) (s : State) (t : Txn) :
    v (State.completeLost s t) = v s := by
  unfold State.completeLost; (repeat' split) <;> first | (simp [keep_freeDir (hv.sub rfl), keep_writeLost (hv.sub rfl), keep_updCoh (hv.sub rfl), keep_readPiece (hv.sub rfl), keep_cmp (hv.sub rfl), keep_pieceDone (hv.sub rfl), foldl_keep, foldl_keep2, foldl_keep22, foldl_keep1, apply_ite v]; done) | grind [keep_freeDir (hv.sub rfl), keep_writeLost (hv.sub rfl), keep_updCoh (hv.sub rfl), keep_readPiece (hv.sub rfl), keep_cmp (hv.sub rfl), keep_pieceDone (hv.sub rfl)]
theorem keep_sendData {α : Type} {v : State → α} (hv : Ig 287762808832 v) (s : State) (r : HomeReq) (st : Status) (state : ℕ) (bs : List (Byte × Bool)) :
    v (State.sendData s r st state bs) = v s := by
  simp [State.sendData, keep_replyPart (hv.sub rfl), foldl_keep, foldl_keep2, foldl_keep22, foldl_keep1, apply_ite v]; done
theorem keep_dataUc {α : Type} {v : State → α} (hv : Ig 287872942752 v) (s : State) (r : HomeReq) :
    v (State.dataUc s r) = v s := by
  simp [State.dataUc, keep_readBytes (hv.sub rfl), keep_sendData (hv.sub rfl), foldl_keep, foldl_keep2, foldl_keep22, foldl_keep1, apply_ite v]; done
theorem keep_grant {α : Type} {v : State → α} (hv : Ig 287872942752 v) (s : State) (r : HomeReq) (e : Option DirEnt) (st : DirState) (state : ℕ) :
    v (State.grant s r e st state) = v s := by
  unfold State.grant; (repeat' split) <;> first | (simp [keep_readBytes (hv.sub rfl), keep_sendData (hv.sub rfl), keep_setDir (hv.sub rfl), keep_newDir (hv.sub rfl), foldl_keep, foldl_keep2, foldl_keep22, foldl_keep1, apply_ite v]; done) | grind [keep_readBytes (hv.sub rfl), keep_sendData (hv.sub rfl), keep_setDir (hv.sub rfl), keep_newDir (hv.sub rfl)]
theorem keep_endShared {α : Type} {v : State → α} (hv : Ig 287872942752 v) (s : State) (t : Txn) (e : Option DirEnt) :
    v (State.endShared s t e) = v s := by
  unfold State.endShared; (repeat' split) <;> first | (simp [keep_grant (hv.sub rfl), keep_setDir (hv.sub rfl), foldl_keep, foldl_keep2, foldl_keep22, foldl_keep1, apply_ite v]; done) | grind [keep_grant (hv.sub rfl), keep_setDir (hv.sub rfl)]
theorem keep_sendGrant {α : Type} {v : State → α} (hv : Ig 287762808832 v) (s : State) (r : HomeReq) (state : ℕ) :
    v (State.sendGrant s r state) = v s := by
  simp [State.sendGrant, keep_reply (hv.sub rfl), foldl_keep, foldl_keep2, foldl_keep22, foldl_keep1, apply_ite v]; done
theorem keep_recalledRd {α : Type} {v : State → α} (hv : Ig 100663296 v) (s : State) (e : Option DirEnt) :
    v (State.recalledRd s e) = v s := by
  unfold State.recalledRd; (repeat' split) <;> first | (simp [keep_freeDir (hv.sub rfl), keep_setDir (hv.sub rfl), foldl_keep, foldl_keep2, foldl_keep22, foldl_keep1, apply_ite v]; done) | grind [keep_freeDir (hv.sub rfl), keep_setDir (hv.sub rfl)]
theorem keep_joinForward {α : Type} {v : State → α} (hv : Ig 33554432 v) (s : State) (id : ℕ) :
    v (State.joinForward s id) = v s := by
  simp [State.joinForward, keep_updCoh (hv.sub rfl), foldl_keep, foldl_keep2, foldl_keep22, foldl_keep1, apply_ite v]; done
theorem keep_pairSend {α : Type} {v : State → α} (hv : Ig 4294967296 v) (s : State) (handle : ℕ) (op : ℕ) (tag : ℕ) (msg : Msg) (data : List Byte) (poison : Bool) :
    v (State.pairSend s handle op tag msg data poison) = v s := by
  unfold State.pairSend; (repeat' split) <;> first | (simp [keep_egress (hv.sub rfl), foldl_keep, foldl_keep2, foldl_keep22, foldl_keep1, apply_ite v]; done) | grind [keep_egress (hv.sub rfl)]
theorem keep_forward {α : Type} {v : State → α} (hv : Ig 30064771072 v) (s : State) (rid : ℕ) (off : ℕ) (bs : List (Byte × Bool)) (join : ℕ) (pub : ℕ) (desc : Option (ℕ × BitVec 32)) :
    v (State.forward s rid off bs join pub desc) = v s := by
  simp [State.forward, keep_newTag (hv.sub rfl), keep_pairSend (hv.sub rfl), hv.mirror rfl, foldl_keep, foldl_keep2, foldl_keep22, foldl_keep1, apply_ite v]; done
theorem keep_poisonMade {α : Type} {v : State → α} (hv : Ig 67108864 v) (s : State) (r : HomeReq) :
    v (State.poisonMade s r) = v s := by
  unfold State.poisonMade; split <;> simp [keep_log (hv.sub rfl), foldl_keep, foldl_keep2, foldl_keep22, foldl_keep1, apply_ite v]
theorem keep_writeRuns {α : Type} {v : State → α} (hv : Ig 30174904992 v) (s : State) (r : HomeReq) :
    v (State.writeRuns s r).2 = v s := by
  unfold State.writeRuns; repeat' first | rfl | (simp [keep_writeBytes (hv.sub rfl), keep_joinForward (hv.sub rfl), keep_forward (hv.sub rfl), foldl_keep, foldl_keep2, foldl_keep22, foldl_keep1, apply_ite v]; done) | rw [foldl_keep (v := v)] | rw [foldl_keep2 (v := v)] | rw [foldl_keep1 (v := v)] | rw [foldl_keep22 (v := v)] | refine getD_keep (v := v) ?_ ?_ | split | dsimp only | intro _ | grind [keep_writeBytes (hv.sub rfl), keep_joinForward (hv.sub rfl), keep_forward (hv.sub rfl)]
theorem keep_writeAt {α : Type} {v : State → α} (hv : Ig 30174904992 v) (s : State) (r : HomeReq) :
    v (State.writeAt s r).2 = v s := by
  simp [State.writeAt, keep_writeRuns (hv.sub rfl), keep_poisonMade (hv.sub rfl), apply_ite v]
theorem keep_kettleForce {α : Type} {v : State → α} (hv : Ig 110133920 v) (s : State) (sec : ℕ) :
    v (State.kettleForce s sec) = v s := by
  unfold State.kettleForce; (repeat' split) <;> first | (simp [keep_kettleFlush (hv.sub rfl), foldl_keep, foldl_keep2, foldl_keep22, foldl_keep1, apply_ite v]; done) | grind [keep_kettleFlush (hv.sub rfl)]
theorem keep_atomFill {α : Type} {v : State → α} (hv : Ig 110133920 v) (s : State) (r : HomeReq) :
    v (State.atomFill s r).2.2 = v s := by
  unfold State.atomFill; repeat' first | rfl | (simp [keep_kettleForce (hv.sub rfl), keep_readBytes (hv.sub rfl), foldl_keep, foldl_keep2, foldl_keep22, foldl_keep1, apply_ite v]; done) | rw [foldl_keep (v := v)] | rw [foldl_keep2 (v := v)] | rw [foldl_keep1 (v := v)] | rw [foldl_keep22 (v := v)] | refine getD_keep (v := v) ?_ ?_ | split | dsimp only | intro _ | grind [keep_kettleForce (hv.sub rfl), keep_readBytes (hv.sub rfl)]
theorem keep_atomPut {α : Type} {v : State → α} (hv : Ig 110133920 v) (s : State) (l : AtomLine) :
    v (State.atomPut s l) = v s := by
  unfold State.atomPut; (repeat' split) <;> first | (simp [keep_atomDrop (hv.sub rfl), keep_updCoh (hv.sub rfl), foldl_keep, foldl_keep2, foldl_keep22, foldl_keep1, apply_ite v]; done) | grind [keep_atomDrop (hv.sub rfl), keep_updCoh (hv.sub rfl)]
theorem keep_atomicAt {α : Type} {v : State → α} (hv : Ig 30174904992 v) (s : State) (r : HomeReq) (op : ℕ) (w : Width) (args : List ℕ) :
    v (State.atomicAt s r op w args).2.2 = v s := by
  unfold State.atomicAt; repeat' first | rfl | (simp [keep_atomFill (hv.sub rfl), keep_atomPut (hv.sub rfl), keep_joinForward (hv.sub rfl), keep_forward (hv.sub rfl), foldl_keep, foldl_keep2, foldl_keep22, foldl_keep1, apply_ite v]; done) | rw [foldl_keep (v := v)] | rw [foldl_keep2 (v := v)] | rw [foldl_keep1 (v := v)] | rw [foldl_keep22 (v := v)] | refine getD_keep (v := v) ?_ ?_ | split | dsimp only | intro _ | grind [keep_atomFill (hv.sub rfl), keep_atomPut (hv.sub rfl), keep_joinForward (hv.sub rfl), keep_forward (hv.sub rfl)]
theorem keep_keepDir {α : Type} {v : State → α} (hv : Ig 100663296 v) (s : State) (e : DirEnt) :
    v (State.keepDir s e) = v s := by
  simp [State.keepDir, keep_freeDir (hv.sub rfl), keep_setDir (hv.sub rfl), foldl_keep, foldl_keep2, foldl_keep22, foldl_keep1, apply_ite v]; done
theorem keep_complete {α : Type} {v : State → α} (hv : Ig 305052811936 v) (s : State) (t : Txn) (e : Option DirEnt) :
    v (State.complete s t e).2 = v s := by
  unfold State.complete; (repeat' split) <;> first | (simp [keep_dataUc (hv.sub rfl), keep_endShared (hv.sub rfl), keep_newDir (hv.sub rfl), keep_grant (hv.sub rfl), keep_sendGrant (hv.sub rfl), keep_readPiece (hv.sub rfl), keep_recalledRd (hv.sub rfl), keep_writeAt (hv.sub rfl), keep_pieceDone (hv.sub rfl), keep_freeDir (hv.sub rfl), keep_modTxn (hv.sub rfl), keep_atomicAt (hv.sub rfl), keep_updCoh (hv.sub rfl), keep_writeBytes (hv.sub rfl), keep_setDir (hv.sub rfl), keep_reply (hv.sub rfl), keep_keepDir (hv.sub rfl), foldl_keep, foldl_keep2, foldl_keep22, foldl_keep1, apply_ite v]; done) | grind [keep_dataUc (hv.sub rfl), keep_endShared (hv.sub rfl), keep_newDir (hv.sub rfl), keep_grant (hv.sub rfl), keep_sendGrant (hv.sub rfl), keep_readPiece (hv.sub rfl), keep_recalledRd (hv.sub rfl), keep_writeAt (hv.sub rfl), keep_pieceDone (hv.sub rfl), keep_freeDir (hv.sub rfl), keep_modTxn (hv.sub rfl), keep_atomicAt (hv.sub rfl), keep_updCoh (hv.sub rfl), keep_writeBytes (hv.sub rfl), keep_setDir (hv.sub rfl), keep_reply (hv.sub rfl), keep_keepDir (hv.sub rfl)]
theorem keep_stepTxn {α : Type} {v : State → α} (hv : Ig 305052811936 v) (s : State) (t : Txn) :
    v (State.stepTxn s t).2 = v s := by
  unfold State.stepTxn; (repeat' split) <;> first | (simp [keep_look (hv.sub rfl), keep_modTxn (hv.sub rfl), keep_sendStage (hv.sub rfl), keep_newDir (hv.sub rfl), keep_room (hv.sub rfl), keep_completeLost (hv.sub rfl), keep_requestMem (hv.sub rfl), keep_complete (hv.sub rfl), foldl_keep, foldl_keep2, foldl_keep22, foldl_keep1, apply_ite v]; done) | grind [keep_look (hv.sub rfl), keep_modTxn (hv.sub rfl), keep_sendStage (hv.sub rfl), keep_newDir (hv.sub rfl), keep_room (hv.sub rfl), keep_completeLost (hv.sub rfl), keep_requestMem (hv.sub rfl), keep_complete (hv.sub rfl)]
theorem keep_dropTxn {α : Type} {v : State → α} (hv : Ig 33554432 v) (s : State) (id : ℕ) :
    v (State.dropTxn s id) = v s := by
  simp [State.dropTxn, keep_updCoh (hv.sub rfl), foldl_keep, foldl_keep2, foldl_keep22, foldl_keep1, apply_ite v]; done
theorem keep_openTxn {α : Type} {v : State → α} (hv : Ig 110133920 v) (s : State) (r : HomeReq) :
    v (State.openTxn s r) = v s := by
  unfold State.openTxn; (repeat' split) <;> first | (simp [keep_atomDrop (hv.sub rfl), keep_updCoh (hv.sub rfl), foldl_keep, foldl_keep2, foldl_keep22, foldl_keep1, apply_ite v]; done) | grind [keep_atomDrop (hv.sub rfl), keep_updCoh (hv.sub rfl)]
theorem keep_advanceN {α : Type} {v : State → α} (hv : Ig 305052811936 v) (x1 : ℕ) (x2 : State) (x3 : ℕ) :
    v (State.advanceN x1 x2 x3) = v x2 := by
  fun_induction State.advanceN x1 x2 x3 <;> repeat' first | rfl | assumption | (simp [keep_stepTxn (hv.sub rfl), keep_dropTxn (hv.sub rfl), keep_openTxn (hv.sub rfl), foldl_keep, foldl_keep2, foldl_keep22, foldl_keep1, apply_ite v]; done) | (simp_all [keep_stepTxn (hv.sub rfl), keep_dropTxn (hv.sub rfl), keep_openTxn (hv.sub rfl), foldl_keep, foldl_keep2, foldl_keep22, foldl_keep1, apply_ite v]; done) | rw [foldl_keep (v := v)] | rw [foldl_keep2 (v := v)] | rw [foldl_keep1 (v := v)] | rw [foldl_keep22 (v := v)] | refine getD_keep (v := v) ?_ ?_ | split | dsimp only | intro _ | grind [keep_stepTxn (hv.sub rfl), keep_dropTxn (hv.sub rfl), keep_openTxn (hv.sub rfl)]
theorem keep_advance {α : Type} {v : State → α} (hv : Ig 305052811936 v) (s : State) (id : ℕ) :
    v (State.advance s id) = v s := by
  unfold State.advance; (repeat' split) <;> first | (simp [keep_advanceN (hv.sub rfl), foldl_keep, foldl_keep2, foldl_keep22, foldl_keep1, apply_ite v]; done) | grind [keep_advanceN (hv.sub rfl)]
theorem keep_begin {α : Type} {v : State → α} (hv : Ig 305052811936 v) (s : State) (r : HomeReq) :
    v (State.begin s r) = v s := by
  unfold State.begin; repeat' first | rfl | (simp [keep_advance (hv.sub rfl), keep_openTxn (hv.sub rfl), foldl_keep, foldl_keep2, foldl_keep22, foldl_keep1, apply_ite v]; done) | rw [foldl_keep (v := v)] | rw [foldl_keep2 (v := v)] | rw [foldl_keep1 (v := v)] | rw [foldl_keep22 (v := v)] | refine getD_keep (v := v) ?_ ?_ | split | dsimp only | intro _ | grind [keep_advance (hv.sub rfl), keep_openTxn (hv.sub rfl)]
theorem keep_handle {α : Type} {v : State → α} (hv : Ig 305052811936 v) (s : State) (r : HomeReq) :
    v (State.handle s r) = v s := by
  unfold State.handle; (repeat' split) <;> first | (simp [keep_updCoh (hv.sub rfl), keep_begin (hv.sub rfl), foldl_keep, foldl_keep2, foldl_keep22, foldl_keep1, apply_ite v]; done) | grind [keep_updCoh (hv.sub rfl), keep_begin (hv.sub rfl)]
theorem keep_pump {α : Type} {v : State → α} (hv : Ig 305052811936 v) (s : State) :
    v (State.pump s) = v s := by
  simp [State.pump, keep_advance (hv.sub rfl), keep_handle (hv.sub rfl), keep_updCoh (hv.sub rfl), keep_closeJoin (hv.sub rfl), foldl_keep, foldl_keep2, foldl_keep22, foldl_keep1, apply_ite v]; done
theorem keep_pumpN {α : Type} {v : State → α} (hv : Ig 305052811936 v) (x1 : ℕ) (x2 : State) :
    v (State.pumpN x1 x2) = v x2 := by
  induction x1 generalizing x2 with
  | zero => simp [State.pumpN]
  | succ k ih =>
    unfold State.pumpN
    repeat' first | rfl | (simp [ih, keep_pump (hv.sub rfl), foldl_keep, foldl_keep2, foldl_keep22, foldl_keep1, apply_ite v]; done) | rw [foldl_keep (v := v)] | rw [foldl_keep2 (v := v)] | rw [foldl_keep1 (v := v)] | rw [foldl_keep22 (v := v)] | refine getD_keep (v := v) ?_ ?_ | split | dsimp only | intro _ | grind [ih, keep_pump (hv.sub rfl)]
theorem keep_recallGran {α : Type} {v : State → α} (hv : Ig 305052811936 v) (s : State) (g : ℕ) (region : ℕ) (roff : ℕ) (wr : Bool) :
    v (State.recallGran s g region roff wr) = v s := by
  simp [State.recallGran, keep_begin (hv.sub rfl), foldl_keep, foldl_keep2, foldl_keep22, foldl_keep1, apply_ite v]; done
theorem keep_recallAll {α : Type} {v : State → α} (hv : Ig 305052811936 v) (s : State) (gs : List (ℕ × ℕ × ℕ)) (wr : Bool) :
    v (State.recallAll s gs wr).2 = v s := by
  simp [State.recallAll, keep_recallGran (hv.sub rfl), foldl_keep, foldl_keep2, foldl_keep22, foldl_keep1, apply_ite v]; done
theorem keep_ownWrite {α : Type} {v : State → α} (hv : Ig 305052811936 v) (s : State) (rid : ℕ) (off : ℕ) (bs : List (Byte × Bool)) (a : Acc) :
    v (State.ownWrite s rid off bs a).2 = v s := by
  unfold State.ownWrite; repeat' first | rfl | (simp [keep_recallAll (hv.sub rfl), keep_writeBytes (hv.sub rfl), keep_forward (hv.sub rfl), foldl_keep, foldl_keep2, foldl_keep22, foldl_keep1, apply_ite v]; done) | rw [foldl_keep (v := v)] | rw [foldl_keep2 (v := v)] | rw [foldl_keep1 (v := v)] | rw [foldl_keep22 (v := v)] | refine getD_keep (v := v) ?_ ?_ | split | dsimp only | intro _ | grind [keep_recallAll (hv.sub rfl), keep_writeBytes (hv.sub rfl), keep_forward (hv.sub rfl)]
theorem keep_updSession {α : Type} {v : State → α} (hv : Ig 34359738368 v) (s : State) (fn : ℕ) (id : ℕ) (f : Session → Session) :
    v (State.updSession s fn id f) = v s := by
  simp [State.updSession, hv.fw rfl, foldl_keep, foldl_keep2, foldl_keep22, foldl_keep1, apply_ite v]; done
theorem keep_sealOut {α : Type} {v : State → α} (hv : Ig 34359738368 v) (s : State) (p : ℕ) (kind : ℕ) (bs : List Byte) :
    v (State.sealOut s p kind bs) = v s := by
  unfold State.sealOut; (repeat' split) <;> first | (simp [keep_updSession (hv.sub rfl), hv.fw rfl, foldl_keep, foldl_keep2, foldl_keep22, foldl_keep1, apply_ite v]; done) | grind [keep_updSession (hv.sub rfl), hv.fw rfl]
theorem keep_notify {α : Type} {v : State → α} (hv : Ig 287771197456 v) (s : State) (q : ℕ) :
    v (State.notify s q) = v s := by
  unfold State.notify
  split
  · rfl
  · dsimp only
    split
    · exact (hv.pins rfl _ _).trans (keep_modEq (hv.sub rfl) _ _ _)
    · split
      · rename_i h1
        exact (keep_originate (hv.sub rfl) _ _ _ _ h1).trans (keep_modEq (hv.sub rfl) _ _ _)
      · exact (keep_modEq (hv.sub rfl) _ _ _).trans (keep_modEq (hv.sub rfl) _ _ _)
theorem keep_notifyIf {α : Type} {v : State → α} (hv : Ig 287771197456 v) (s : State) (q : ℕ) (aged : Bool) :
    v (State.notifyIf s q aged) = v s := by
  unfold State.notifyIf; (repeat' split) <;> first | (simp [keep_notify (hv.sub rfl), foldl_keep, foldl_keep2, foldl_keep22, foldl_keep1, apply_ite v]; done) | grind [keep_notify (hv.sub rfl)]
theorem keep_flushEq {α : Type} {v : State → α} (hv : Ig 339412550320 v) (q : ℕ) (x1 : ℕ) (x2 : State) :
    v (State.flushEq q x1 x2) = v x2 := by
  induction x1 generalizing x2 with
  | zero => simp [State.flushEq]
  | succ k ih =>
    unfold State.flushEq
    repeat' first | rfl | (simp [ih, keep_ownWrite (hv.sub rfl), keep_modEq (hv.sub rfl), keep_sealOut (hv.sub rfl), keep_notifyIf (hv.sub rfl), foldl_keep, foldl_keep2, foldl_keep22, foldl_keep1, apply_ite v]; done) | rw [foldl_keep (v := v)] | rw [foldl_keep2 (v := v)] | rw [foldl_keep1 (v := v)] | rw [foldl_keep22 (v := v)] | refine getD_keep (v := v) ?_ ?_ | split | dsimp only | intro _ | grind [ih, keep_ownWrite (hv.sub rfl), keep_modEq (hv.sub rfl), keep_sealOut (hv.sub rfl), keep_notifyIf (hv.sub rfl)]
theorem keep_flush {α : Type} {v : State → α} (hv : Ig 339412550320 v) (s : State) :
    v (State.flush s) = v s := by
  simp [State.flush, keep_flushEq (hv.sub rfl), foldl_keep, foldl_keep2, foldl_keep22, foldl_keep1, apply_ite v]; done
theorem keep_dropCopy {α : Type} {v : State → α} (hv : Ig 8589934592 v) (s : State) :
    v (State.dropCopy s) = v s := by
  simp [State.dropCopy, keep_updNet (hv.sub rfl), foldl_keep, foldl_keep2, foldl_keep22, foldl_keep1, apply_ite v]; done
theorem keep_copyTo {α : Type} {v : State → α} (hv : Ig 12893291008 v) (s : State) (src : ℕ) (pkt : Packet) (p : ℕ) :
    v (State.copyTo s src pkt p) = v s := by
  simp [State.copyTo, keep_egress (hv.sub rfl), keep_dropCopy (hv.sub rfl), keep_postFm (hv.sub rfl), keep_updNet (hv.sub rfl), foldl_keep, foldl_keep2, foldl_keep22, foldl_keep1, apply_ite v]; done
theorem keep_cacheLeaf {α : Type} {v : State → α} (hv : Ig 16384 v) (s : State) (hub : ℕ) (tag : ℕ) (level : ℕ) (cva : ℕ) :
    v (State.cacheLeaf s hub tag level cva) = v s := by
  simp [State.cacheLeaf, hv.tcache rfl, foldl_keep, foldl_keep2, foldl_keep22, foldl_keep1, apply_ite v]; done
theorem keep_walkThrough {α : Type} {v : State → α} (hv : Ig 110150304 v) (s : State) (c : Context) (tag : ℕ) (cva : ℕ) :
    v (State.walkThrough s c tag cva).2 = v s := by
  unfold State.walkThrough; repeat' first | rfl | (simp [keep_cacheLeaf (hv.sub rfl), keep_readBelow (hv.sub rfl), foldl_keep, foldl_keep2, foldl_keep22, foldl_keep1, apply_ite v]; done) | rw [foldl_keep (v := v)] | rw [foldl_keep2 (v := v)] | rw [foldl_keep1 (v := v)] | rw [foldl_keep22 (v := v)] | refine getD_keep (v := v) ?_ ?_ | split | dsimp only | intro _ | grind [keep_cacheLeaf (hv.sub rfl), keep_readBelow (hv.sub rfl)]
theorem keep_walkPages {α : Type} {v : State → α} (hv : Ig 110150304 v) (s : State) (c : Context) (tag : ℕ) (pages : List ℕ) :
    v (State.walkPages s c tag pages).2 = v s := by
  unfold State.walkPages; repeat' first | rfl | (simp [keep_walkThrough (hv.sub rfl), foldl_keep, foldl_keep2, foldl_keep22, foldl_keep1, apply_ite v]; done) | rw [foldl_keep (v := v)] | rw [foldl_keep2 (v := v)] | rw [foldl_keep1 (v := v)] | rw [foldl_keep22 (v := v)] | refine getD_keep (v := v) ?_ ?_ | split | dsimp only | intro _ | grind [keep_walkThrough (hv.sub rfl)]

end Sys2Proof.Laws
end

