-- ==== Sys2Proof/Laws/KeepB.lean ====
section
/-! SUPPORT. What each operation of the block leaves alone, part 2 of 4: a view that ignores the fields an operation may change
is the same after it. -/

namespace Sys2Proof.Laws
open Sys2Proof.Machine

set_option linter.all false
set_option Elab.async false

theorem keep_faultSeq {α : Type} {v : State → α} (hv : Ig 16777216 v) (s : State) (hub : ℕ) :
    v (State.faultSeq s hub).2 = v s := by
  simp [State.faultSeq, hv.faults rfl, foldl_keep, foldl_keep2, foldl_keep22, foldl_keep1, apply_ite v]; done
theorem keep_reportFault {α : Type} {v : State → α} (hv : Ig 25165824 v) (s : State) (tag : ℕ) (page : ℕ) (cause : ℕ) (level : ℕ) (access : ℕ) (srcPort : Bool) (handle : Bool) (source : ℕ) :
    v (State.reportFault s tag page cause level access srcPort handle source) = v s := by
  unfold State.reportFault; (repeat' split) <;> first | (simp [keep_faultSeq (hv.sub rfl), keep_postEq (hv.sub rfl), hv.faults rfl, foldl_keep, foldl_keep2, foldl_keep22, foldl_keep1, apply_ite v]; done) | grind [keep_faultSeq (hv.sub rfl), keep_postEq (hv.sub rfl), hv.faults rfl]
theorem keep_submit {α : Type} {v : State → α} (hv : Ig 305052811936 v) (s : State) (r : HomeReq) :
    v (State.submit s r) = v s := by
  simp [State.submit, keep_updCoh (hv.sub rfl), keep_handle (hv.sub rfl), foldl_keep, foldl_keep2, foldl_keep22, foldl_keep1, apply_ite v]; done
theorem keep_openJoin {α : Type} {v : State → α} (hv : Ig 33554432 v) (s : State) (j : Join) :
    v (State.openJoin s j).2 = v s := by
  simp [State.openJoin, keep_updCoh (hv.sub rfl), foldl_keep, foldl_keep2, foldl_keep22, foldl_keep1, apply_ite v]; done
theorem keep_deliverLocal {α : Type} {v : State → α} (hv : Ig 305069605536 v) (s : State) (port : ℕ) (tag : ℕ) (h : Hdr) (data : List Byte) :
    v (State.deliverLocal s port tag h data) = v s := by
  unfold State.deliverLocal
  split
  · exact keep_dropCopy (hv.sub rfl) _
  · split
    · exact keep_dropCopy (hv.sub rfl) _
    · split
      · rfl
      · split
        rename_i st s1 h1
        have k1 : v s1 = v s := by
          have := keep_walkPages (v := v) (hv.sub rfl) s
          have h := congrArg Prod.snd h1
          exact (congrArg v h.symm).trans (this _ _ _)
        clear h1
        extract_lets ps
        split
        · exact (keep_dropCopy (hv.sub rfl) _).trans k1
        · split
          · exact (keep_reportFault (hv.sub rfl) _ _ _ _ _ _ _ _ _).trans k1
          · rw [keep_closeJoin (hv.sub rfl), foldl_keep (v := v)]
            · exact (keep_openJoin (hv.sub rfl) _ _).trans k1
            · intro s r
              exact keep_submit (hv.sub rfl) _ _
theorem keep_multicast {α : Type} {v : State → α} (hv : Ig 305069605536 v) (s : State) (p : ℕ) (src : ℕ) (pkt : Packet) :
    v (State.multicast s p src pkt) = v s := by
  simp [State.multicast, keep_dropCopy (hv.sub rfl), keep_copyTo (hv.sub rfl), keep_deliverLocal (hv.sub rfl), foldl_keep, foldl_keep2, foldl_keep22, foldl_keep1, apply_ite v]; done
theorem keep_doOwn {α : Type} {v : State → α} (hv : Ig 305069605536 v) (s : State) (x1 : OwnOut) :
    v (State.doOwn s x1).2 = v s := by
  unfold State.doOwn; (repeat' split) <;> first | (simp [keep_ownWrite (hv.sub rfl), keep_postEq (hv.sub rfl), keep_multicast (hv.sub rfl), keep_respond (hv.sub rfl), foldl_keep, foldl_keep2, foldl_keep22, foldl_keep1, apply_ite v]; done) | grind [keep_ownWrite (hv.sub rfl), keep_postEq (hv.sub rfl), keep_multicast (hv.sub rfl), keep_respond (hv.sub rfl)]
theorem keep_flushOwn {α : Type} {v : State → α} (hv : Ig 305606476448 v) (s : State) :
    v (State.flushOwn s) = v s := by
  unfold State.flushOwn
  rw [hv.ownOut rfl, foldl_keep1 (v := v)]
  · exact hv.ownOut rfl _ _
  · intro r x
    split
    · rfl
    · split
      split <;> grind [keep_doOwn (hv.sub rfl)]
theorem keep_freeEngine {α : Type} {v : State → α} (hv : Ig 135266304 v) (s : State) (d : Desc) :
    v (State.freeEngine s d) = v s := by
  unfold State.freeEngine; (repeat' split) <;> first | (simp [keep_modDesc (hv.sub rfl), hv.engines rfl, foldl_keep, foldl_keep2, foldl_keep22, foldl_keep1, apply_ite v]; done) | grind [keep_modDesc (hv.sub rfl), hv.engines rfl]
theorem keep_finishIf {α : Type} {v : State → α} (hv : Ig 135266304 v) (s : State) (q : ℕ) (i : BitVec 32) :
    v (State.finishIf s q i) = v s := by
  unfold State.finishIf; (repeat' split) <;> first | (simp [keep_modDesc (hv.sub rfl), keep_freeEngine (hv.sub rfl), foldl_keep, foldl_keep2, foldl_keep22, foldl_keep1, apply_ite v]; done) | grind [keep_modDesc (hv.sub rfl), keep_freeEngine (hv.sub rfl)]
theorem keep_settle {α : Type} {v : State → α} (hv : Ig 340100432560 v) (s : State) :
    v (State.settle s) = v s := by
  simp [State.settle, keep_pumpN (hv.sub rfl), keep_flush (hv.sub rfl), keep_flushOwn (hv.sub rfl), keep_finishIf (hv.sub rfl), foldl_keep, foldl_keep2, foldl_keep22, foldl_keep1, apply_ite v]; done
theorem keep_command {α : Type} {v : State → α} (hv : Ig 32 v) (s : State) (m : ℕ) (c : Call) (checks : List Check) (eff : State → State) (k_eff : ∀ z0, v (eff z0) = v z0) :
    v (State.command s m c checks eff) = v s := by
  unfold State.command; (repeat' split) <;> first | (simp [keep_respond (hv.sub rfl), k_eff, foldl_keep, foldl_keep2, foldl_keep22, foldl_keep1, apply_ite v]; done) | grind [keep_respond (hv.sub rfl), k_eff]
theorem keep_walkStreams {α : Type} {v : State → α} (hv : Ig 110150304 v) (s : State) (c : Context) (tag : ℕ) (xs : List Stream) :
    v (State.walkStreams s c tag xs).2 = v s := by
  simp [State.walkStreams, keep_walkPages (hv.sub rfl), foldl_keep, foldl_keep2, foldl_keep22, foldl_keep1, apply_ite v]; done
theorem keep_keysReady {α : Type} {v : State → α} (hv : Ig 305052811936 v) (s : State) (rs : List Run) (rd : List (ℕ × ℕ)) (wr : List (ℕ × ℕ)) :
    v (State.keysReady s rs rd wr).2 = v s := by
  simp [State.keysReady, keep_recallAll (hv.sub rfl), foldl_keep, foldl_keep2, foldl_keep22, foldl_keep1, apply_ite v]; done
theorem keep_readKey {α : Type} {v : State → α} (hv : Ig 110133920 v) (s : State) (rs : List Run) (key : ℕ) (len : ℕ) (a : Acc) :
    v (State.readKey s rs key len a).2.2 = v s := by
  unfold State.readKey; repeat' first | rfl | (simp [keep_readBytes (hv.sub rfl), foldl_keep, foldl_keep2, foldl_keep22, foldl_keep1, apply_ite v]; done) | grind [keep_readBytes (hv.sub rfl)] | rw [foldl_keep (v := v)] | rw [foldl_keep2 (v := v)] | rw [foldl_keep1 (v := v)] | rw [foldl_keep22 (v := v)] | refine getD_keep (v := v) ?_ ?_ | split | dsimp only | intro _
theorem keep_readOnce {α : Type} {v : State → α} (hv : Ig 305052828320 v) (s : State) (d : Desc) (c : Context) (part : ℕ) (x : Stream) (n : ℕ) :
    v (State.readOnce s d c part x n).2 = v s := by
  unfold State.readOnce; (repeat' split) <;> first | (simp [keep_walkStreams (hv.sub rfl), keep_keysReady (hv.sub rfl), keep_readKey (hv.sub rfl), foldl_keep, foldl_keep2, foldl_keep22, foldl_keep1, apply_ite v]; done) | grind [keep_walkStreams (hv.sub rfl), keep_keysReady (hv.sub rfl), keep_readKey (hv.sub rfl)]
theorem keep_xlateOperator {α : Type} {v : State → α} (hv : Ig 305052828320 v) (s : State) (d : Desc) (c : Context) (part : ℕ) :
    v (State.xlateOperator s d c part).2 = v s := by
  unfold State.xlateOperator; (repeat' split) <;> first | (simp [keep_readOnce (hv.sub rfl), keep_walkStreams (hv.sub rfl), foldl_keep, foldl_keep2, foldl_keep22, foldl_keep1, apply_ite v]; done) | grind [keep_readOnce (hv.sub rfl), keep_walkStreams (hv.sub rfl)]
theorem keep_xlate {α : Type} {v : State → α} (hv : Ig 305052828320 v) (s : State) (d : Desc) (c : Context) (part : ℕ) :
    v (State.xlate s d c part).2 = v s := by
  unfold State.xlate; (repeat' split) <;> first | (simp [keep_xlateOperator (hv.sub rfl), keep_walkStreams (hv.sub rfl), foldl_keep, foldl_keep2, foldl_keep22, foldl_keep1, apply_ite v]; done) | grind [keep_xlateOperator (hv.sub rfl), keep_walkStreams (hv.sub rfl)]
theorem keep_modQueue {α : Type} {v : State → α} (hv : Ig 524288 v) (s : State) (q : ℕ) (f : Queue → Queue) :
    v (State.modQueue s q f) = v s := by
  simp [State.modQueue, hv.queues rfl, foldl_keep, foldl_keep2, foldl_keep22, foldl_keep1, apply_ite v]; done
theorem keep_pruneAvail {α : Type} {v : State → α} (hv : Ig 524288 v) (s : State) (qid : ℕ) :
    v (State.pruneAvail s qid) = v s := by
  simp [State.pruneAvail, keep_modQueue (hv.sub rfl), foldl_keep, foldl_keep2, foldl_keep22, foldl_keep1, apply_ite v]; done
theorem keep_admitted {α : Type} {v : State → α} (hv : Ig 7864320 v) (s : State) (qid : ℕ) (i : BitVec 32) (ph : Phase) (st : Status) :
    v (State.admitted s qid i ph st) = v s := by
  unfold State.admitted
  dsimp only
  generalize hs : State.modDesc s qid i _ = s1
  have k1 : v s1 = v s := by rw [← hs]; exact keep_modDesc (hv.sub rfl) _ _ _ _
  generalize ht : State.modQueue s1 qid _ = s2
  have k2 : v s2 = v s := by rw [← ht, keep_modQueue (hv.sub rfl)]; exact k1
  rw [keep_pruneAvail (hv.sub rfl)]
  exact (hv.ext s2 _ (by (repeat' apply And.intro) <;> first | exact .inl rfl | exact .inr rfl)).trans k2
theorem keep_updFaults {α : Type} {v : State → α} (hv : Ig 16777216 v) (s : State) (f : Faults → Faults) :
    v (State.updFaults s f) = v s := by
  simp [State.updFaults, hv.faults rfl, foldl_keep, foldl_keep2, foldl_keep22, foldl_keep1, apply_ite v]; done
theorem keep_openEntry {α : Type} {v : State → α} (hv : Ig 25166336 v) (s : State) (e : FaultEntry) :
    v (State.openEntry s e) = v s := by
  simp [State.openEntry, keep_faultSeq (hv.sub rfl), keep_updFaults (hv.sub rfl), keep_postFm (hv.sub rfl), foldl_keep, foldl_keep2, foldl_keep22, foldl_keep1, apply_ite v]; done
theorem keep_stallFault {α : Type} {v : State → α} (hv : Ig 25166336 v) (s : State) (tag : ℕ) (f : PageFault) (q : ℕ) (i : BitVec 32) :
    v (State.stallFault s tag f q i) = v s := by
  simp [State.stallFault, keep_updFaults (hv.sub rfl), keep_openEntry (hv.sub rfl), foldl_keep, foldl_keep2, foldl_keep22, foldl_keep1, apply_ite v]; done
theorem keep_holdHead {α : Type} {v : State → α} (hv : Ig 5767168 v) (s : State) (qid : ℕ) (i : BitVec 32) :
    v (State.holdHead s qid i) = v s := by
  simp [State.holdHead, keep_modDesc (hv.sub rfl), keep_modQueue (hv.sub rfl), hv.heldOrder rfl, foldl_keep, foldl_keep2, foldl_keep22, foldl_keep1, apply_ite v]; done
theorem keep_admitRuns {α : Type} {v : State → α} (hv : Ig 305076421280 v) (s : State) (qid : ℕ) (i : BitVec 32) :
    v (State.admitRuns s qid i) = v s := by
  unfold State.admitRuns; (repeat' split) <;> first | (simp [keep_xlate (hv.sub rfl), keep_modDesc (hv.sub rfl), keep_admitted (hv.sub rfl), keep_modQueue (hv.sub rfl), keep_stallFault (hv.sub rfl), keep_reportFault (hv.sub rfl), keep_holdHead (hv.sub rfl), hv.heldOrder rfl, foldl_keep, foldl_keep2, foldl_keep22, foldl_keep1, apply_ite v]; done) | grind [keep_xlate (hv.sub rfl), keep_modDesc (hv.sub rfl), keep_admitted (hv.sub rfl), keep_modQueue (hv.sub rfl), keep_stallFault (hv.sub rfl), keep_reportFault (hv.sub rfl), keep_holdHead (hv.sub rfl), hv.heldOrder rfl]
theorem keep_admitBudget {α : Type} {v : State → α} (hv : Ig 305076421280 v) (s : State) (qid : ℕ) (i : BitVec 32) :
    v (State.admitBudget s qid i) = v s := by
  unfold State.admitBudget; (repeat' split) <;> first | (simp [keep_admitted (hv.sub rfl), keep_holdHead (hv.sub rfl), keep_modPart (hv.sub rfl), keep_admitRuns (hv.sub rfl), keep_modDesc (hv.sub rfl), foldl_keep, foldl_keep2, foldl_keep22, foldl_keep1, apply_ite v]; done) | grind [keep_admitted (hv.sub rfl), keep_holdHead (hv.sub rfl), keep_modPart (hv.sub rfl), keep_admitRuns (hv.sub rfl), keep_modDesc (hv.sub rfl)]
theorem keep_continueHead {α : Type} {v : State → α} (hv : Ig 305076421280 v) (s : State) (qid : ℕ) (d : Desc) :
    v (State.continueHead s qid d) = v s := by
  simp [State.continueHead, keep_admitRuns (hv.sub rfl), keep_admitBudget (hv.sub rfl), foldl_keep, foldl_keep2, foldl_keep22, foldl_keep1, apply_ite v]; done
theorem keep_retryHeld {α : Type} {v : State → α} (hv : Ig 305076421280 v) (s : State) (part : ℕ) :
    v (State.retryHeld s part) = v s := by
  unfold State.retryHeld; repeat' first | rfl | (simp [keep_continueHead (hv.sub rfl), foldl_keep, foldl_keep2, foldl_keep22, foldl_keep1, apply_ite v]; done) | rw [foldl_keep (v := v)] | rw [foldl_keep2 (v := v)] | rw [foldl_keep1 (v := v)] | rw [foldl_keep22 (v := v)] | refine getD_keep (v := v) ?_ ?_ | split | dsimp only | intro _ | grind [keep_continueHead (hv.sub rfl)]
theorem keep_modCtx {α : Type} {v : State → α} (hv : Ig 1024 v) (s : State) (c : ℕ) (f : Context → Context) :
    v (State.modCtx s c f) = v s := by
  simp [State.modCtx, hv.ctxs rfl, foldl_keep, foldl_keep2, foldl_keep22, foldl_keep1, apply_ite v]; done
theorem keep_dropDesc {α : Type} {v : State → α} (hv : Ig 1048576 v) (s : State) (q : ℕ) (i : BitVec 32) :
    v (State.dropDesc s q i) = v s := by
  simp [State.dropDesc, hv.descs rfl, foldl_keep, foldl_keep2, foldl_keep22, foldl_keep1, apply_ite v]; done
theorem keep_refund {α : Type} {v : State → α} (hv : Ig 128 v) (s : State) (d : Desc) (part : ℕ) :
    v (State.refund s d part) = v s := by
  simp [State.refund, keep_modPart (hv.sub rfl), foldl_keep, foldl_keep2, foldl_keep22, foldl_keep1, apply_ite v]; done
theorem keep_orphanMig {α : Type} {v : State → α} (hv : Ig 32768 v) (s : State) (d : Desc) :
    v (State.orphanMig s d) = v s := by
  simp [State.orphanMig, keep_modRegion (hv.sub rfl), foldl_keep, foldl_keep2, foldl_keep22, foldl_keep1, apply_ite v]; done
theorem keep_endRequest {α : Type} {v : State → α} (hv : Ig 8589934592 v) (s : State) (k : FlowKey) (id : ℕ × ℕ × ℕ) :
    v (State.endRequest s k id) = v s := by
  simp [State.endRequest, keep_updNet (hv.sub rfl), foldl_keep, foldl_keep2, foldl_keep22, foldl_keep1, apply_ite v]; done
theorem keep_closeOwn {α : Type} {v : State → α} (hv : Ig 8589934592 v) (s : State) (f : OwnMsg → Bool) :
    v (State.closeOwn s f) = v s := by
  unfold State.closeOwn; repeat' first | rfl | (simp [keep_updNet (hv.sub rfl), keep_endRequest (hv.sub rfl), foldl_keep, foldl_keep2, foldl_keep22, foldl_keep1, apply_ite v]; done) | rw [foldl_keep (v := v)] | rw [foldl_keep2 (v := v)] | rw [foldl_keep1 (v := v)] | rw [foldl_keep22 (v := v)] | refine getD_keep (v := v) ?_ ?_ | split | dsimp only | intro _ | grind [keep_updNet (hv.sub rfl), keep_endRequest (hv.sub rfl)]
theorem keep_endDesc {α : Type} {v : State → α} (hv : Ig 8725200896 v) (s : State) (q : ℕ) (i : BitVec 32) (st : Status) (partDone : Bool) :
    v (State.endDesc s q i st partDone) = v s := by
  unfold State.endDesc; (repeat' split) <;> first | (simp [keep_modDesc (hv.sub rfl), keep_closeOwn (hv.sub rfl), keep_freeEngine (hv.sub rfl), foldl_keep, foldl_keep2, foldl_keep22, foldl_keep1, apply_ite v]; done) | grind [keep_modDesc (hv.sub rfl), keep_closeOwn (hv.sub rfl), keep_freeEngine (hv.sub rfl)]
theorem keep_readIndices {α : Type} {v : State → α} (hv : Ig 110133920 v) (s : State) (rs : List Run) (key : ℕ) (w : ℕ) (count : ℕ) (rows : ℕ) (a : Acc) :
    v (State.readIndices s rs key w count rows a).2.2 = v s := by
  simp [State.readIndices, keep_readKey (hv.sub rfl), foldl_keep, foldl_keep2, foldl_keep22, foldl_keep1, apply_ite v]; done
theorem keep_movesNow {α : Type} {v : State → α} (hv : Ig 110133920 v) (s : State) (d : Desc) (u : Queue) :
    v (State.movesNow s d u).2 = v s := by
  unfold State.movesNow; (repeat' split) <;> first | (simp [keep_readIndices (hv.sub rfl), foldl_keep, foldl_keep2, foldl_keep22, foldl_keep1, apply_ite v]; done) | grind [keep_readIndices (hv.sub rfl)]
theorem keep_requestKey {α : Type} {v : State → α} (hv : Ig 110133920 v) (s : State) (rs : List Run) (key : ℕ) (len : ℕ) (a : Acc) :
    v (State.requestKey s rs key len a) = v s := by
  unfold State.requestKey; repeat' first | rfl | (simp [keep_requestBelow (hv.sub rfl), keep_atomDrop (hv.sub rfl), foldl_keep, foldl_keep2, foldl_keep22, foldl_keep1, apply_ite v]; done) | grind [keep_requestBelow (hv.sub rfl), keep_atomDrop (hv.sub rfl)] | rw [foldl_keep (v := v)] | rw [foldl_keep2 (v := v)] | rw [foldl_keep1 (v := v)] | rw [foldl_keep22 (v := v)] | refine getD_keep (v := v) ?_ ?_ | split | dsimp only | intro _
theorem keep_requestKeys {α : Type} {v : State → α} (hv : Ig 110133920 v) (s : State) (d : Desc) (part : ℕ) (ks : List (ℕ × ℕ)) :
    v (State.requestKeys s d part ks) = v s := by
  simp [State.requestKeys, keep_requestKey (hv.sub rfl), foldl_keep, foldl_keep2, foldl_keep22, foldl_keep1, apply_ite v]; done
theorem keep_writeKey {α : Type} {v : State → α} (hv : Ig 30174904992 v) (s : State) (rs : List Run) (key : ℕ) (bs : List (Byte × Bool)) (a : Acc) :
    v (State.writeKey s rs key bs a).2 = v s := by
  unfold State.writeKey; repeat' first | rfl | (simp [keep_writeBytes (hv.sub rfl), keep_forward (hv.sub rfl), foldl_keep, foldl_keep2, foldl_keep22, foldl_keep1, apply_ite v]; done) | grind [keep_writeBytes (hv.sub rfl), keep_forward (hv.sub rfl)] | rw [foldl_keep (v := v)] | rw [foldl_keep2 (v := v)] | rw [foldl_keep1 (v := v)] | rw [foldl_keep22 (v := v)] | refine getD_keep (v := v) ?_ ?_ | split | dsimp only | intro _
theorem keep_ownMsg {α : Type} {v : State → α} (hv : Ig 8589935616 v) (s : State) (d : Desc) (node : ℕ) (op : ℕ) :
    v (State.ownMsg s d node op).2 = v s := by
  simp [State.ownMsg, keep_newTag (hv.sub rfl), keep_modCtx (hv.sub rfl), keep_updNet (hv.sub rfl), foldl_keep, foldl_keep2, foldl_keep22, foldl_keep1, apply_ite v]; done
theorem keep_sendAll {α : Type} {v : State → α} (hv : Ig 287762808832 v) (s : State) (part : ℕ) (h : Hdr) (n : ℕ) (x1 : List (ℕ × List Byte × Bool)) :
    v (State.sendAll s part h n x1).2 = v s := by
  fun_induction State.sendAll s part h n x1 <;> repeat' first | rfl | assumption | (simp [keep_originate (hv.sub rfl), foldl_keep, foldl_keep2, foldl_keep22, foldl_keep1, apply_ite v]; done) | (simp_all [keep_originate (hv.sub rfl), foldl_keep, foldl_keep2, foldl_keep22, foldl_keep1, apply_ite v]; done) | rw [foldl_keep (v := v)] | rw [foldl_keep2 (v := v)] | rw [foldl_keep1 (v := v)] | rw [foldl_keep22 (v := v)] | refine getD_keep (v := v) ?_ ?_ | split | dsimp only | intro _ | grind [keep_originate (hv.sub rfl)]
theorem keep_addOut {α : Type} {v : State → α} (hv : Ig 1048576 v) (s : State) (d : Desc) (m : OutMsg) :
    v (State.addOut s d m) = v s := by
  simp [State.addOut, keep_modDesc (hv.sub rfl), foldl_keep, foldl_keep2, foldl_keep22, foldl_keep1, apply_ite v]; done
theorem keep_pushRemote {α : Type} {v : State → α} (hv : Ig 287763858432 v) (s : State) (d : Desc) (part : ℕ) (rank : ℕ) (addr : ℕ) (bs : List (Byte × Bool)) (cnt : ℕ → ℕ → ℕ) (store : ℕ) :
    v (State.pushRemote s d part rank addr bs cnt store).2 = v s := by
  unfold State.pushRemote; (repeat' split) <;> first | (simp [keep_ownMsg (hv.sub rfl), keep_sendAll (hv.sub rfl), keep_addOut (hv.sub rfl), foldl_keep, foldl_keep2, foldl_keep22, foldl_keep1, apply_ite v]; done) | grind [keep_ownMsg (hv.sub rfl), keep_sendAll (hv.sub rfl), keep_addOut (hv.sub rfl)]
theorem keep_pullRemote {α : Type} {v : State → α} (hv : Ig 287763858432 v) (s : State) (d : Desc) (part : ℕ) (rank : ℕ) (addr : ℕ) (n : ℕ) (loc : ℕ) :
    v (State.pullRemote s d part rank addr n loc).2 = v s := by
  unfold State.pullRemote
  split
  · rfl
  · rw [foldl_keep2 (v := v)]
    intro x c
    split
    · rfl
    · dsimp only
      split
      · exact keep_ownMsg (hv.sub rfl) _ _ _ _
      · rename_i h1
        exact (keep_addOut (hv.sub rfl) _ _ _).trans ((keep_originate (hv.sub rfl) _ _ _ _ h1).trans (keep_ownMsg (hv.sub rfl) _ _ _ _))
theorem keep_move1 {α : Type} {v : State → α} (hv : Ig 305052812960 v) (s : State) (d : Desc) (part : ℕ) (n : ℕ) (src : Source) (dst : Target) :
    v (State.move1 s d part n src dst).2.2 = v s := by
  unfold State.move1; (repeat' split) <;> first | (simp [keep_writeKey (hv.sub rfl), keep_pushRemote (hv.sub rfl), keep_readKey (hv.sub rfl), keep_pullRemote (hv.sub rfl), foldl_keep, foldl_keep2, foldl_keep22, foldl_keep1, apply_ite v]; done) | grind [keep_writeKey (hv.sub rfl), keep_pushRemote (hv.sub rfl), keep_readKey (hv.sub rfl), keep_pullRemote (hv.sub rfl)]
theorem keep_moveAll {α : Type} {v : State → α} (hv : Ig 305052812960 v) (s : State) (d : Desc) (part : ℕ) (ms : List Move) :
    v (State.moveAll s d part ms).2.2 = v s := by
  simp [State.moveAll, keep_move1 (hv.sub rfl), foldl_keep, foldl_keep2, foldl_keep22, foldl_keep1, apply_ite v]; done
theorem keep_stopSegment {α : Type} {v : State → α} (hv : Ig 305052812960 v) (s : State) (d : Desc) (part : ℕ) (ms : List Move) (x : SegRun) :
    v (State.stopSegment s d part ms x) = v s := by
  simp [State.stopSegment, keep_draw (hv.sub rfl), keep_requestKeys (hv.sub rfl), keep_moveAll (hv.sub rfl), keep_modDesc (hv.sub rfl), foldl_keep, foldl_keep2, foldl_keep22, foldl_keep1, apply_ite v]; done
theorem keep_stopDesc {α : Type} {v : State → α} (hv : Ig 305187030688 v) (s : State) (d : Desc) (st : Status) :
    v (State.stopDesc s d st) = v s := by
  unfold State.stopDesc; repeat' first | rfl | (simp [keep_movesNow (hv.sub rfl), keep_stopSegment (hv.sub rfl), keep_endDesc (hv.sub rfl), foldl_keep, foldl_keep2, foldl_keep22, foldl_keep1, apply_ite v]; done) | rw [foldl_keep (v := v)] | rw [foldl_keep2 (v := v)] | rw [foldl_keep1 (v := v)] | rw [foldl_keep22 (v := v)] | refine getD_keep (v := v) ?_ ?_ | split | dsimp only | intro _ | grind [keep_movesNow (hv.sub rfl), keep_stopSegment (hv.sub rfl), keep_endDesc (hv.sub rfl)]
theorem keep_cancel {α : Type} {v : State → α} (hv : Ig 305187030688 v) (s : State) (n : ℕ) (d : Desc) :
    v (State.cancel s n d).2 = v s := by
  unfold State.cancel; (repeat' split) <;> first | (simp [keep_modDesc (hv.sub rfl), keep_dropDesc (hv.sub rfl), keep_refund (hv.sub rfl), keep_orphanMig (hv.sub rfl), keep_endDesc (hv.sub rfl), keep_stopDesc (hv.sub rfl), foldl_keep, foldl_keep2, foldl_keep22, foldl_keep1, apply_ite v]; done) | grind [keep_modDesc (hv.sub rfl), keep_dropDesc (hv.sub rfl), keep_refund (hv.sub rfl), keep_orphanMig (hv.sub rfl), keep_endDesc (hv.sub rfl), keep_stopDesc (hv.sub rfl)]
theorem keep_writeFault {α : Type} {v : State → α} (hv : Ig 25165824 v) (s : State) (e : FaultEntry) :
    v (State.writeFault s e) = v s := by
  unfold State.writeFault; (repeat' split) <;> first | (simp [keep_updFaults (hv.sub rfl), keep_postEq (hv.sub rfl), foldl_keep, foldl_keep2, foldl_keep22, foldl_keep1, apply_ite v]; done) | grind [keep_updFaults (hv.sub rfl), keep_postEq (hv.sub rfl)]
theorem keep_unstall {α : Type} {v : State → α} (hv : Ig 305076421280 v) (s : State) (retry : Bool) (st : Status) (w : ℕ × BitVec 32) :
    v (State.unstall s retry st w) = v s := by
  unfold State.unstall; (repeat' split) <;> first | (simp [keep_admitRuns (hv.sub rfl), keep_modQueue (hv.sub rfl), keep_admitted (hv.sub rfl), foldl_keep, foldl_keep2, foldl_keep22, foldl_keep1, apply_ite v]; done) | grind [keep_admitRuns (hv.sub rfl), keep_modQueue (hv.sub rfl), keep_admitted (hv.sub rfl)]
theorem keep_closeEntry {α : Type} {v : State → α} (hv : Ig 305076421280 v) (s : State) (e : FaultEntry) (retry : Bool) (st : Status) :
    v (State.closeEntry s e retry st) = v s := by
  simp [State.closeEntry, keep_writeFault (hv.sub rfl), keep_updFaults (hv.sub rfl), keep_unstall (hv.sub rfl), foldl_keep, foldl_keep2, foldl_keep22, foldl_keep1, apply_ite v]; done
theorem keep_collOut {α : Type} {v : State → α} (hv : Ig 536870912 v) (s : State) (c : Coll) (o : OwnOut) :
    v (State.collOut s c o) = v s := by
  simp [State.collOut, hv.ownOut rfl, foldl_keep, foldl_keep2, foldl_keep22, foldl_keep1, apply_ite v]; done
theorem keep_collSend {α : Type} {v : State → α} (hv : Ig 536870912 v) (s : State) (c : Coll) (ps : List Packet) :
    v (State.collSend s c ps) = v s := by
  simp [State.collSend, keep_collOut (hv.sub rfl), foldl_keep, foldl_keep2, foldl_keep22, foldl_keep1, apply_ite v]; done
theorem keep_closeStep {α : Type} {v : State → α} (hv : Ig 9126805504 v) (s : State) (c : Coll) :
    v (State.closeStep s c).2 = v s := by
  simp [State.closeStep, keep_collOut (hv.sub rfl), keep_newTag (hv.sub rfl), keep_collSend (hv.sub rfl), foldl_keep, foldl_keep2, foldl_keep22, foldl_keep1, apply_ite v]; done
theorem keep_zeroLater {α : Type} {v : State → α} (hv : Ig 131072 v) (s : State) (cs : List ℕ) (region : ℕ) :
    v (State.zeroLater s cs region) = v s := by
  simp [State.zeroLater, hv.chunks rfl, foldl_keep, foldl_keep2, foldl_keep22, foldl_keep1, apply_ite v]; done
theorem keep_endColl {α : Type} {v : State → α} (hv : Ig 9395372032 v) (s : State) (c : Coll) :
    v (State.endColl s c) = v s := by
  unfold State.endColl; (repeat' split) <;> first | (simp [keep_closeStep (hv.sub rfl), keep_zeroLater (hv.sub rfl), hv.colls rfl, foldl_keep, foldl_keep2, foldl_keep22, foldl_keep1, apply_ite v]; done) | grind [keep_closeStep (hv.sub rfl), keep_zeroLater (hv.sub rfl), hv.colls rfl]
theorem keep_cancelWork {α : Type} {v : State → α} (hv : Ig 306016077472 v) (s : State) (n : ℕ) (old : ℕ) :
    v (State.cancelWork s n old) = v s := by
  simp [State.cancelWork, keep_cancel (hv.sub rfl), keep_modCtx (hv.sub rfl), keep_closeEntry (hv.sub rfl), keep_updFaults (hv.sub rfl), keep_endColl (hv.sub rfl), foldl_keep, foldl_keep2, foldl_keep22, foldl_keep1, apply_ite v]; done
theorem keep_uncacheAll {α : Type} {v : State → α} (hv : Ig 16384 v) (s : State) (c : ℕ) :
    v (State.uncacheAll s c) = v s := by
  simp [State.uncacheAll, hv.tcache rfl, foldl_keep, foldl_keep2, foldl_keep22, foldl_keep1, apply_ite v]; done
theorem keep_advanceGen {α : Type} {v : State → α} (hv : Ig 18434 v) (s : State) (n : ℕ) :
    v (State.advanceGen s n) = v s := by
  unfold State.advanceGen; rw [keep_uncacheAll (hv.sub rfl)]; exact hv.ext s _ (by (repeat' apply And.intro) <;> first | exact .inl rfl | exact .inr rfl)
theorem keep_blockQueues {α : Type} {v : State → α} (hv : Ig 2152202240 v) (s : State) (n : ℕ) :
    v (State.blockQueues s n) = v s := by
  unfold State.blockQueues; rw [foldl_keep (v := v)]
  intro s q
  dsimp only
  generalize hs : State.modQueue s q _ = s1
  exact (hv.ext s1 _ (by (repeat' apply And.intro) <;> first | exact .inl rfl | exact .inr rfl)).trans (hs ▸ keep_modQueue (hv.sub rfl) _ _ _)
theorem keep_closeMsgs {α : Type} {v : State → α} (hv : Ig 287762808832 v) (s : State) (old : ℕ) :
    v (State.closeMsgs s old) = v s := by
  simp [State.closeMsgs, keep_dropMsg (hv.sub rfl), keep_updNet (hv.sub rfl), keep_refuse (hv.sub rfl), foldl_keep, foldl_keep2, foldl_keep22, foldl_keep1, apply_ite v]; done
theorem keep_startTeardown {α : Type} {v : State → α} (hv : Ig 308163563170 v) (s : State) (n : ℕ) (m : Option ℕ) (fm : Bool) (destroy : Bool) :
    v (State.startTeardown s n m fm destroy) = v s := by
  simp [State.startTeardown, keep_modCtx (hv.sub rfl), keep_cancelWork (hv.sub rfl), keep_advanceGen (hv.sub rfl), keep_blockQueues (hv.sub rfl), keep_closeMsgs (hv.sub rfl), foldl_keep, foldl_keep2, foldl_keep22, foldl_keep1, apply_ite v]; done
theorem keep_startReset {α : Type} {v : State → α} (hv : Ig 308163563170 v) (s : State) (p : ℕ) (m : Option ℕ) :
    v (State.startReset s p m) = v s := by
  simp [State.startReset, keep_modPart (hv.sub rfl), keep_startTeardown (hv.sub rfl), foldl_keep, foldl_keep2, foldl_keep22, foldl_keep1, apply_ite v]; done
theorem keep_freeExtent {α : Type} {v : State → α} (hv : Ig 196608 v) (s : State) (id : ℕ) (region : ℕ) :
    v (State.freeExtent s id region) = v s := by
  unfold State.freeExtent; (repeat' split) <;> first | (simp [keep_zeroLater (hv.sub rfl), hv.extents rfl, foldl_keep, foldl_keep2, foldl_keep22, foldl_keep1, apply_ite v]; done) | grind [keep_zeroLater (hv.sub rfl), hv.extents rfl]
theorem keep_sweepExts {α : Type} {v : State → α} (hv : Ig 196608 v) (s : State) :
    v (State.sweepExts s) = v s := by
  simp [State.sweepExts, keep_freeExtent (hv.sub rfl), hv.extents rfl, foldl_keep, foldl_keep2, foldl_keep22, foldl_keep1, apply_ite v]; done
theorem keep_dropQueue {α : Type} {v : State → α} (hv : Ig 2152398848 v) (s : State) (q : ℕ) :
    v (State.dropQueue s q) = v s := by
  unfold State.dropQueue; rw [keep_sweepExts (hv.sub rfl)]; exact hv.ext s _ (by (repeat' apply And.intro) <;> first | exact .inl rfl | exact .inr rfl)
theorem keep_freeTable {α : Type} {v : State → α} (hv : Ig 139264 v) (s : State) (f : ℕ) :
    v (State.freeTable s f) = v s := by
  simp [State.freeTable, keep_zeroLater (hv.sub rfl), hv.tables rfl, foldl_keep, foldl_keep2, foldl_keep22, foldl_keep1, apply_ite v]; done
theorem keep_freeTree {α : Type} {v : State → α} (hv : Ig 139264 v) (s : State) (x1 : ℕ) (x2 : ℕ) (x3 : ℕ) :
    v (State.freeTree s x1 x2 x3) = v s := by
  induction x1 generalizing s x2 x3 with
  | zero => simp [State.freeTree]
  | succ k ih =>
    simp only [State.freeTree]
    rw [keep_freeTable (hv.sub rfl), foldl_keep (v := v)]
    intro s x
    split
    · exact ih _ _ _
    · rfl
theorem keep_dropCtx {α : Type} {v : State → α} (hv : Ig 2152440864 v) (s : State) (n : ℕ) :
    v (State.dropCtx s n) = v s := by
  unfold State.dropCtx; (repeat' split) <;> first | (simp [keep_modRegion (hv.sub rfl), keep_respondQ (hv.sub rfl), keep_dropQueue (hv.sub rfl), keep_freeTree (hv.sub rfl), keep_zeroLater (hv.sub rfl), hv.ctxs rfl, foldl_keep, foldl_keep2, foldl_keep22, foldl_keep1, apply_ite v]; done) | grind [keep_modRegion (hv.sub rfl), keep_respondQ (hv.sub rfl), keep_dropQueue (hv.sub rfl), keep_freeTree (hv.sub rfl), keep_zeroLater (hv.sub rfl), hv.ctxs rfl]
theorem keep_zeroChunk {α : Type} {v : State → α} (hv : Ig 109052416 v) (s : State) (c : ℕ) :
    v (State.zeroChunk s c) = v s := by
  simp [State.zeroChunk, keep_updCoh (hv.sub rfl), keep_fireFlip (hv.sub rfl), keep_updPool (hv.sub rfl), foldl_keep, foldl_keep2, foldl_keep22, foldl_keep1, apply_ite v]; done
theorem keep_zeroRegion {α : Type} {v : State → α} (hv : Ig 305052811936 v) (s : State) (r : Region) :
    v (State.zeroRegion s r) = v s := by
  unfold State.zeroRegion
  split
  · rfl
  · next x _ =>
    have h := keep_recallAll (hv.sub rfl) s (x.chunks.flatMap s.chunkCopies) true
    dsimp only
    split
    · rw [foldl_keep (v := v) (fun s c => keep_zeroChunk (hv.sub rfl) s c)]; exact h
    · exact h
theorem keep_resetObjects {α : Type} {v : State → α} (hv : Ig 308278961824 v) (s : State) (p : ℕ) (q : Partition) :
    v (State.resetObjects s p q) = v s := by
  simp [State.resetObjects, keep_dropCtx (hv.sub rfl), keep_modRegion (hv.sub rfl), keep_zeroRegion (hv.sub rfl), keep_modPart (hv.sub rfl), hv.shapers rfl, foldl_keep, foldl_keep2, foldl_keep22, foldl_keep1, apply_ite v]; done
theorem keep_zeroRing {α : Type} {v : State → α} (hv : Ig 536870912 v) (s : State) (eq : ℕ) (e : EventQ) (m : Option ℕ) :
    v (State.zeroRing s eq e m) = v s := by
  simp [State.zeroRing, hv.ownOut rfl, foldl_keep, foldl_keep2, foldl_keep22, foldl_keep1, apply_ite v]; done
theorem keep_endReset {α : Type} {v : State → α} (hv : Ig 545260192 v) (s : State) (p : ℕ) (q : Partition) :
    v (State.endReset s p q) = v s := by
  simp [State.endReset, keep_zeroRing (hv.sub rfl), keep_modEq (hv.sub rfl), keep_postFm (hv.sub rfl), keep_postPart (hv.sub rfl), keep_updMb (hv.sub rfl), keep_respondQ (hv.sub rfl), keep_modPart (hv.sub rfl), foldl_keep, foldl_keep2, foldl_keep22, foldl_keep1, apply_ite v]; done
theorem keep_carryDrops {α : Type} {v : State → α} (hv : Ig 8388608 v) (s : State) (q : ℕ) (n : ℕ) :
    v (State.carryDrops s q n) = v s := by
  simp [State.carryDrops, keep_modEq (hv.sub rfl), foldl_keep, foldl_keep2, foldl_keep22, foldl_keep1, apply_ite v]; done
theorem keep_takeChunk {α : Type} {v : State → α} (hv : Ig 274878038016 v) (s : State) (u : ℕ) (use_ : ChunkUse) :
    ∀ t', (State.takeChunk s u use_) = some t' → v t'.2 = v s := by
  unfold State.takeChunk; (repeat' split) <;> first | (simp [keep_draw (hv.sub rfl), hv.chunks rfl, foldl_keep, foldl_keep2, foldl_keep22, foldl_keep1, apply_ite v]; done) | grind [keep_draw (hv.sub rfl), hv.chunks rfl]
theorem keep_takeHot {α : Type} {v : State → α} (hv : Ig 274878038016 v) (s : State) (use_ : ChunkUse) :
    ∀ t', (State.takeHot s use_) = some t' → v t'.2 = v s := by
  intro t ht
  unfold State.takeHot at ht
  dsimp only at ht
  obtain ⟨u, _, hu⟩ := List.exists_of_findSome?_eq_some ht
  exact (keep_takeChunk (hv.sub rfl) _ _ _ t hu).trans (keep_draw (hv.sub rfl) _)
theorem keep_newTable {α : Type} {v : State → α} (hv : Ig 274878046208 v) (s : State) (part : ℕ) :
    ∀ t', (State.newTable s part) = some t' → v t'.2 = v s := by
  intro t ht
  unfold State.newTable at ht
  split at ht
  · cases ht
  · dsimp only at ht
    split at ht
    · cases ht
      exact hv.tables rfl _ _
    · split at ht
      · cases ht
      · rename_i hh
        cases ht
        exact (hv.tables rfl _ _).trans (keep_takeHot (hv.sub rfl) _ _ _ hh)
theorem keep_allocCtx {α : Type} {v : State → α} (hv : Ig 274878047232 v) (s : State) (n : ℕ) (c : Context) :
    ∀ t', (State.allocCtx s n c) = some t' → v t' = v s := by
  intro t ht
  unfold State.allocCtx at ht
  split at ht
  · cases ht
  · split at ht
    · cases ht
    · rename_i h1
      split at ht
      · cases ht
      · rename_i h2
        cases ht
        exact (keep_modCtx (hv.sub rfl) _ _ _).trans ((keep_newTable (hv.sub rfl) _ _ _ h2).trans
          ((hv.ctxs rfl _ _).trans (keep_takeHot (hv.sub rfl) _ _ _ h1)))
theorem keep_drainUnit {α : Type} {v : State → α} (hv : Ig 110133920 v) (s : State) (u : ℕ) :
    v (State.drainUnit s u) = v s := by
  simp [State.drainUnit, keep_issue (hv.sub rfl), keep_updUnit (hv.sub rfl), foldl_keep, foldl_keep2, foldl_keep22, foldl_keep1, apply_ite v]; done
theorem keep_kettleOut {α : Type} {v : State → α} (hv : Ig 110133920 v) (s : State) (part : ℕ) :
    v (State.kettleOut s part) = v s := by
  simp [State.kettleOut, keep_drainUnit (hv.sub rfl), keep_kettleForce (hv.sub rfl), foldl_keep, foldl_keep2, foldl_keep22, foldl_keep1, apply_ite v]; done
theorem keep_sendEnded {α : Type} {v : State → α} (hv : Ig 287762808832 v) (s : State) (n : ℕ) (c : Context) :
    v (State.sendEnded s n c) = v s := by
  simp [State.sendEnded, keep_send (hv.sub rfl), foldl_keep, foldl_keep2, foldl_keep22, foldl_keep1, apply_ite v]; done
theorem keep_dropEgress {α : Type} {v : State → α} (hv : Ig 12884901888 v) (s : State) (old : ℕ) (part : ℕ) :
    v (State.dropEgress s old part) = v s := by
  simp [State.dropEgress, keep_updNet (hv.sub rfl), hv.ports rfl, foldl_keep, foldl_keep2, foldl_keep22, foldl_keep1, apply_ite v]; done
theorem keep_endTeardown {α : Type} {v : State → α} (hv : Ig 290025354912 v) (s : State) (n : ℕ) (c : Context) :
    v (State.endTeardown s n c) = v s := by
  simp [State.endTeardown, keep_kettleOut (hv.sub rfl), keep_sweepExts (hv.sub rfl), keep_sendEnded (hv.sub rfl), keep_dropEgress (hv.sub rfl), keep_postPart (hv.sub rfl), keep_postFm (hv.sub rfl), keep_modCtx (hv.sub rfl), keep_dropCtx (hv.sub rfl), keep_respondQ (hv.sub rfl), hv.quarantine rfl, foldl_keep, foldl_keep2, foldl_keep22, foldl_keep1, apply_ite v]; done
theorem keep_takeChunks {α : Type} {v : State → α} (hv : Ig 274878038016 v) (s : State) (u : ℕ) (use_ : ChunkUse) (x1 : ℕ) :
    ∀ t', (State.takeChunks s u use_ x1) = some t' → v t'.2 = v s := by
  induction x1 generalizing s with
  | zero => intro t ht; cases ht; rfl
  | succ k ih =>
    intro t ht
    unfold State.takeChunks at ht
    split at ht
    · cases ht
    · rename_i h1
      split at ht
      · cases ht
      · rename_i h2
        cases ht
        exact (ih _ _ h2).trans (keep_takeChunk (hv.sub rfl) _ _ _ _ h1)
theorem keep_takeShares {α : Type} {v : State → α} (hv : Ig 274878038016 v) (s : State) (n : ℕ) (use_ : ChunkUse) (x1 : List ℕ) :
    ∀ t', (State.takeShares s n use_ x1) = some t' → v t'.2 = v s := by
  induction x1 generalizing s with
  | nil => intro t ht; cases ht; rfl
  | cons u r ih =>
    intro t ht
    unfold State.takeShares at ht
    split at ht
    · cases ht
    · rename_i h1
      split at ht
      · cases ht
      · rename_i h2
        cases ht
        exact (ih _ _ h2).trans (keep_takeChunks (hv.sub rfl) _ _ _ _ _ h1)
theorem keep_newExtent {α : Type} {v : State → α} (hv : Ig 274878103552 v) (s : State) (pl : Placement) (size : ℕ) (part : ℕ) :
    ∀ t', (State.newExtent s pl size part) = some t' → v t'.2 = v s := by
  intro t ht
  unfold State.newExtent at ht
  dsimp only at ht
  split at ht
  · cases ht
  · split at ht
    · cases ht
    · rename_i h1
      cases ht
      exact (hv.extents rfl _ _).trans ((keep_takeShares (hv.sub rfl) _ _ _ _ _ h1).trans (keep_draw (hv.sub rfl) _))
theorem keep_dropRegion {α : Type} {v : State → α} (hv : Ig 32768 v) (s : State) (rid : ℕ) :
    v (State.dropRegion s rid) = v s := by
  simp [State.dropRegion, hv.regions rfl, foldl_keep, foldl_keep2, foldl_keep22, foldl_keep1, apply_ite v]; done
theorem keep_pubAnswer {α : Type} {v : State → α} (hv : Ig 287762808864 v) (s : State) (b : Pub) (st : Status) :
    v (State.pubAnswer s b st) = v s := by
  unfold State.pubAnswer; (repeat' split) <;> first | (simp [keep_respond (hv.sub rfl), keep_cmp (hv.sub rfl), foldl_keep, foldl_keep2, foldl_keep22, foldl_keep1, apply_ite v]; done) | grind [keep_respond (hv.sub rfl), keep_cmp (hv.sub rfl)]
theorem keep_endPub {α : Type} {v : State → α} (hv : Ig 287763071008 v) (s : State) (b : Pub) (st : Status) :
    v (State.endPub s b st) = v s := by
  simp [State.endPub, keep_pubAnswer (hv.sub rfl), hv.pubs rfl, foldl_keep, foldl_keep2, foldl_keep22, foldl_keep1, apply_ite v]; done
theorem keep_pubSwap {α : Type} {v : State → α} (hv : Ig 32768 v) (s : State) (b : Pub) (t : Region) (g : Region) :
    v (State.pubSwap s b t g) = v s := by
  simp [State.pubSwap, keep_modRegion (hv.sub rfl), foldl_keep, foldl_keep2, foldl_keep22, foldl_keep1, apply_ite v]; done
theorem keep_pubForward {α : Type} {v : State → α} (hv : Ig 30064771072 v) (s : State) (b : Pub) :
    v (State.pubForward s b) = v s := by
  simp [State.pubForward, keep_newTag (hv.sub rfl), keep_pairSend (hv.sub rfl), hv.mirror rfl, foldl_keep, foldl_keep2, foldl_keep22, foldl_keep1, apply_ite v]; done
theorem keep_pubRewind {α : Type} {v : State → α} (hv : Ig 17179869184 v) (s : State) (b : Pub) (t : Region) :
    v (State.pubRewind s b t) = v s := by
  simp [State.pubRewind, hv.mirror rfl, foldl_keep, foldl_keep2, foldl_keep22, foldl_keep1, apply_ite v]; done
theorem keep_setEntry {α : Type} {v : State → α} (hv : Ig 8192 v) (s : State) (f : ℕ) (i : ℕ) (e : BitVec 64) :
    v (State.setEntry s f i e) = v s := by
  simp [State.setEntry, hv.tables rfl, foldl_keep, foldl_keep2, foldl_keep22, foldl_keep1, apply_ite v]; done
theorem keep_descend {α : Type} {v : State → α} (hv : Ig 274878046208 v) (s : State) (part : ℕ) (l : ℕ) (f : ℕ) (i : ℕ) :
    ∀ t', (State.descend s part l f i) = some t' → v t'.2 = v s := by
  intro t ht
  unfold State.descend at ht
  dsimp only at ht
  split at ht
  · cases ht; rfl
  · split at ht
    · cases ht
    · rename_i h1
      cases ht
      rw [keep_setEntry (hv.sub rfl)]
      split
      · exact (hv.tables rfl _ _).trans (keep_newTable (hv.sub rfl) _ _ _ h1)
      · exact keep_newTable (hv.sub rfl) _ _ _ h1
theorem keep_putLeafFrom {α : Type} {v : State → α} (hv : Ig 274878046208 v) (s : State) (part : ℕ) (cva : ℕ) (target : ℕ) (e : BitVec 64) (x1 : ℕ) (x2 : ℕ) (x3 : ℕ) :
    ∀ t', (State.putLeafFrom s part cva target e x1 x2 x3) = some t' → v t' = v s := by
  induction x1 generalizing s x2 x3 with
  | zero => intro t ht; cases ht
  | succ k ih =>
    intro t ht
    unfold State.putLeafFrom at ht
    dsimp only at ht
    split at ht
    · cases ht
      rw [keep_setEntry (hv.sub rfl)]
      split
      · exact keep_freeTree (hv.sub rfl) _ _ _ _
      · rfl
    · split at ht
      · cases ht
      · rename_i h1
        exact (ih _ _ _ _ ht).trans (keep_descend (hv.sub rfl) _ _ _ _ _ _ h1)
theorem keep_putLeaf {α : Type} {v : State → α} (hv : Ig 274878046208 v) (s : State) (c : Context) (cva : ℕ) (target : ℕ) (e : BitVec 64) :
    ∀ t', (State.putLeaf s c cva target e) = some t' → v t' = v s := by
  unfold State.putLeaf; (repeat' split) <;> first | (simp [keep_putLeafFrom (hv.sub rfl), foldl_keep, foldl_keep2, foldl_keep22, foldl_keep1, apply_ite v]; done) | grind [keep_putLeafFrom (hv.sub rfl)]
theorem keep_mapRange {α : Type} {v : State → α} (hv : Ig 274878046208 v) (s : State) (c : Context) (mk : ℕ → BitVec 64) (x1 : ℕ) (x2 : ℕ) (x3 : ℕ) (x4 : ℕ) :
    ∀ t', (State.mapRange s c mk x1 x2 x3 x4) = some t' → v t' = v s := by
  fun_induction State.mapRange s c mk x1 x2 x3 x4 <;> repeat' first | rfl | assumption | (simp [keep_putLeaf (hv.sub rfl), foldl_keep, foldl_keep2, foldl_keep22, foldl_keep1, apply_ite v]; done) | (simp_all [keep_putLeaf (hv.sub rfl), foldl_keep, foldl_keep2, foldl_keep22, foldl_keep1, apply_ite v]; done) | rw [foldl_keep (v := v)] | rw [foldl_keep2 (v := v)] | rw [foldl_keep1 (v := v)] | rw [foldl_keep22 (v := v)] | refine getD_keep (v := v) ?_ ?_ | split | dsimp only | intro _ | grind [keep_putLeaf (hv.sub rfl)]
theorem keep_uncache {α : Type} {v : State → α} (hv : Ig 16384 v) (s : State) (c : ℕ) (lo : ℕ) (hi : ℕ) :
    v (State.uncache s c lo hi) = v s := by
  simp [State.uncache, hv.tcache rfl, foldl_keep, foldl_keep2, foldl_keep22, foldl_keep1, apply_ite v]; done
theorem keep_failCovering {α : Type} {v : State → α} (hv : Ig 305187030688 v) (s : State) (ctx : ℕ) (lo : ℕ) (hi : ℕ) :
    v (State.failCovering s ctx lo hi) = v s := by
  simp [State.failCovering, keep_stopDesc (hv.sub rfl), keep_endDesc (hv.sub rfl), foldl_keep, foldl_keep2, foldl_keep22, foldl_keep1, apply_ite v]; done
theorem keep_clearFrom {α : Type} {v : State → α} (hv : Ig 274878046208 v) (s : State) (part : ℕ) (lo : ℕ) (hi : ℕ) (x1 : ℕ) (x2 : ℕ) (x3 : ℕ) (x4 : ℕ) :
    ∀ t', (State.clearFrom s part lo hi x1 x2 x3 x4) = some t' → v t' = v s := by
  induction x1 generalizing s x2 x3 x4 with
  | zero => intro t ht; cases ht; rfl
  | succ k ih =>
    intro t ht
    unfold State.clearFrom at ht
    refine foldl_keepO (v := v) ?_ _ _ _ ?_ ht
    · intro r x u hu
      cases r with
      | none => cases hu
      | some s1 =>
        refine ⟨s1, rfl, ?_⟩
        dsimp only at hu
        split at hu
        · cases hu; rfl
        · split at hu
          · cases hu; exact keep_setEntry (hv.sub rfl) _ _ _ _
          · split at hu
            · split at hu
              · cases hu
              · rename_i h1
                split at hu
                · cases hu
                · rename_i h2
                  have h3 := (ih _ _ _ _ _ h2).trans (keep_descend (hv.sub rfl) _ _ _ _ _ _ h1)
                  split at hu
                  · cases hu
                    rw [keep_setEntry (hv.sub rfl), keep_freeTable (hv.sub rfl)]
                    exact h3
                  · cases hu
                    exact h3
            · cases hu; rfl
    · intro u hu; cases hu; rfl
theorem keep_clearRange {α : Type} {v : State → α} (hv : Ig 274878046208 v) (s : State) (c : Context) (lo : ℕ) (hi : ℕ) :
    ∀ t', (State.clearRange s c lo hi) = some t' → v t' = v s := by
  unfold State.clearRange; (repeat' split) <;> first | (simp [keep_clearFrom (hv.sub rfl), foldl_keep, foldl_keep2, foldl_keep22, foldl_keep1, apply_ite v]; done) | grind [keep_clearFrom (hv.sub rfl)]
theorem keep_unmapRange {α : Type} {v : State → α} (hv : Ig 274878095360 v) (s : State) (ctx : ℕ) (c : Context) (cva : ℕ) (len : ℕ) :
    ∀ t', (State.unmapRange s ctx c cva len) = some t' → v t' = v s := by
  intro t ht
  unfold State.unmapRange at ht
  dsimp only at ht
  rw [Option.map_eq_some_iff] at ht
  obtain ⟨s', hs, rfl⟩ := ht
  rw [foldl_keep (v := v), keep_uncache (hv.sub rfl)]
  · exact keep_clearRange (hv.sub rfl) _ _ _ _ _ hs
  · intro s r
    split
    · rfl
    · exact keep_modRegion (hv.sub rfl) _ _ _
theorem keep_queueCmd {α : Type} {v : State → α} (hv : Ig 340100432560 v) (s : State) (m : ℕ) (q : ℕ) (query : Bool) (checks : Queue → List Check) (eff : Queue → State → State) (k_eff : ∀ z0 z1, v (eff z0 z1) = v z1) :
    ∀ t', (State.queueCmd s m q query checks eff) = .next t' → v t' = v s := by
  intro t ht
  unfold State.queueCmd settled at ht
  cases ht
  rw [keep_settle (hv.sub rfl)]
  split
  · exact keep_command (hv.sub rfl) _ _ _ _ _ (fun _ => rfl)
  · exact keep_command (hv.sub rfl) _ _ _ _ _ (fun z => k_eff _ z)
theorem keep_resetIf {α : Type} {v : State → α} (hv : Ig 524320 v) (s : State) (qid : ℕ) :
    v (State.resetIf s qid) = v s := by
  unfold State.resetIf; (repeat' split) <;> first | (simp [keep_respond (hv.sub rfl), keep_modQueue (hv.sub rfl), foldl_keep, foldl_keep2, foldl_keep22, foldl_keep1, apply_ite v]; done) | grind [keep_respond (hv.sub rfl), keep_modQueue (hv.sub rfl)]
theorem keep_updGroup {α : Type} {v : State → α} (hv : Ig 67108864 v) (s : State) (g : ℕ) (f : Group → Group) :
    v (State.updGroup s g f) = v s := by
  simp [State.updGroup, hv.pool rfl, foldl_keep, foldl_keep2, foldl_keep22, foldl_keep1, apply_ite v]; done
theorem keep_wheelSet {α : Type} {v : State → α} (hv : Ig 2147483648 v) (s : State) (qid : ℕ) :
    v (State.wheelSet s qid) = v s := by
  unfold State.wheelSet; (repeat' split) <;> first | (simp [hv.wheel rfl, foldl_keep, foldl_keep2, foldl_keep22, foldl_keep1, apply_ite v]; done) | grind [hv.wheel rfl]
theorem keep_wheelPart {α : Type} {v : State → α} (hv : Ig 2147483648 v) (s : State) (part : ℕ) :
    v (State.wheelPart s part) = v s := by
  simp [State.wheelPart, keep_wheelSet (hv.sub rfl), foldl_keep, foldl_keep2, foldl_keep22, foldl_keep1, apply_ite v]; done
theorem keep_takeArea {α : Type} {v : State → α} (hv : Ig 274878038016 v) (s : State) (use_ : ChunkUse) (x1 : ℕ) :
    ∀ t', (State.takeArea s use_ x1) = some t' → v t'.2 = v s := by
  induction x1 generalizing s with
  | zero => intro t ht; cases ht; rfl
  | succ k ih =>
    intro t ht
    unfold State.takeArea at ht
    split at ht
    · cases ht
    · rename_i h1
      rw [Option.map_eq_some_iff] at ht
      obtain ⟨r, hr, rfl⟩ := ht
      exact (ih _ _ hr).trans (keep_takeHot (hv.sub rfl) _ _ _ h1)
theorem keep_updEngine {α : Type} {v : State → α} (hv : Ig 134217728 v) (s : State) (e : ℕ) (f : Engine → Engine) :
    v (State.updEngine s e f) = v s := by
  simp [State.updEngine, hv.engines rfl, foldl_keep, foldl_keep2, foldl_keep22, foldl_keep1, apply_ite v]; done
theorem keep_abandon {α : Type} {v : State → α} (hv : Ig 8725200896 v) (s : State) (e : ℕ) :
    v (State.abandon s e) = v s := by
  unfold State.abandon; (repeat' split) <;> first | (simp [keep_updEngine (hv.sub rfl), keep_endDesc (hv.sub rfl), foldl_keep, foldl_keep2, foldl_keep22, foldl_keep1, apply_ite v]; done) | grind [keep_updEngine (hv.sub rfl), keep_endDesc (hv.sub rfl)]
theorem keep_modAgent {α : Type} {v : State → α} (hv : Ig 33554432 v) (s : State) (a : ℕ) (f : Agent → Agent) :
    v (State.modAgent s a f) = v s := by
  simp [State.modAgent, keep_updCoh (hv.sub rfl), foldl_keep, foldl_keep2, foldl_keep22, foldl_keep1, apply_ite v]; done
theorem keep_answerFor {α : Type} {v : State → α} (hv : Ig 305052811936 v) (s : State) (agent : ℕ) :
    v (State.answerFor s agent) = v s := by
  unfold State.answerFor; repeat' first | rfl | (simp [keep_closeOwn (hv.sub rfl), keep_advance (hv.sub rfl), keep_modTxn (hv.sub rfl), foldl_keep, foldl_keep2, foldl_keep22, foldl_keep1, apply_ite v]; done) | grind [keep_closeOwn (hv.sub rfl), keep_advance (hv.sub rfl), keep_modTxn (hv.sub rfl)] | rw [foldl_keep (v := v)] | rw [foldl_keep2 (v := v)] | rw [foldl_keep1 (v := v)] | rw [foldl_keep22 (v := v)] | refine getD_keep (v := v) ?_ ?_ | split | dsimp only | intro _
theorem keep_expireLease {α : Type} {v : State → α} (hv : Ig 305052811936 v) (s : State) (agent : ℕ) :
    v (State.expireLease s agent) = v s := by
  unfold State.expireLease; (repeat' split) <;> first | (simp [keep_modAgent (hv.sub rfl), keep_postFm (hv.sub rfl), keep_answerFor (hv.sub rfl), foldl_keep, foldl_keep2, foldl_keep22, foldl_keep1, apply_ite v]; done) | grind [keep_modAgent (hv.sub rfl), keep_postFm (hv.sub rfl), keep_answerFor (hv.sub rfl)]
theorem keep_updMirror {α : Type} {v : State → α} (hv : Ig 17179869184 v) (s : State) (f : Mirror → Mirror) :
    v (State.updMirror s f) = v s := by
  simp [State.updMirror, hv.mirror rfl, foldl_keep, foldl_keep2, foldl_keep22, foldl_keep1, apply_ite v]; done
theorem keep_dropForwards {α : Type} {v : State → α} (hv : Ig 305111760928 v) (s : State) :
    v (State.dropForwards s) = v s := by
  unfold State.dropForwards; repeat' first | rfl | (simp [keep_closeJoin (hv.sub rfl), keep_updCoh (hv.sub rfl), keep_endPub (hv.sub rfl), keep_finishIf (hv.sub rfl), keep_updMirror (hv.sub rfl), foldl_keep, foldl_keep2, foldl_keep22, foldl_keep1, apply_ite v]; done) | rw [foldl_keep (v := v)] | rw [foldl_keep2 (v := v)] | rw [foldl_keep1 (v := v)] | rw [foldl_keep22 (v := v)] | refine getD_keep (v := v) ?_ ?_ | split | dsimp only | intro _ | grind [keep_closeJoin (hv.sub rfl), keep_updCoh (hv.sub rfl), keep_endPub (hv.sub rfl), keep_finishIf (hv.sub rfl), keep_updMirror (hv.sub rfl)]
theorem keep_toSolo {α : Type} {v : State → α} (hv : Ig 17179869184 v) (s : State) (claim : ℕ) :
    v (State.toSolo s claim) = v s := by
  simp [State.toSolo, keep_updMirror (hv.sub rfl), foldl_keep, foldl_keep2, foldl_keep22, foldl_keep1, apply_ite v]; done
theorem keep_portCmd {α : Type} {v : State → α} (hv : Ig 340100432560 v) (s : State) (m : ℕ) (mask : ℕ) (query : Bool) (present : Bool) (need : ℕ) (checks : List Check) (eff : State → State) (k_eff : ∀ z0, v (eff z0) = v z0) :
    ∀ t', (State.portCmd s m mask query present need checks eff) = .next t' → v t' = v s := by
  intro t ht
  unfold State.portCmd settled at ht
  have e := Host.Outcome.next.inj ht
  rw [← e]
  exact (keep_settle (hv.sub rfl) _).trans (keep_command (hv.sub rfl) _ _ _ _ _ k_eff)
theorem keep_eachPort {α : Type} {v : State → α} (hv : Ig 32 v) (s : State) (m : ℕ) (mask : ℕ) (f : State → ℕ → State) (k_f : ∀ z0 z1, v (f z0 z1) = v z0) :
    v (State.eachPort s m mask f) = v s := by
  simp [State.eachPort, keep_respond (hv.sub rfl), k_f, foldl_keep, foldl_keep2, foldl_keep22, foldl_keep1, apply_ite v]; done
theorem keep_updBoot {α : Type} {v : State → α} (hv : Ig 8 v) (s : State) (f : Boot → Boot) :
    v (State.updBoot s f) = v s := by
  simp [State.updBoot, hv.boot rfl, foldl_keep, foldl_keep2, foldl_keep22, foldl_keep1, apply_ite v]; done
theorem keep_enterReady {α : Type} {v : State → α} (hv : Ig 8389256 v) (s : State) :
    v (State.enterReady s) = v s := by
  simp [State.enterReady, keep_updBoot (hv.sub rfl), keep_postFm (hv.sub rfl), keep_postParts (hv.sub rfl), foldl_keep, foldl_keep2, foldl_keep22, foldl_keep1, apply_ite v]; done
theorem keep_topoCheck {α : Type} {v : State → α} (hv : Ig 8389256 v) (s : State) :
    v (State.topoCheck s) = v s := by
  unfold State.topoCheck; (repeat' split) <;> first | (simp [keep_enterReady (hv.sub rfl), foldl_keep, foldl_keep2, foldl_keep22, foldl_keep1, apply_ite v]; done) | grind [keep_enterReady (hv.sub rfl)]
theorem keep_windowOver {α : Type} {v : State → α} (hv : Ig 4303356552 v) (s : State) (p : ℕ) :
    v (State.windowOver s p) = v s := by
  simp [State.windowOver, keep_updBoot (hv.sub rfl), keep_updPort (hv.sub rfl), keep_topoCheck (hv.sub rfl), foldl_keep, foldl_keep2, foldl_keep22, foldl_keep1, apply_ite v]; done
theorem keep_abortCopy {α : Type} {v : State → α} (hv : Ig 4294967296 v) (s : State) (q : ℕ) (pk : Packet) :
    v (State.abortCopy s q pk) = v s := by
  simp [State.abortCopy, keep_updLink (hv.sub rfl), foldl_keep, foldl_keep2, foldl_keep22, foldl_keep1, apply_ite v]; done
theorem keep_silence {α : Type} {v : State → α} (hv : Ig 4294967296 v) (s : State) (p : ℕ) :
    v (State.silence s p) = v s := by
  simp [State.silence, keep_abortCopy (hv.sub rfl), keep_updLink (hv.sub rfl), foldl_keep, foldl_keep2, foldl_keep22, foldl_keep1, apply_ite v]; done
theorem keep_dropOwn {α : Type} {v : State → α} (hv : Ig 8589934592 v) (s : State) (o : OwnMsg) :
    v (State.dropOwn s o) = v s := by
  unfold State.dropOwn; (repeat' split) <;> first | (simp [keep_closeOwn (hv.sub rfl), foldl_keep, foldl_keep2, foldl_keep22, foldl_keep1, apply_ite v]; done) | grind [keep_closeOwn (hv.sub rfl)]
theorem keep_resnoop {α : Type} {v : State → α} (hv : Ig 33554432 v) (s : State) (o : OwnMsg) :
    v (State.resnoop s o) = v s := by
  unfold State.resnoop; (repeat' split) <;> first | (simp [keep_modTxn (hv.sub rfl), foldl_keep, foldl_keep2, foldl_keep22, foldl_keep1, apply_ite v]; done) | grind [keep_modTxn (hv.sub rfl)]
theorem keep_failOwn {α : Type} {v : State → α} (hv : Ig 8758755328 v) (s : State) (o : OwnMsg) (st : Status) :
    v (State.failOwn s o st) = v s := by
  unfold State.failOwn; (repeat' split) <;> first | (simp [keep_endDesc (hv.sub rfl), keep_dropOwn (hv.sub rfl), keep_resnoop (hv.sub rfl), foldl_keep, foldl_keep2, foldl_keep22, foldl_keep1, apply_ite v]; done) | grind [keep_endDesc (hv.sub rfl), keep_dropOwn (hv.sub rfl), keep_resnoop (hv.sub rfl)]

end Sys2Proof.Laws
end

