-- ==== Sys2Proof/Laws/KeepC.lean ====
section
/-! SUPPORT. What each operation of the block leaves alone, part 3 of 4: a view that ignores the fields an operation may change
is the same after it. -/

namespace Sys2Proof.Laws
open Sys2Proof.Machine

set_option linter.all false
set_option Elab.async false

theorem keep_loseLink {α : Type} {v : State → α} (hv : Ig 287931629568 v) (s : State) (p : ℕ) :
    v (State.loseLink s p) = v s := by
  simp [State.loseLink, keep_updLink (hv.sub rfl), keep_silence (hv.sub rfl), keep_updPort (hv.sub rfl), keep_updNet (hv.sub rfl), keep_failOwn (hv.sub rfl), keep_refuse (hv.sub rfl), foldl_keep, foldl_keep2, foldl_keep22, foldl_keep1, apply_ite v]; done
theorem keep_startTraining {α : Type} {v : State → α} (hv : Ig 4294967296 v) (s : State) (p : ℕ) :
    v (State.startTraining s p) = v s := by
  simp [State.startTraining, keep_updPort (hv.sub rfl), keep_silence (hv.sub rfl), foldl_keep, foldl_keep2, foldl_keep22, foldl_keep1, apply_ite v]; done
theorem keep_admitPort {α : Type} {v : State → α} (hv : Ig 4294967296 v) (s : State) (p : ℕ) :
    v (State.admitPort s p) = v s := by
  simp [State.admitPort, keep_updPort (hv.sub rfl), foldl_keep, foldl_keep2, foldl_keep22, foldl_keep1, apply_ite v]; done
theorem keep_undegrade {α : Type} {v : State → α} (hv : Ig 32768 v) (s : State) (u : ℕ) :
    v (State.undegrade s u) = v s := by
  simp [State.undegrade, keep_modRegion (hv.sub rfl), foldl_keep, foldl_keep2, foldl_keep22, foldl_keep1, apply_ite v]; done
theorem keep_writeBackUnit {α : Type} {v : State → α} (hv : Ig 110133920 v) (s : State) (u : ℕ) :
    v (State.writeBackUnit s u) = v s := by
  simp [State.writeBackUnit, keep_writeBackLine (hv.sub rfl), keep_updPool (hv.sub rfl), foldl_keep, foldl_keep2, foldl_keep22, foldl_keep1, apply_ite v]; done
theorem keep_poisonSlice {α : Type} {v : State → α} (hv : Ig 67108864 v) (s : State) (u : ℕ) :
    v (State.poisonSlice s u) = v s := by
  simp [State.poisonSlice, keep_updPool (hv.sub rfl), keep_updUnit (hv.sub rfl), keep_setMeta (hv.sub rfl), keep_log (hv.sub rfl), foldl_keep, foldl_keep2, foldl_keep22, foldl_keep1, apply_ite v]; done
theorem keep_copySlice {α : Type} {v : State → α} (hv : Ig 67108864 v) (s : State) (u : ℕ) (go : Bool) :
    v (State.copySlice s u go).2 = v s := by
  unfold State.copySlice; repeat' first | rfl | (simp [keep_updPool (hv.sub rfl), keep_log (hv.sub rfl), keep_setMeta (hv.sub rfl), keep_corrected (hv.sub rfl), foldl_keep, foldl_keep2, foldl_keep22, foldl_keep1, apply_ite v]; done) | grind [keep_updPool (hv.sub rfl), keep_log (hv.sub rfl), keep_setMeta (hv.sub rfl), keep_corrected (hv.sub rfl)] | rw [foldl_keep (v := v)] | rw [foldl_keep2 (v := v)] | rw [foldl_keep1 (v := v)] | rw [foldl_keep22 (v := v)] | refine getD_keep (v := v) ?_ ?_ | split | dsimp only | intro _
theorem keep_pointAt {α : Type} {v : State → α} (hv : Ig 75530368 v) (s : State) (u : ℕ) (k : ℕ) :
    v (State.pointAt s u k) = v s := by
  simp [State.pointAt, keep_updUnit (hv.sub rfl), keep_outside (hv.sub rfl), keep_undegrade (hv.sub rfl), foldl_keep, foldl_keep2, foldl_keep22, foldl_keep1, apply_ite v]; done
theorem keep_dropAbsent {α : Type} {v : State → α} (hv : Ig 101711872 v) (s : State) (u : ℕ) :
    v (State.dropAbsent s u) = v s := by
  simp [State.dropAbsent, keep_answerDenied (hv.sub rfl), keep_updUnit (hv.sub rfl), foldl_keep, foldl_keep2, foldl_keep22, foldl_keep1, apply_ite v]; done
theorem keep_markUnit {α : Type} {v : State → α} (hv : Ig 110133408 v) (s : State) (u : ℕ) (sid : Option ℕ) :
    v (State.markUnit s u sid) = v s := by
  unfold State.markUnit; (repeat' split) <;> first | (simp [keep_dropAbsent (hv.sub rfl), keep_updUnit (hv.sub rfl), keep_respondQ (hv.sub rfl), keep_updPool (hv.sub rfl), keep_outside (hv.sub rfl), keep_log (hv.sub rfl), keep_degrade (hv.sub rfl), foldl_keep, foldl_keep2, foldl_keep22, foldl_keep1, apply_ite v]; done) | grind [keep_dropAbsent (hv.sub rfl), keep_updUnit (hv.sub rfl), keep_respondQ (hv.sub rfl), keep_updPool (hv.sub rfl), keep_outside (hv.sub rfl), keep_log (hv.sub rfl), keep_degrade (hv.sub rfl)]
theorem keep_copySector {α : Type} {v : State → α} (hv : Ig 110133920 v) (s : State) (src : ℕ) (dst : ℕ) (a : Acc) :
    v (State.copySector s src dst a) = v s := by
  simp [State.copySector, keep_readBytes (hv.sub rfl), keep_writeBytes (hv.sub rfl), foldl_keep, foldl_keep2, foldl_keep22, foldl_keep1, apply_ite v]; done
theorem keep_copyPage {α : Type} {v : State → α} (hv : Ig 110133920 v) (s : State) (old : ℕ) (new : ℕ) :
    v (State.copyPage s old new) = v s := by
  simp [State.copyPage, keep_copySector (hv.sub rfl), foldl_keep, foldl_keep2, foldl_keep22, foldl_keep1, apply_ite v]; done
theorem keep_rechunk {α : Type} {v : State → α} (hv : Ig 268641280 v) (s : State) (old : ℕ) (new : ℕ) :
    v (State.rechunk s old new) = v s := by
  exact hv.ext s _ (by (repeat' apply And.intro) <;> first | exact .inl rfl | exact .inr rfl)
theorem keep_resetLogic {α : Type} {v : State → α} (hv : Ig 274531647672 v) (s : State) :
    v (State.resetLogic s) = v s := by
  exact hv.ext s _ (by (repeat' apply And.intro) <;> first | exact .inl rfl | exact .inr rfl)
theorem keep_savePool {α : Type} {v : State → α} (hv : Ig 67239936 v) (s : State) :
    v (State.savePool s) = v s := by
  simp [State.savePool, keep_zeroLater (hv.sub rfl), keep_updPool (hv.sub rfl), foldl_keep, foldl_keep2, foldl_keep22, foldl_keep1, apply_ite v]; done
theorem keep_saveCtxs {α : Type} {v : State → α} (hv : Ig 23554 v) (s : State) :
    v (State.saveCtxs s) = v s := by
  unfold State.saveCtxs
  dsimp only
  generalize hs : List.foldl _ s _ = s1
  refine (hv.ext s1 _ (by (repeat' apply And.intro) <;> first | exact .inl rfl | exact .inr rfl)).trans ?_
  rw [← hs, foldl_keep (v := v)]
  intro s n
  exact keep_advanceGen (hv.sub rfl) _ _
theorem keep_dropColls {α : Type} {v : State → α} (hv : Ig 268566528 v) (s : State) :
    v (State.dropColls s) = v s := by
  simp [State.dropColls, keep_zeroLater (hv.sub rfl), hv.colls rfl, foldl_keep, foldl_keep2, foldl_keep22, foldl_keep1, apply_ite v]; done
theorem keep_queuesDrain {α : Type} {v : State → α} (hv : Ig 110133920 v) (s : State) :
    v (State.queuesDrain s) = v s := by
  simp [State.queuesDrain, keep_drainUnit (hv.sub rfl), foldl_keep, foldl_keep2, foldl_keep22, foldl_keep1, apply_ite v]; done
theorem keep_tierDrain {α : Type} {v : State → α} (hv : Ig 110133920 v) (s : State) :
    v (State.tierDrain s) = v s := by
  simp [State.tierDrain, keep_writeBackLine (hv.sub rfl), keep_updPool (hv.sub rfl), foldl_keep, foldl_keep2, foldl_keep22, foldl_keep1, apply_ite v]; done
theorem keep_walkDir {α : Type} {v : State → α} (hv : Ig 110133920 v) (s : State) :
    v (State.walkDir s) = v s := by
  simp [State.walkDir, keep_writeLost (hv.sub rfl), keep_queuesDrain (hv.sub rfl), keep_tierDrain (hv.sub rfl), keep_updCoh (hv.sub rfl), foldl_keep, foldl_keep2, foldl_keep22, foldl_keep1, apply_ite v]; done
theorem keep_kettleDrain {α : Type} {v : State → α} (hv : Ig 110133920 v) (s : State) :
    v (State.kettleDrain s) = v s := by
  simp [State.kettleDrain, keep_kettleForce (hv.sub rfl), foldl_keep, foldl_keep2, foldl_keep22, foldl_keep1, apply_ite v]; done
theorem keep_atomDrain {α : Type} {v : State → α} (hv : Ig 110133920 v) (s : State) :
    v (State.atomDrain s) = v s := by
  simp [State.atomDrain, keep_atomDrop (hv.sub rfl), foldl_keep, foldl_keep2, foldl_keep22, foldl_keep1, apply_ite v]; done
theorem keep_flushAll {α : Type} {v : State → α} (hv : Ig 110133920 v) (s : State) :
    v (State.flushAll s) = v s := by
  simp [State.flushAll, keep_queuesDrain (hv.sub rfl), keep_tierDrain (hv.sub rfl), keep_kettleDrain (hv.sub rfl), keep_atomDrain (hv.sub rfl), foldl_keep, foldl_keep2, foldl_keep22, foldl_keep1, apply_ite v]; done
theorem keep_warmReset {α : Type} {v : State → α} (hv : Ig 274875801274 v) (s : State) :
    v (State.warmReset s) = v s := by
  simp [State.warmReset, keep_sweepExts (hv.sub rfl), keep_resetLogic (hv.sub rfl), keep_savePool (hv.sub rfl), keep_saveCtxs (hv.sub rfl), keep_dropColls (hv.sub rfl), keep_walkDir (hv.sub rfl), keep_flushAll (hv.sub rfl), foldl_keep, foldl_keep2, foldl_keep22, foldl_keep1, apply_ite v]; done
theorem keep_setAbsent {α : Type} {v : State → α} (hv : Ig 4496293896 v) (s : State) (r : UnitRef) :
    v (State.setAbsent s r) = v s := by
  unfold State.setAbsent; (repeat' split) <;> first | (simp [keep_updUnit (hv.sub rfl), keep_updEngine (hv.sub rfl), keep_updPort (hv.sub rfl), keep_updBoot (hv.sub rfl), foldl_keep, foldl_keep2, foldl_keep22, foldl_keep1, apply_ite v]; done) | grind [keep_updUnit (hv.sub rfl), keep_updEngine (hv.sub rfl), keep_updPort (hv.sub rfl), keep_updBoot (hv.sub rfl)]
theorem keep_coldPool {α : Type} {v : State → α} (hv : Ig 4496293896 v) (s : State) :
    v (State.coldPool s) = v s := by
  simp [State.coldPool, keep_updPool (hv.sub rfl), keep_updUnit (hv.sub rfl), keep_setAbsent (hv.sub rfl), foldl_keep, foldl_keep2, foldl_keep22, foldl_keep1, apply_ite v]; done
theorem keep_updPower {α : Type} {v : State → α} (hv : Ig 137438953472 v) (s : State) (f : Power → Power) :
    v (State.updPower s f) = v s := by
  simp [State.updPower, hv.power rfl, foldl_keep, foldl_keep2, foldl_keep22, foldl_keep1, apply_ite v]; done
theorem keep_partnerChanged {α : Type} {v : State → α} (hv : Ig 8389120 v) (s : State) (p : ℕ) (held : ℕ) (new : ℕ) :
    v (State.partnerChanged s p held new) = v s := by
  simp [State.partnerChanged, keep_postFm (hv.sub rfl), foldl_keep, foldl_keep2, foldl_keep22, foldl_keep1, apply_ite v]; done
theorem keep_rematch {α : Type} {v : State → α} (hv : Ig 4303356416 v) (s : State) (t : TopoExpect) :
    v (State.rematch s t) = v s := by
  simp [State.rematch, keep_updPort (hv.sub rfl), keep_admitPort (hv.sub rfl), keep_partnerChanged (hv.sub rfl), foldl_keep, foldl_keep2, foldl_keep22, foldl_keep1, apply_ite v]; done
theorem keep_enterTopo {α : Type} {v : State → α} (hv : Ig 4303356552 v) (s : State) :
    v (State.enterTopo s) = v s := by
  unfold State.enterTopo; (repeat' split) <;> first | (simp [keep_updBoot (hv.sub rfl), keep_topoCheck (hv.sub rfl), keep_rematch (hv.sub rfl), foldl_keep, foldl_keep2, foldl_keep22, foldl_keep1, apply_ite v]; done) | grind [keep_updBoot (hv.sub rfl), keep_topoCheck (hv.sub rfl), keep_rematch (hv.sub rfl)]
theorem keep_imageRead {α : Type} {v : State → α} (hv : Ig 305052811936 v) (s : State) (x : Serve) (off : ℕ) (n : ℕ) :
    v (State.imageRead s x off n).2.2.2 = v s := by
  unfold State.imageRead; repeat' first | rfl | (simp [keep_recallAll (hv.sub rfl), keep_readBytes (hv.sub rfl), foldl_keep, foldl_keep2, foldl_keep22, foldl_keep1, apply_ite v]; done) | rw [foldl_keep (v := v)] | rw [foldl_keep2 (v := v)] | rw [foldl_keep1 (v := v)] | rw [foldl_keep22 (v := v)] | refine getD_keep (v := v) ?_ ?_ | split | dsimp only | intro _ | grind [keep_recallAll (hv.sub rfl), keep_readBytes (hv.sub rfl)]
theorem keep_updServe {α : Type} {v : State → α} (hv : Ig 34359738368 v) (s : State) (sid : ℕ) (f : Serve → Serve) :
    v (State.updServe s sid f) = v s := by
  simp [State.updServe, hv.fw rfl, foldl_keep, foldl_keep2, foldl_keep22, foldl_keep1, apply_ite v]; done
theorem keep_crcEntries {α : Type} {v : State → α} (hv : Ig 305052811936 v) (s : State) (x : Serve) (o : ℕ) (n : ℕ) :
    v (State.crcEntries s x o n).2.2 = v s := by
  unfold State.crcEntries; repeat' first | rfl | (simp [keep_imageRead (hv.sub rfl), foldl_keep, foldl_keep2, foldl_keep22, foldl_keep1, apply_ite v]; done) | grind [keep_imageRead (hv.sub rfl)] | rw [foldl_keep (v := v)] | rw [foldl_keep2 (v := v)] | rw [foldl_keep1 (v := v)] | rw [foldl_keep22 (v := v)] | refine getD_keep (v := v) ?_ ?_ | split | dsimp only | intro _
theorem keep_serveBytes {α : Type} {v : State → α} (hv : Ig 339412550304 v) (s : State) (sid : ℕ) (x : Serve) :
    v (State.serveBytes s sid x).2.2.2 = v s := by
  unfold State.serveBytes; (repeat' split) <;> first | (simp [keep_imageRead (hv.sub rfl), keep_updServe (hv.sub rfl), keep_crcEntries (hv.sub rfl), foldl_keep, foldl_keep2, foldl_keep22, foldl_keep1, apply_ite v]; done) | grind [keep_imageRead (hv.sub rfl), keep_updServe (hv.sub rfl), keep_crcEntries (hv.sub rfl)]
theorem keep_flockWrites {α : Type} {v : State → α} (hv : Ig 8589934592 v) (s : State) (flock : ℕ) (tc : ℕ) (tag : ℕ) (addr : ℕ) (bs : List (Byte × Bool)) :
    v (State.flockWrites s flock tc tag addr bs).2 = v s := by
  simp [State.flockWrites, keep_newTag (hv.sub rfl), foldl_keep, foldl_keep2, foldl_keep22, foldl_keep1, apply_ite v]; done
theorem keep_roundEnd {α : Type} {v : State → α} (hv : Ig 339429343904 v) (s : State) (sid : ℕ) :
    v (State.roundEnd s sid) = v s := by
  unfold State.roundEnd; (repeat' split) <;> first | (simp [keep_multicast (hv.sub rfl), keep_updServe (hv.sub rfl), foldl_keep, foldl_keep2, foldl_keep22, foldl_keep1, apply_ite v]; done) | grind [keep_multicast (hv.sub rfl), keep_updServe (hv.sub rfl)]
theorem keep_rouse {α : Type} {v : State → α} (hv : Ig 137438953472 v) (s : State) :
    v (State.rouse s) = v s := by
  simp [State.rouse, hv.power rfl, foldl_keep, foldl_keep2, foldl_keep22, foldl_keep1, apply_ite v]; done
theorem keep_waitOver {α : Type} {v : State → α} (hv : Ig 8623489024 v) (s : State) (p : ℕ) (h : Hdr) :
    v (State.waitOver s p h) = v s := by
  unfold State.waitOver; exact hv.ext s _ (by (repeat' apply And.intro) <;> first | exact .inl rfl | exact .inr rfl)
theorem keep_freeUnits {α : Type} {v : State → α} (hv : Ig 4294967296 v) (s : State) (p : ℕ) (vc : ℕ) (n : ℕ) :
    v (State.freeUnits s p vc n) = v s := by
  simp [State.freeUnits, keep_updLink (hv.sub rfl), foldl_keep, foldl_keep2, foldl_keep22, foldl_keep1, apply_ite v]; done
theorem keep_consume {α : Type} {v : State → α} (hv : Ig 12918456320 v) (s : State) (p : ℕ) (h : Hdr) :
    v (State.consume s p h) = v s := by
  simp [State.consume, keep_waitOver (hv.sub rfl), keep_updNet (hv.sub rfl), keep_freeUnits (hv.sub rfl), keep_updLink (hv.sub rfl), foldl_keep, foldl_keep2, foldl_keep22, foldl_keep1, apply_ite v]; done
theorem keep_refuseBad {α : Type} {v : State → α} (hv : Ig 287762808832 v) (s : State) (p : ℕ) (h : Hdr) (claim : Option ℕ) :
    v (State.refuseBad s p h claim) = v s := by
  simp [State.refuseBad, keep_cmp (hv.sub rfl), foldl_keep, foldl_keep2, foldl_keep22, foldl_keep1, apply_ite v]; done
theorem keep_stall {α : Type} {v : State → α} (hv : Ig 33554432 v) (s : State) (hub : ℕ) (cmd : Instr) :
    v (State.stall s hub cmd) = v s := by
  simp [State.stall, keep_updCoh (hv.sub rfl), foldl_keep, foldl_keep2, foldl_keep22, foldl_keep1, apply_ite v]; done
theorem keep_answerReg {α : Type} {v : State → α} (hv : Ig 287762808832 v) (s : State) (p : ℕ) (h : Hdr) (st : Status) (v0 : ℕ) :
    v (State.answerReg s p h st v0) = v s := by
  simp [State.answerReg, keep_reply (hv.sub rfl), keep_cmp (hv.sub rfl), foldl_keep, foldl_keep2, foldl_keep22, foldl_keep1, apply_ite v]; done
theorem keep_mbGate {α : Type} {v : State → α} (hv : Ig 287796363264 v) (s : State) (p : ℕ) (h : Hdr) (m : ℕ) (cmd : Instr) (k : State → State) (k_k : ∀ z0, v (k z0) = v z0) :
    v (State.mbGate s p h m cmd k) = v s := by
  simp [State.mbGate, keep_consume (hv.sub rfl), keep_refuseBad (hv.sub rfl), keep_updNet (hv.sub rfl), keep_stall (hv.sub rfl), keep_refuse (hv.sub rfl), keep_answerReg (hv.sub rfl), k_k, foldl_keep, foldl_keep2, foldl_keep22, foldl_keep1, apply_ite v]; done
theorem keep_mbAccess {α : Type} {v : State → α} (hv : Ig 425235316752 v) (s : State) (src : Src) (m : ℕ) (cmd : Instr) (f : State → ℕ × State) (k_f : ∀ z0, v (f z0).2 = v z0) :
    v (State.mbAccess s src m cmd f) = v s := by
  unfold State.mbAccess
  split
  · extract_lets s1
    have k1 : v s1 = v s := keep_rouse (hv.sub rfl) _
    clear_value s1
    split
    · split
      rename_i x s2 h2
      have k2 : v s2 = v s1 := by
        have := k_f s1
        rw [h2] at this; exact this
      exact (hv.pins rfl s2 _).trans (k2.trans k1)
    · exact (hv.pins rfl s1 _).trans k1
  · rename_i p h
    refine keep_mbGate (hv.sub rfl) _ _ _ _ _ _ ?_
    intro s
    split
    rename_i x s2 h2
    have k2 : v s2 = v s := by
      have := k_f (s.consume p h)
      rw [h2] at this; exact this.trans (keep_consume (hv.sub rfl) _ _ _)
    exact (keep_answerReg (hv.sub rfl) _ _ _ _ _).trans ((hv.pins rfl s2 _).trans k2)
theorem keep_lockRead {α : Type} {v : State → α} (hv : Ig 274877906976 v) (s : State) (src : Src) (m : ℕ) :
    v (State.lockRead s src m).2 = v s := by
  unfold State.lockRead; (repeat' split) <;> first | (simp [keep_updMb (hv.sub rfl), keep_draw (hv.sub rfl), foldl_keep, foldl_keep2, foldl_keep22, foldl_keep1, apply_ite v]; done) | grind [keep_updMb (hv.sub rfl), keep_draw (hv.sub rfl)]
theorem keep_execMbLockRead {α : Type} {v : State → α} (hv : Ig 477539386032 v) (src : Src) (mbx : ℕ) (s : State) :
    ∀ t', (execMbLockRead src mbx s) = .next t' → v t' = v s := by
  intro t ht; unfold execMbLockRead settled at ht; rw [← Host.Outcome.next.inj ht, keep_settle (hv.sub rfl)]; repeat' first | rfl | (simp [keep_mbAccess (hv.sub rfl), keep_lockRead (hv.sub rfl), foldl_keep, foldl_keep2, foldl_keep22, foldl_keep1, apply_ite v]; done) | rw [foldl_keep (v := v)] | rw [foldl_keep2 (v := v)] | rw [foldl_keep1 (v := v)] | rw [foldl_keep22 (v := v)] | refine getD_keep (v := v) ?_ ?_ | refine Eq.trans (keep_mbAccess (hv.sub rfl) _ _ _ _ _ ?_) ?_ | split | dsimp only | intro _ | grind [keep_mbAccess (hv.sub rfl), keep_lockRead (hv.sub rfl)]
theorem keep_mbFree {α : Type} {v : State → α} (hv : Ig 32 v) (s : State) (m : ℕ) :
    v (State.mbFree s m) = v s := by
  simp [State.mbFree, keep_updMb (hv.sub rfl), foldl_keep, foldl_keep2, foldl_keep22, foldl_keep1, apply_ite v]; done
theorem keep_mbReject {α : Type} {v : State → α} (hv : Ig 32 v) (s : State) (m : ℕ) :
    v (State.mbReject s m) = v s := by
  simp [State.mbReject, keep_updMb (hv.sub rfl), foldl_keep, foldl_keep2, foldl_keep22, foldl_keep1, apply_ite v]; done
theorem keep_lockWrite {α : Type} {v : State → α} (hv : Ig 32 v) (s : State) (src : Src) (m : ℕ) (val : ℕ) :
    v (State.lockWrite s src m val) = v s := by
  simp [State.lockWrite, keep_mbFree (hv.sub rfl), keep_mbReject (hv.sub rfl), foldl_keep, foldl_keep2, foldl_keep22, foldl_keep1, apply_ite v]; done
theorem keep_execMbLockWrite {α : Type} {v : State → α} (hv : Ig 477539386032 v) (src : Src) (mbx : ℕ) (val : ℕ) (s : State) :
    ∀ t', (execMbLockWrite src mbx val s) = .next t' → v t' = v s := by
  intro t ht; unfold execMbLockWrite settled at ht; rw [← Host.Outcome.next.inj ht, keep_settle (hv.sub rfl)]; repeat' first | rfl | (simp [keep_mbAccess (hv.sub rfl), keep_lockWrite (hv.sub rfl), foldl_keep, foldl_keep2, foldl_keep22, foldl_keep1, apply_ite v]; done) | rw [foldl_keep (v := v)] | rw [foldl_keep2 (v := v)] | rw [foldl_keep1 (v := v)] | rw [foldl_keep22 (v := v)] | refine getD_keep (v := v) ?_ ?_ | refine Eq.trans (keep_mbAccess (hv.sub rfl) _ _ _ _ _ ?_) ?_ | split | dsimp only | intro _ | grind [keep_mbAccess (hv.sub rfl), keep_lockWrite (hv.sub rfl)]
theorem keep_mbSubmit {α : Type} {v : State → α} (hv : Ig 96 v) (s : State) (src : Src) (m : ℕ) (val : ℕ) :
    v (State.mbSubmit s src m val) = v s := by
  simp [State.mbSubmit, keep_updMb (hv.sub rfl), keep_mbReject (hv.sub rfl), hv.mbOrder rfl, foldl_keep, foldl_keep2, foldl_keep22, foldl_keep1, apply_ite v]; done
theorem keep_execMbDoorbellWrite {α : Type} {v : State → α} (hv : Ig 477539386096 v) (src : Src) (mbx : ℕ) (val : ℕ) (s : State) :
    ∀ t', (execMbDoorbellWrite src mbx val s) = .next t' → v t' = v s := by
  intro t ht; unfold execMbDoorbellWrite settled at ht; rw [← Host.Outcome.next.inj ht, keep_settle (hv.sub rfl)]; repeat' first | rfl | (simp [keep_mbAccess (hv.sub rfl), keep_mbSubmit (hv.sub rfl), foldl_keep, foldl_keep2, foldl_keep22, foldl_keep1, apply_ite v]; done) | rw [foldl_keep (v := v)] | rw [foldl_keep2 (v := v)] | rw [foldl_keep1 (v := v)] | rw [foldl_keep22 (v := v)] | refine getD_keep (v := v) ?_ ?_ | refine Eq.trans (keep_mbAccess (hv.sub rfl) _ _ _ _ _ ?_) ?_ | split | dsimp only | intro _ | grind [keep_mbAccess (hv.sub rfl), keep_mbSubmit (hv.sub rfl)]
theorem keep_requestWrite {α : Type} {v : State → α} (hv : Ig 32 v) (s : State) (src : Src) (m : ℕ) (off : ℕ) (data : List Byte) :
    v (State.requestWrite s src m off data) = v s := by
  simp [State.requestWrite, keep_updMb (hv.sub rfl), keep_mbReject (hv.sub rfl), foldl_keep, foldl_keep2, foldl_keep22, foldl_keep1, apply_ite v]; done
theorem keep_msgTake {α : Type} {v : State → α} (hv : Ig 8589934592 v) (s : State) (p : ℕ) (h : Hdr) (n : ℕ) (cmd : Instr) :
    v (State.msgTake s p h n cmd).2 = v s := by
  unfold State.msgTake; (repeat' split) <;> first | (simp [keep_modMsg (hv.sub rfl), keep_updNet (hv.sub rfl), foldl_keep, foldl_keep2, foldl_keep22, foldl_keep1, apply_ite v]; done) | grind [keep_modMsg (hv.sub rfl), keep_updNet (hv.sub rfl)]
theorem keep_mbRequest {α : Type} {v : State → α} (hv : Ig 425235316784 v) (s : State) (src : Src) (m : ℕ) (off : ℕ) (data : List Byte) :
    v (State.mbRequest s src m off data) = v s := by
  unfold State.mbRequest; repeat' first | rfl | (simp [keep_mbAccess (hv.sub rfl), keep_requestWrite (hv.sub rfl), keep_mbGate (hv.sub rfl), keep_answerReg (hv.sub rfl), keep_consume (hv.sub rfl), keep_msgTake (hv.sub rfl), keep_msgDone (hv.sub rfl), foldl_keep, foldl_keep2, foldl_keep22, foldl_keep1, apply_ite v]; done) | rw [foldl_keep (v := v)] | rw [foldl_keep2 (v := v)] | rw [foldl_keep1 (v := v)] | rw [foldl_keep22 (v := v)] | refine getD_keep (v := v) ?_ ?_ | refine Eq.trans (keep_mbAccess (hv.sub rfl) _ _ _ _ _ ?_) ?_ | refine Eq.trans (keep_mbGate (hv.sub rfl) _ _ _ _ _ _ ?_) ?_ | split | dsimp only | intro _ | grind [keep_mbAccess (hv.sub rfl), keep_requestWrite (hv.sub rfl), keep_mbGate (hv.sub rfl), keep_answerReg (hv.sub rfl), keep_consume (hv.sub rfl), keep_msgTake (hv.sub rfl), keep_msgDone (hv.sub rfl)]
theorem keep_execMbRequestWrite {α : Type} {v : State → α} (hv : Ig 477539386032 v) (src : Src) (mbx : ℕ) (off : ℕ) (data : List Byte) (s : State) :
    ∀ t', (execMbRequestWrite src mbx off data s) = .next t' → v t' = v s := by
  intro t ht; unfold execMbRequestWrite settled at ht; rw [← Host.Outcome.next.inj ht, keep_settle (hv.sub rfl)]; repeat' first | rfl | (simp [keep_mbRequest (hv.sub rfl), foldl_keep, foldl_keep2, foldl_keep22, foldl_keep1, apply_ite v]; done) | rw [foldl_keep (v := v)] | rw [foldl_keep2 (v := v)] | rw [foldl_keep1 (v := v)] | rw [foldl_keep22 (v := v)] | refine getD_keep (v := v) ?_ ?_ | split | dsimp only | intro _ | grind [keep_mbRequest (hv.sub rfl)]
theorem keep_execMbRejectsRead {α : Type} {v : State → α} (hv : Ig 477539386032 v) (src : Src) (mbx : ℕ) (s : State) :
    ∀ t', (execMbRejectsRead src mbx s) = .next t' → v t' = v s := by
  intro t ht; unfold execMbRejectsRead settled at ht; rw [← Host.Outcome.next.inj ht, keep_settle (hv.sub rfl)]; repeat' first | rfl | (simp [keep_mbAccess (hv.sub rfl), keep_updMb (hv.sub rfl), foldl_keep, foldl_keep2, foldl_keep22, foldl_keep1, apply_ite v]; done) | rw [foldl_keep (v := v)] | rw [foldl_keep2 (v := v)] | rw [foldl_keep1 (v := v)] | rw [foldl_keep22 (v := v)] | refine getD_keep (v := v) ?_ ?_ | refine Eq.trans (keep_mbAccess (hv.sub rfl) _ _ _ _ _ ?_) ?_ | split | dsimp only | intro _ | grind [keep_mbAccess (hv.sub rfl), keep_updMb (hv.sub rfl)]
theorem keep_endCommand {α : Type} {v : State → α} (hv : Ig 34359738416 v) (s : State) (m : ℕ) :
    v (State.endCommand s m) = v s := by
  unfold State.endCommand; (repeat' split) <;> first | (simp [keep_updMb (hv.sub rfl), keep_mbFree (hv.sub rfl), keep_sealOut (hv.sub rfl), hv.fw rfl, hv.pins rfl, foldl_keep, foldl_keep2, foldl_keep22, foldl_keep1, apply_ite v]; done) | grind [keep_updMb (hv.sub rfl), keep_mbFree (hv.sub rfl), keep_sealOut (hv.sub rfl), hv.fw rfl, hv.pins rfl]
theorem keep_queueError {α : Type} {v : State → α} (hv : Ig 8912896 v) (s : State) (qid : ℕ) (cause : ℕ) :
    v (State.queueError s qid cause) = v s := by
  unfold State.queueError; (repeat' split) <;> first | (simp [keep_postEq (hv.sub rfl), keep_modQueue (hv.sub rfl), foldl_keep, foldl_keep2, foldl_keep22, foldl_keep1, apply_ite v]; done) | grind [keep_postEq (hv.sub rfl), keep_modQueue (hv.sub rfl)]
theorem keep_doorbell {α : Type} {v : State → α} (hv : Ig 8912896 v) (s : State) (qid : ℕ) (val : ℕ) :
    v (State.doorbell s qid val) = v s := by
  unfold State.doorbell; (repeat' split) <;> first | (simp [keep_modQueue (hv.sub rfl), keep_queueError (hv.sub rfl), foldl_keep, foldl_keep2, foldl_keep22, foldl_keep1, apply_ite v]; done) | grind [keep_modQueue (hv.sub rfl), keep_queueError (hv.sub rfl)]
theorem keep_arrive {α : Type} {v : State → α} (hv : Ig 287796363264 v) (s : State) (p : ℕ) (h : Hdr) (k : State → State) (k_k : ∀ z0, v (k z0) = v z0) :
    v (State.arrive s p h k) = v s := by
  simp [State.arrive, keep_consume (hv.sub rfl), keep_refuseBad (hv.sub rfl), keep_updNet (hv.sub rfl), k_k, foldl_keep, foldl_keep2, foldl_keep22, foldl_keep1, apply_ite v]; done
theorem keep_arriveReg {α : Type} {v : State → α} (hv : Ig 287796363264 v) (s : State) (p : ℕ) (h : Hdr) (ep : ℕ) (cmd : Instr) (k : State → State) (k_k : ∀ z0, v (k z0) = v z0) :
    v (State.arriveReg s p h ep cmd k) = v s := by
  simp [State.arriveReg, keep_arrive (hv.sub rfl), keep_stall (hv.sub rfl), keep_consume (hv.sub rfl), keep_refuse (hv.sub rfl), k_k, foldl_keep, foldl_keep2, foldl_keep22, foldl_keep1, apply_ite v]; done
theorem keep_execFabricDoorbell {α : Type} {v : State → α} (hv : Ig 340100956848 v) (p : ℕ) (h : Hdr) (q : ℕ) (val : ℕ) (s : State) :
    ∀ t', (execFabricDoorbell p h q val s) = .next t' → v t' = v s := by
  intro t ht; unfold execFabricDoorbell settled at ht; rw [← Host.Outcome.next.inj ht, keep_settle (hv.sub rfl)]; repeat' first | rfl | (simp [keep_arriveReg (hv.sub rfl), keep_refuse (hv.sub rfl), keep_cmp (hv.sub rfl), keep_doorbell (hv.sub rfl), foldl_keep, foldl_keep2, foldl_keep22, foldl_keep1, apply_ite v]; done) | rw [foldl_keep (v := v)] | rw [foldl_keep2 (v := v)] | rw [foldl_keep1 (v := v)] | rw [foldl_keep22 (v := v)] | refine getD_keep (v := v) ?_ ?_ | refine Eq.trans (keep_arriveReg (hv.sub rfl) _ _ _ _ _ _ ?_) ?_ | split | dsimp only | intro _ | grind [keep_arriveReg (hv.sub rfl), keep_refuse (hv.sub rfl), keep_cmp (hv.sub rfl), keep_doorbell (hv.sub rfl)]
theorem keep_regAccess {α : Type} {v : State → α} (hv : Ig 425235316752 v) (s : State) (src : Src) (cmd : Instr) (host : ℕ → Bool) (fab : Hdr → Bool) (v0 : ℕ) (f : State → State) (k_f : ∀ z0, v (f z0) = v z0) :
    v (State.regAccess s src cmd host fab v0 f) = v s := by
  unfold State.regAccess
  split
  · extract_lets s0 p0 s1
    have k1 : v s1 = v s := (hv.pins rfl _ _).trans (keep_rouse (hv.sub rfl) _)
    clear_value s1
    split
    · exact (k_f _).trans k1
    · exact k1
  · refine keep_arriveReg (hv.sub rfl) _ _ _ _ _ _ ?_
    intro s
    split
    · exact keep_answerReg (hv.sub rfl) _ _ _ _ _
    · split
      · exact keep_answerReg (hv.sub rfl) _ _ _ _ _
      · split
        · exact (keep_answerReg (hv.sub rfl) _ _ _ _ _).trans ((k_f _).trans (hv.pins rfl _ _))
        · exact keep_answerReg (hv.sub rfl) _ _ _ _ _
theorem keep_execDbRejectsRead {α : Type} {v : State → α} (hv : Ig 477539910320 v) (src : Src) (q : ℕ) (s : State) :
    ∀ t', (execDbRejectsRead src q s) = .next t' → v t' = v s := by
  intro t ht; unfold execDbRejectsRead settled at ht; rw [← Host.Outcome.next.inj ht, keep_settle (hv.sub rfl)]; repeat' first | rfl | (simp [keep_regAccess (hv.sub rfl), keep_modQueue (hv.sub rfl), foldl_keep, foldl_keep2, foldl_keep22, foldl_keep1, apply_ite v]; done) | rw [foldl_keep (v := v)] | rw [foldl_keep2 (v := v)] | rw [foldl_keep1 (v := v)] | rw [foldl_keep22 (v := v)] | refine getD_keep (v := v) ?_ ?_ | refine Eq.trans (keep_regAccess (hv.sub rfl) _ _ _ _ _ _ _ ?_) ?_ | split | dsimp only | intro _ | grind [keep_regAccess (hv.sub rfl), keep_modQueue (hv.sub rfl)]
theorem keep_eqAccess {α : Type} {v : State → α} (hv : Ig 425235316752 v) (s : State) (src : Src) (cmd : Instr) (eq : ℕ) (v0 : EventQ → ℕ) (f : State → State) (k_f : ∀ z0, v (f z0) = v z0) :
    v (State.eqAccess s src cmd eq v0 f) = v s := by
  simp [State.eqAccess, keep_regAccess (hv.sub rfl), k_f, foldl_keep, foldl_keep2, foldl_keep22, foldl_keep1, apply_ite v]; done
theorem keep_eqConsume {α : Type} {v : State → α} (hv : Ig 287771197456 v) (s : State) (eq : ℕ) (val : ℕ) :
    v (State.eqConsume s eq val) = v s := by
  unfold State.eqConsume; (repeat' split) <;> first | (simp [keep_notifyIf (hv.sub rfl), keep_modEq (hv.sub rfl), foldl_keep, foldl_keep2, foldl_keep22, foldl_keep1, apply_ite v]; done) | grind [keep_notifyIf (hv.sub rfl), keep_modEq (hv.sub rfl)]
theorem keep_execEqCiWrite {α : Type} {v : State → α} (hv : Ig 477539386032 v) (src : Src) (eq : ℕ) (val : ℕ) (s : State) :
    ∀ t', (execEqCiWrite src eq val s) = .next t' → v t' = v s := by
  intro t ht; unfold execEqCiWrite settled at ht; rw [← Host.Outcome.next.inj ht, keep_settle (hv.sub rfl)]; repeat' first | rfl | (simp [keep_eqAccess (hv.sub rfl), keep_eqConsume (hv.sub rfl), foldl_keep, foldl_keep2, foldl_keep22, foldl_keep1, apply_ite v]; done) | rw [foldl_keep (v := v)] | rw [foldl_keep2 (v := v)] | rw [foldl_keep1 (v := v)] | rw [foldl_keep22 (v := v)] | refine getD_keep (v := v) ?_ ?_ | refine Eq.trans (keep_eqAccess (hv.sub rfl) _ _ _ _ _ _ ?_) ?_ | split | dsimp only | intro _ | grind [keep_eqAccess (hv.sub rfl), keep_eqConsume (hv.sub rfl)]
theorem keep_execEqDroppedRead {α : Type} {v : State → α} (hv : Ig 477539386032 v) (src : Src) (eq : ℕ) (s : State) :
    ∀ t', (execEqDroppedRead src eq s) = .next t' → v t' = v s := by
  intro t ht; unfold execEqDroppedRead settled at ht; rw [← Host.Outcome.next.inj ht, keep_settle (hv.sub rfl)]; repeat' first | rfl | (simp [keep_eqAccess (hv.sub rfl), keep_modEq (hv.sub rfl), foldl_keep, foldl_keep2, foldl_keep22, foldl_keep1, apply_ite v]; done) | rw [foldl_keep (v := v)] | rw [foldl_keep2 (v := v)] | rw [foldl_keep1 (v := v)] | rw [foldl_keep22 (v := v)] | refine getD_keep (v := v) ?_ ?_ | refine Eq.trans (keep_eqAccess (hv.sub rfl) _ _ _ _ _ _ ?_) ?_ | split | dsimp only | intro _ | grind [keep_eqAccess (hv.sub rfl), keep_modEq (hv.sub rfl)]
theorem keep_admitNext {α : Type} {v : State → α} (hv : Ig 305076421280 v) (s : State) (qid : ℕ) (q : Queue) (c : Context) :
    v (State.admitNext s qid q c) = v s := by
  unfold State.admitNext
  extract_lets key a
  split
  rename_i ok s1 h1
  have k1 : v s1 = v s := by
    have := keep_keysReady (v := v) (hv.sub rfl) s q.runs [(key, 64)] []
    rw [h1] at this; exact this
  clear h1
  split
  · exact k1
  · split
    rename_i bs st s2 h2
    have k2 : v s2 = v s := by
      have := keep_readKey (v := v) (hv.sub rfl) s1 q.runs key 64 a
      rw [h2] at this; exact this.trans k1
    clear h2
    split
    · exact (keep_queueError (hv.sub rfl) _ _ _).trans k2
    · extract_lets i d s3
      have k3 : v s3 = v s := (hv.descs rfl _ _).trans ((keep_modQueue (hv.sub rfl) _ _ _).trans k2)
      clear_value s3
      split
      · exact (keep_admitted (hv.sub rfl) _ _ _ _ _).trans ((hv.mirror rfl _ _).trans k3)
      · split
        · exact (keep_admitted (hv.sub rfl) _ _ _ _ _).trans k3
        · exact (keep_admitted (hv.sub rfl) _ _ _ _ _).trans k3
        · exact (keep_admitted (hv.sub rfl) _ _ _ _ _).trans k3
        · exact (keep_admitBudget (hv.sub rfl) _ _ _).trans ((keep_modDesc (hv.sub rfl) _ _ _ _).trans k3)
theorem keep_admitStep {α : Type} {v : State → α} (hv : Ig 307223904928 v) (s : State) (qid : ℕ) :
    v (State.admitStep s qid) = v s := by
  unfold State.admitStep; (repeat' split) <;> first | (simp [keep_continueHead (hv.sub rfl), keep_wheelSet (hv.sub rfl), keep_admitNext (hv.sub rfl), foldl_keep, foldl_keep2, foldl_keep22, foldl_keep1, apply_ite v]; done) | grind [keep_continueHead (hv.sub rfl), keep_wheelSet (hv.sub rfl), keep_admitNext (hv.sub rfl)]
theorem keep_debit {α : Type} {v : State → α} (hv : Ig 1073741952 v) (s : State) (q : Queue) (charge : ℕ) :
    v (State.debit s q charge) = v s := by
  unfold State.debit; (repeat' split) <;> first | (simp [keep_modPart (hv.sub rfl), hv.shapers rfl, foldl_keep, foldl_keep2, foldl_keep22, foldl_keep1, apply_ite v]; done) | grind [keep_modPart (hv.sub rfl), hv.shapers rfl]
theorem keep_startDesc {α : Type} {v : State → α} (hv : Ig 3222274176 v) (s : State) (d : Desc) (u : Queue) :
    v (State.startDesc s d u) = v s := by
  simp [State.startDesc, keep_wheelPart (hv.sub rfl), keep_modDesc (hv.sub rfl), keep_debit (hv.sub rfl), foldl_keep, foldl_keep2, foldl_keep22, foldl_keep1, apply_ite v]; done
theorem keep_giveEngine {α : Type} {v : State → α} (hv : Ig 135266304 v) (s : State) (q : ℕ) (i : BitVec 32) (part : ℕ) (e : ℕ) :
    v (State.giveEngine s q i part e) = v s := by
  simp [State.giveEngine, keep_modDesc (hv.sub rfl), keep_updEngine (hv.sub rfl), foldl_keep, foldl_keep2, foldl_keep22, foldl_keep1, apply_ite v]; done
theorem keep_giveSegment {α : Type} {v : State → α} (hv : Ig 135266304 v) (s : State) (d : Desc) (part : ℕ) (e : ℕ) :
    v (State.giveSegment s d part e) = v s := by
  simp [State.giveSegment, keep_modDesc (hv.sub rfl), keep_giveEngine (hv.sub rfl), foldl_keep, foldl_keep2, foldl_keep22, foldl_keep1, apply_ite v]; done
theorem keep_nextSegment {α : Type} {v : State → α} (hv : Ig 135266304 v) (s : State) (d : Desc) (part : ℕ) (e : ℕ) :
    v (State.nextSegment s d part e) = v s := by
  simp [State.nextSegment, keep_giveSegment (hv.sub rfl), foldl_keep, foldl_keep2, foldl_keep22, foldl_keep1, apply_ite v]; done
theorem keep_segEnded {α : Type} {v : State → α} (hv : Ig 135266304 v) (s : State) (d : Desc) (x : SegRun) :
    v (State.segEnded s d x) = v s := by
  simp [State.segEnded, keep_modDesc (hv.sub rfl), keep_updEngine (hv.sub rfl), foldl_keep, foldl_keep2, foldl_keep22, foldl_keep1, apply_ite v]; done
theorem keep_completeDesc {α : Type} {v : State → α} (hv : Ig 64535365280 v) (s : State) (d : Desc) (q : Queue) :
    v (State.completeDesc s d q) = v s := by
  simp [State.completeDesc, keep_writeKey (hv.sub rfl), keep_sealOut (hv.sub rfl), keep_modQueue (hv.sub rfl), keep_modCtx (hv.sub rfl), keep_postEq (hv.sub rfl), keep_resetIf (hv.sub rfl), keep_sweepExts (hv.sub rfl), keep_pruneAvail (hv.sub rfl), keep_dropDesc (hv.sub rfl), keep_refund (hv.sub rfl), foldl_keep, foldl_keep2, foldl_keep22, foldl_keep1, apply_ite v]; done
theorem keep_onStarted {α : Type} {v : State → α} (hv : Ig 0 v) (s : State) (q : ℕ) (i : ℕ) (typ : ℕ) (f : Desc → Queue → State → State) (k_f : ∀ z0 z1 z2, v (f z0 z1 z2) = v z2) :
    v (State.onStarted s q i typ f) = v s := by
  unfold State.onStarted; (repeat' split) <;> first | (simp [k_f, foldl_keep, foldl_keep2, foldl_keep22, foldl_keep1, apply_ite v]; done) | grind [k_f]
theorem keep_ask {α : Type} {v : State → α} (hv : Ig 110133920 v) (s : State) (d : Desc) (part : ℕ) (x : SegRun) (ks : List (ℕ × ℕ)) :
    v (State.ask s d part x ks) = v s := by
  simp [State.ask, keep_modDesc (hv.sub rfl), keep_requestKeys (hv.sub rfl), foldl_keep, foldl_keep2, foldl_keep22, foldl_keep1, apply_ite v]; done
theorem keep_landed {α : Type} {v : State → α} (hv : Ig 135266304 v) (s : State) (d : Desc) (x : SegRun) (st : Status) (moved : ℕ) (n : ℕ) :
    v (State.landed s d x st moved n) = v s := by
  simp [State.landed, keep_finishIf (hv.sub rfl), keep_modDesc (hv.sub rfl), foldl_keep, foldl_keep2, foldl_keep22, foldl_keep1, apply_ite v]; done
theorem keep_transfer {α : Type} {v : State → α} (hv : Ig 305187030688 v) (s : State) (d : Desc) (part : ℕ) (ms : List Move) (n : ℕ) :
    v (State.transfer s d part ms n) = v s := by
  unfold State.transfer; (repeat' split) <;> first | (simp [keep_keysReady (hv.sub rfl), keep_ask (hv.sub rfl), keep_moveAll (hv.sub rfl), keep_landed (hv.sub rfl), keep_endDesc (hv.sub rfl), foldl_keep, foldl_keep2, foldl_keep22, foldl_keep1, apply_ite v]; done) | grind [keep_keysReady (hv.sub rfl), keep_ask (hv.sub rfl), keep_moveAll (hv.sub rfl), keep_landed (hv.sub rfl), keep_endDesc (hv.sub rfl)]
theorem keep_plainTransfer {α : Type} {v : State → α} (hv : Ig 305187030688 v) (s : State) (d : Desc) (u : Queue) :
    v (State.plainTransfer s d u) = v s := by
  simp [State.plainTransfer, keep_transfer (hv.sub rfl), foldl_keep, foldl_keep2, foldl_keep22, foldl_keep1, apply_ite v]; done
theorem keep_streamsReady {α : Type} {v : State → α} (hv : Ig 305052811936 v) (s : State) (rs : List Run) (ss : List Stream) :
    v (State.streamsReady s rs ss).2 = v s := by
  simp [State.streamsReady, keep_keysReady (hv.sub rfl), foldl_keep, foldl_keep2, foldl_keep22, foldl_keep1, apply_ite v]; done
theorem keep_indexed {α : Type} {v : State → α} (hv : Ig 305052811936 v) (s : State) (d : Desc) (u : Queue) (k : List (Option ℕ × Bool × Bool) → Status → Option ℕ → State → State) (k_k : ∀ z0 z1 z2 z3, v (k z0 z1 z2 z3) = v z3) :
    v (State.indexed s d u k) = v s := by
  simp [State.indexed, keep_streamsReady (hv.sub rfl), keep_readIndices (hv.sub rfl), k_k, foldl_keep, foldl_keep2, foldl_keep22, foldl_keep1, apply_ite v]; done
theorem keep_indexedTransfer {α : Type} {v : State → α} (hv : Ig 305187030688 v) (s : State) (d : Desc) (u : Queue) (ms : List Move) (st0 : Status) (oob : Option ℕ) (n : ℕ) :
    v (State.indexedTransfer s d u ms st0 oob n) = v s := by
  simp [State.indexedTransfer, keep_transfer (hv.sub rfl), keep_modDesc (hv.sub rfl), foldl_keep, foldl_keep2, foldl_keep22, foldl_keep1, apply_ite v]; done
theorem keep_onOperator {α : Type} {v : State → α} (hv : Ig 0 v) (s : State) (q : ℕ) (i : ℕ) (code : ℕ) (f : Desc → ℕ → State → State) (k_f : ∀ z0 z1 z2, v (f z0 z1 z2) = v z2) :
    v (State.onOperator s q i code f) = v s := by
  simp [State.onOperator, keep_onStarted (hv.sub rfl), k_f, foldl_keep, foldl_keep2, foldl_keep22, foldl_keep1, apply_ite v]; done
theorem keep_fetched {α : Type} {v : State → α} (hv : Ig 110133920 v) (s : State) (d : Desc) (part : ℕ) (ks : List (ℕ × ℕ)) :
    v (State.fetched s d part ks).2 = v s := by
  simp [State.fetched, keep_modDesc (hv.sub rfl), keep_requestKeys (hv.sub rfl), foldl_keep, foldl_keep2, foldl_keep22, foldl_keep1, apply_ite v]; done
theorem keep_opReady {α : Type} {v : State → α} (hv : Ig 305052811936 v) (s : State) (d : Desc) (part : ℕ) (ss : List Stream) :
    v (State.opReady s d part ss).2 = v s := by
  unfold State.opReady; (repeat' split) <;> first | (simp [keep_streamsReady (hv.sub rfl), keep_fetched (hv.sub rfl), foldl_keep, foldl_keep2, foldl_keep22, foldl_keep1, apply_ite v]; done) | grind [keep_streamsReady (hv.sub rfl), keep_fetched (hv.sub rfl)]
theorem keep_ssbRecord {α : Type} {v : State → α} (hv : Ig 110133920 v) (s : State) (rs : List Run) (x : SEnt) (off : ℕ) (a : Acc) :
    v (State.ssbRecord s rs x off a).2.2 = v s := by
  unfold State.ssbRecord; (repeat' split) <;> first | (simp [keep_readKey (hv.sub rfl), foldl_keep, foldl_keep2, foldl_keep22, foldl_keep1, apply_ite v]; done) | grind [keep_readKey (hv.sub rfl)]
theorem keep_loadSsb {α : Type} {v : State → α} (hv : Ig 110133920 v) (s : State) (rs : List Run) (x : SEnt) (a : Acc) (x1 : ℕ) (x2 : ℕ) :
    v (State.loadSsb s rs x a x1 x2).2.2 = v s := by
  fun_induction State.loadSsb s rs x a x1 x2 <;> repeat' first | rfl | assumption | (simp [keep_ssbRecord (hv.sub rfl), foldl_keep, foldl_keep2, foldl_keep22, foldl_keep1, apply_ite v]; done) | (simp_all [keep_ssbRecord (hv.sub rfl), foldl_keep, foldl_keep2, foldl_keep22, foldl_keep1, apply_ite v]; done) | rw [foldl_keep (v := v)] | rw [foldl_keep2 (v := v)] | rw [foldl_keep1 (v := v)] | rw [foldl_keep22 (v := v)] | refine getD_keep (v := v) ?_ ?_ | split | dsimp only | intro _ | grind [keep_ssbRecord (hv.sub rfl)]
theorem keep_loadDense {α : Type} {v : State → α} (hv : Ig 110133920 v) (s : State) (rs : List Run) (x : SEnt) (n : ℕ) (a : Acc) (x1 : List ((ℕ × ℕ) × ℕ)) :
    v (State.loadDense s rs x n a x1).2.2.2 = v s := by
  fun_induction State.loadDense s rs x n a x1 <;> repeat' first | rfl | assumption | (simp [keep_readKey (hv.sub rfl), foldl_keep, foldl_keep2, foldl_keep22, foldl_keep1, apply_ite v]; done) | (simp_all [keep_readKey (hv.sub rfl), foldl_keep, foldl_keep2, foldl_keep22, foldl_keep1, apply_ite v]; done) | rw [foldl_keep (v := v)] | rw [foldl_keep2 (v := v)] | rw [foldl_keep1 (v := v)] | rw [foldl_keep22 (v := v)] | refine getD_keep (v := v) ?_ ?_ | split | dsimp only | intro _ | grind [keep_readKey (hv.sub rfl)]
theorem keep_loadRows {α : Type} {v : State → α} (hv : Ig 110133920 v) (s : State) (rs : List Run) (x : SEnt) (rows : List (ℕ × ℕ)) (n : ℕ) (a : Acc) :
    v (State.loadRows s rs x rows n a).2.2.2 = v s := by
  unfold State.loadRows
  split
  · dsimp only
    rw [foldl_keep222 (v := v)]
    · exact keep_loadSsb (hv.sub rfl) _ _ _ _ _ _
    · intro r i
      split
      · exact keep_readKey (hv.sub rfl) _ _ _ _ _
      · rfl
  · exact keep_loadDense (hv.sub rfl) _ _ _ _ _ _
theorem keep_runChain {α : Type} {v : State → α} (hv : Ig 110133920 v) (s : State) (d : Desc) (part : ℕ) (o : Ocb) :
    v (State.runChain s d part o).2.2.2 = v s := by
  unfold State.runChain
  extract_lets h a ld
  have k2 : v ld.2.2.2.2 = v s := by
    simp only [ld]
    rw [foldl_keep2222 (v := v)]
    intro r k
    split
    · exact keep_loadRows (hv.sub rfl) _ _ _ _ _ _
    · rfl
  clear_value ld
  split
  rename_i mat mstop mst s2 h2
  have k3 : v s2 = v s := by
    split at h2
    · have := keep_loadRows (v := v) (hv.sub rfl) ld.2.2.2.2 d.runs (o.load 3) ((List.range o.dotRows).map (fun r => (0, r))) h.elems (d.acc part)
      rw [h2] at this; exact this.trans k2
    · cases h2; exact k2
  exact k3
theorem keep_storeRun {α : Type} {v : State → α} (hv : Ig 305052812960 v) (s : State) (d : Desc) (part : ℕ) (k : ℕ) (x : SEnt) (off : ℕ) (bs : List (Byte × Bool)) (upto : ℕ → ℕ) :
    v (State.storeRun s d part k x off bs upto).2.2 = v s := by
  unfold State.storeRun; (repeat' split) <;> first | (simp [keep_pushRemote (hv.sub rfl), keep_writeKey (hv.sub rfl), foldl_keep, foldl_keep2, foldl_keep22, foldl_keep1, apply_ite v]; done) | grind [keep_pushRemote (hv.sub rfl), keep_writeKey (hv.sub rfl)]
theorem keep_storeScales {α : Type} {v : State → α} (hv : Ig 305052812960 v) (s : State) (d : Desc) (part : ℕ) (k : ℕ) (x : SEnt) (off : ℕ) (sc : List (ℕ × Bool)) :
    v (State.storeScales s d part k x off sc).2.2 = v s := by
  unfold State.storeScales; (repeat' split) <;> first | (simp [keep_pushRemote (hv.sub rfl), keep_writeKey (hv.sub rfl), foldl_keep, foldl_keep2, foldl_keep22, foldl_keep1, apply_ite v]; done) | grind [keep_pushRemote (hv.sub rfl), keep_writeKey (hv.sub rfl)]
theorem keep_storeOuts {α : Type} {v : State → α} (hv : Ig 305052812960 v) (s : State) (d : Desc) (part : ℕ) (k : ℕ) (x : SEnt) (pack : Bool) (sat : Bool) (es : List OutEl) :
    v (State.storeOuts s d part k x pack sat es).2.2 = v s := by
  unfold State.storeOuts; (repeat' split) <;> first | (simp [keep_storeRun (hv.sub rfl), keep_storeScales (hv.sub rfl), foldl_keep, foldl_keep2, foldl_keep22, foldl_keep1, apply_ite v]; done) | grind [keep_storeRun (hv.sub rfl), keep_storeScales (hv.sub rfl)]
theorem keep_putOut {α : Type} {v : State → α} (hv : Ig 305052812960 v) (s : State) (d : Desc) (part : ℕ) (o : Ocb) (k : ℕ) (es : List OutEl) (st : Status) :
    v (State.putOut s d part o k es st).2.2 = v s := by
  unfold State.putOut; (repeat' split) <;> first | (simp [keep_storeOuts (hv.sub rfl), foldl_keep, foldl_keep2, foldl_keep22, foldl_keep1, apply_ite v]; done) | grind [keep_storeOuts (hv.sub rfl)]
theorem keep_opUnrouted {α : Type} {v : State → α} (hv : Ig 8725200896 v) (s : State) (d : Desc) (n0 : ℕ) (n1 : ℕ) :
    v (State.opUnrouted s d n0 n1) = v s := by
  simp [State.opUnrouted, keep_endDesc (hv.sub rfl), keep_modDesc (hv.sub rfl), foldl_keep, foldl_keep2, foldl_keep22, foldl_keep1, apply_ite v]; done
theorem keep_opDone {α : Type} {v : State → α} (hv : Ig 135266304 v) (s : State) (d : Desc) (st : Status) (stop : Bool) (n0 : ℕ) (n1 : ℕ) (far0 : Bool) (far1 : Bool) :
    v (State.opDone s d st stop n0 n1 far0 far1) = v s := by
  simp [State.opDone, keep_modDesc (hv.sub rfl), keep_finishIf (hv.sub rfl), foldl_keep, foldl_keep2, foldl_keep22, foldl_keep1, apply_ite v]; done
theorem keep_runUser {α : Type} {v : State → α} (hv : Ig 305187030688 v) (s : State) (d : Desc) (part : ℕ) :
    v (State.runUser s d part) = v s := by
  unfold State.runUser
  extract_lets o
  split
  rename_i ok s1 h1
  have k1 : v s1 = v s := by
    have := keep_opReady (v := v) (hv.sub rfl) s d part (o.streams d.shape)
    rw [h1] at this; exact this
  clear h1
  split
  · exact k1
  · split
    rename_i c stop st s2 h2
    have k2 : v s2 = v s := by
      have := keep_runChain (v := v) (hv.sub rfl) s1 d part o
      rw [h2] at this; exact this.trans k1
    clear h2
    extract_lets far n0
    split
    rename_i ok2 st2 s3 h3
    have k4 : v s3 = v s := by
      have h := congrArg (fun x => v x.2.2) h3
      exact h.symm.trans ((keep_putOut (hv.sub rfl) _ _ _ _ _ _ _).trans k2)
    clear h3
    split
    · exact (keep_opUnrouted (hv.sub rfl) _ _ _ _).trans k4
    · split
      rename_i ok3 st3 s4 h4
      have k5 : v s4 = v s := by
        have h := congrArg (fun x => v x.2.2) h4
        exact h.symm.trans ((keep_putOut (hv.sub rfl) _ _ _ _ _ _ _).trans k4)
      clear h4
      split
      · exact (keep_opUnrouted (hv.sub rfl) _ _ _ _).trans k5
      · exact (keep_opDone (hv.sub rfl) _ _ _ _ _ _ _ _).trans k5
theorem keep_issued {α : Type} {v : State → α} (hv : Ig 135266304 v) (s : State) (d : Desc) (st : Status) (result : ℕ) :
    v (State.issued s d st result) = v s := by
  simp [State.issued, keep_finishIf (hv.sub rfl), keep_modDesc (hv.sub rfl), foldl_keep, foldl_keep2, foldl_keep22, foldl_keep1, apply_ite v]; done
theorem keep_adviseLine {α : Type} {v : State → α} (hv : Ig 110133920 v) (s : State) (advice : ℕ) (a : Acc) (line : ℕ) :
    v (State.adviseLine s advice a line) = v s := by
  unfold State.adviseLine
  split
  · split
    · rfl
    · split
      · rfl
      · exact (keep_updPool (hv.sub rfl) _ _).trans (keep_writeBackLine (hv.sub rfl) _ _)
  · split
    · exact keep_updPool (hv.sub rfl) _ _
    · split
      · rfl
      · split
        · rfl
        · split
          rename_i s1 l h1
          have k1 : v s1 = v s := by
            have := keep_tierFill (v := v) (hv.sub rfl) s
            have h := congrArg Prod.fst h1
            exact (congrArg v h.symm).trans (this _ _ _ _)
          exact (getD_keep (fun t h => keep_tierPut (hv.sub rfl) _ _ t h) rfl).trans k1
theorem keep_migChunk {α : Type} {v : State → α} (hv : Ig 110133920 v) (s : State) (rid : ℕ) (r : Region) (x : Extent) (off : ℕ) :
    v (State.migChunk s rid r x off) = v s := by
  unfold State.migChunk
  rw [foldl_keep (v := v)]
  intro t k
  split
  · exact keep_copySector (hv.sub rfl) _ _ _ _
  · rfl
theorem keep_migEnd {α : Type} {v : State → α} (hv : Ig 135495680 v) (s : State) (rid : ℕ) (r : Region) (g : Migration) :
    v (State.migEnd s rid r g) = v s := by
  unfold State.migEnd; (repeat' split) <;> first | (simp [keep_modRegion (hv.sub rfl), keep_issued (hv.sub rfl), keep_sweepExts (hv.sub rfl), hv.extents rfl, foldl_keep, foldl_keep2, foldl_keep22, foldl_keep1, apply_ite v]; done) | grind [keep_modRegion (hv.sub rfl), keep_issued (hv.sub rfl), keep_sweepExts (hv.sub rfl), hv.extents rfl]
theorem keep_modColl {α : Type} {v : State → α} (hv : Ig 268435456 v) (s : State) (ctx : ℕ) (cid : ℕ) (f : Coll → Coll) :
    v (State.modColl s ctx cid f) = v s := by
  simp [State.modColl, hv.colls rfl, foldl_keep, foldl_keep2, foldl_keep22, foldl_keep1, apply_ite v]; done
theorem keep_setColl {α : Type} {v : State → α} (hv : Ig 268435456 v) (s : State) (c : Coll) :
    v (State.setColl s c) = v s := by
  simp [State.setColl, keep_modColl (hv.sub rfl), foldl_keep, foldl_keep2, foldl_keep22, foldl_keep1, apply_ite v]; done
theorem keep_release {α : Type} {v : State → α} (hv : Ig 9126805504 v) (s : State) (c : Coll) (step : ℕ) (chunk : ℕ) (ls : List Lane) :
    v (State.release s c step chunk ls) = v s := by
  simp [State.release, keep_collOut (hv.sub rfl), keep_flockWrites (hv.sub rfl), keep_collSend (hv.sub rfl), foldl_keep, foldl_keep2, foldl_keep22, foldl_keep1, apply_ite v]; done
theorem keep_closeFull {α : Type} {v : State → α} (hv : Ig 9126805504 v) (s : State) (c : Coll) (x1 : ℕ) :
    v (State.closeFull s c x1).2 = v s := by
  fun_induction State.closeFull s c x1 <;> repeat' first | rfl | assumption | (simp [keep_closeStep (hv.sub rfl), foldl_keep, foldl_keep2, foldl_keep22, foldl_keep1, apply_ite v]; done) | (simp_all [keep_closeStep (hv.sub rfl), foldl_keep, foldl_keep2, foldl_keep22, foldl_keep1, apply_ite v]; done) | rw [foldl_keep (v := v)] | rw [foldl_keep2 (v := v)] | rw [foldl_keep1 (v := v)] | rw [foldl_keep22 (v := v)] | refine getD_keep (v := v) ?_ ?_ | split | dsimp only | intro _ | grind [keep_closeStep (hv.sub rfl)]
theorem keep_contribute {α : Type} {v : State → α} (hv : Ig 9395240960 v) (s : State) (ctx : ℕ) (cid : ℕ) (step : ℕ) (rank : ℕ) (chunk : ℕ) (len : ℕ) (bs : List (Byte × Bool)) :
    v (State.contribute s ctx cid step rank chunk len bs).2 = v s := by
  unfold State.contribute; (repeat' split) <;> first | (simp [keep_setColl (hv.sub rfl), keep_release (hv.sub rfl), keep_closeFull (hv.sub rfl), foldl_keep, foldl_keep2, foldl_keep22, foldl_keep1, apply_ite v]; done) | grind [keep_setColl (hv.sub rfl), keep_release (hv.sub rfl), keep_closeFull (hv.sub rfl)]
theorem keep_contributed {α : Type} {v : State → α} (hv : Ig 9530507264 v) (s : State) (d : Desc) (ctx : ℕ) (bs : List (Byte × Bool)) :
    v (State.contributed s d ctx bs) = v s := by
  simp [State.contributed, keep_contribute (hv.sub rfl), keep_issued (hv.sub rfl), keep_modDesc (hv.sub rfl), foldl_keep, foldl_keep2, foldl_keep22, foldl_keep1, apply_ite v]; done
theorem keep_stockReady {α : Type} {v : State → α} (hv : Ig 305052811936 v) (s : State) (d : Desc) (part : ℕ) (list : List Ep) (f : State → State) (k_f : ∀ z0, v (f z0) = v z0) :
    v (State.stockReady s d part list f) = v s := by
  simp [State.stockReady, keep_opReady (hv.sub rfl), k_f, foldl_keep, foldl_keep2, foldl_keep22, foldl_keep1, apply_ite v]; done
theorem keep_reduceInputs {α : Type} {v : State → α} (hv : Ig 110133920 v) (s : State) (d : Desc) (part : ℕ) (o : Ocb) (n : ℕ) :
    v (State.reduceInputs s d part o n).2.2 = v s := by
  unfold State.reduceInputs; (repeat' split) <;> first | (simp [keep_readKey (hv.sub rfl), foldl_keep, foldl_keep2, foldl_keep22, foldl_keep1, apply_ite v]; done) | grind [keep_readKey (hv.sub rfl)]
theorem keep_stockDone {α : Type} {v : State → α} (hv : Ig 305187030688 v) (s : State) (d : Desc) (part : ℕ) (o : Ocb) (st : Status) (stop : Bool) (e0 : List OutEl) (e1 : Option (List ℕ)) :
    v (State.stockDone s d part o st stop e0 e1) = v s := by
  unfold State.stockDone; (repeat' split) <;> first | (simp [keep_storeOuts (hv.sub rfl), keep_opUnrouted (hv.sub rfl), keep_opDone (hv.sub rfl), foldl_keep, foldl_keep2, foldl_keep22, foldl_keep1, apply_ite v]; done) | grind [keep_storeOuts (hv.sub rfl), keep_opUnrouted (hv.sub rfl), keep_opDone (hv.sub rfl)]
theorem keep_rowWeights {α : Type} {v : State → α} (hv : Ig 110133920 v) (s : State) (d : Desc) (o : Ocb) (count : ℕ) (a : Acc) :
    v (State.rowWeights s d o count a).2.2 = v s := by
  unfold State.rowWeights; (repeat' split) <;> first | (simp [keep_readKey (hv.sub rfl), foldl_keep, foldl_keep2, foldl_keep22, foldl_keep1, apply_ite v]; done) | grind [keep_readKey (hv.sub rfl)]
theorem keep_rowArgs {α : Type} {v : State → α} (hv : Ig 110133920 v) (s : State) (d : Desc) (part : ℕ) (o : Ocb) (h : Shape) :
    v (State.rowArgs s d part o h).2.2.2.2 = v s := by
  simp [State.rowArgs, keep_readIndices (hv.sub rfl), keep_rowWeights (hv.sub rfl), foldl_keep, foldl_keep2, foldl_keep22, foldl_keep1, apply_ite v]; done
theorem keep_tableRow {α : Type} {v : State → α} (hv : Ig 110133920 v) (s : State) (d : Desc) (x : SEnt) (pitch : ℕ) (row : ℕ) (n : ℕ) (a : Acc) :
    v (State.tableRow s d x pitch row n a).2.2 = v s := by
  unfold State.tableRow; (repeat' split) <;> first | (simp [keep_readKey (hv.sub rfl), foldl_keep, foldl_keep2, foldl_keep22, foldl_keep1, apply_ite v]; done) | grind [keep_readKey (hv.sub rfl)]
theorem keep_gatherRow {α : Type} {v : State → α} (hv : Ig 110133920 v) (s : State) (d : Desc) (part : ℕ) (o : Ocb) (xs : List (Option ℕ × Bool × Bool)) (ws : List Lane) (j : ℕ) (st : Status) :
    v (State.gatherRow s d part o xs ws j st).2.2 = v s := by
  unfold State.gatherRow; repeat' first | rfl | (simp [keep_tableRow (hv.sub rfl), foldl_keep, foldl_keep2, foldl_keep22, foldl_keep1, apply_ite v]; done) | rw [foldl_keep (v := v)] | rw [foldl_keep2 (v := v)] | rw [foldl_keep1 (v := v)] | rw [foldl_keep22 (v := v)] | refine getD_keep (v := v) ?_ ?_ | split | dsimp only | intro _ | grind [keep_tableRow (hv.sub rfl)]
theorem keep_gatherAll {α : Type} {v : State → α} (hv : Ig 110133920 v) (s : State) (d : Desc) (part : ℕ) (o : Ocb) (xs : List (Option ℕ × Bool × Bool)) (ws : List Lane) (st : Status) :
    v (State.gatherAll s d part o xs ws st).2.2 = v s := by
  simp [State.gatherAll, keep_gatherRow (hv.sub rfl), foldl_keep, foldl_keep2, foldl_keep22, foldl_keep1, apply_ite v]; done
theorem keep_scatterRow {α : Type} {v : State → α} (hv : Ig 110133920 v) (s : State) (d : Desc) (part : ℕ) (o : Ocb) (t : ℕ) (term : List Lane) (st : Status) :
    v (State.scatterRow s d part o t term st).2.2 = v s := by
  unfold State.scatterRow; (repeat' split) <;> first | (simp [keep_tableRow (hv.sub rfl), foldl_keep, foldl_keep2, foldl_keep22, foldl_keep1, apply_ite v]; done) | grind [keep_tableRow (hv.sub rfl)]
theorem keep_putRow {α : Type} {v : State → α} (hv : Ig 305052812960 v) (s : State) (d : Desc) (part : ℕ) (o : Ocb) (row : ℕ) (n : ℕ) (cnt : ℕ) (es : List OutEl) :
    v (State.putRow s d part o row n cnt es).2.2 = v s := by
  unfold State.putRow; (repeat' split) <;> first | (simp [keep_storeRun (hv.sub rfl), keep_storeScales (hv.sub rfl), foldl_keep, foldl_keep2, foldl_keep22, foldl_keep1, apply_ite v]; done) | grind [keep_storeRun (hv.sub rfl), keep_storeScales (hv.sub rfl)]
theorem keep_scatterAll {α : Type} {v : State → α} (hv : Ig 305052812960 v) (s : State) (d : Desc) (part : ℕ) (o : Ocb) (xs : List (Option ℕ × Bool × Bool)) (ws : List Lane) (ins : List (List Elem)) (st : Status) :
    v (State.scatterAll s d part o xs ws ins st).2.2 = v s := by
  unfold State.scatterAll
  extract_lets h fan x
  split
  rename_i ok st1 g1 s1 h1
  have h := congrArg (fun x => v x.2.2.2) h1
  refine h.symm.trans ?_
  simp only
  rw [foldl_keep222 (v := v)]
  intro r k
  split
  · rfl
  · split
    · rfl
    · exact (keep_putRow (v := v) (hv.sub rfl) _ _ _ _ _ _ _ _).trans (keep_scatterRow (v := v) (hv.sub rfl) _ _ _ _ _ _ _)
theorem keep_kvPut {α : Type} {v : State → α} (hv : Ig 305052812960 v) (s : State) (d : Desc) (part : ℕ) (o : Ocb) (ks : List (List Elem)) (x : List Elem) (row : ℕ) (st : Status) (n0 : ℕ) :
    v (State.kvPut s d part o ks x row st n0).2.2.2 = v s := by
  unfold State.kvPut
  extract_lets k bb scores sel recs
  split
  rename_i ok st' s1 h1
  have k1 : v s1 = v s := by
    have h := congrArg (fun x => v x.2.2) h1
    exact h.symm.trans (keep_storeRun (hv.sub rfl) _ _ _ _ _ _ _ _)
  clear h1
  extract_lets st2
  split
  · exact k1
  · rw [foldl_keep222 (v := v)]
    · exact k1
    · intro r y
      split
      · rfl
      · split
        rename_i bs st3 s3 h3
        have k3 : v s3 = v r.2.2.2 := by
          have h := congrArg (fun x => v x.2.2) h3
          exact h.symm.trans (keep_readKey (hv.sub rfl) _ _ _ _ _)
        split
        rename_i ok4 st4 s4 h4
        have h := congrArg (fun x => v x.2.2) h4
        exact (h.symm.trans (keep_storeRun (hv.sub rfl) _ _ _ _ _ _ _ _)).trans k3
theorem keep_kvAll {α : Type} {v : State → α} (hv : Ig 305052812960 v) (s : State) (d : Desc) (part : ℕ) (o : Ocb) (qs : List (List Elem)) (ks : List (List Elem)) (st : Status) :
    v (State.kvAll s d part o qs ks st).2.2.2 = v s := by
  unfold State.kvAll
  rw [foldl_keep222 (v := v)]
  intro r x
  split
  · rfl
  · exact keep_kvPut (hv.sub rfl) _ _ _ _ _ _ _ _ _
theorem keep_ckptBlock {α : Type} {v : State → α} (hv : Ig 110133920 v) (s : State) (d : Desc) (part : ℕ) (x : SEnt) (k : ℕ) :
    v (State.ckptBlock s d part x k).2.2 = v s := by
  simp [State.ckptBlock, keep_readKey (hv.sub rfl), foldl_keep, foldl_keep2, foldl_keep22, foldl_keep1, apply_ite v]; done
theorem keep_deltaEntries {α : Type} {v : State → α} (hv : Ig 110133920 v) (s : State) (d : Desc) (part : ℕ) (o : Ocb) (nb : ℕ) :
    v (State.deltaEntries s d part o nb).2.2.2 = v s := by
  unfold State.deltaEntries
  extract_lets noBase
  rw [foldl_keep222 (v := v)]
  intro r k
  dsimp only
  have k1 := keep_ckptBlock (v := v) (hv.sub rfl) r.2.2.2 d part (o.load 0) k
  generalize State.ckptBlock r.2.2.2 d part (o.load 0) k = a at k1
  split
  · exact k1
  · exact (keep_ckptBlock (hv.sub rfl) _ _ _ _ _).trans k1
theorem keep_deltaAt {α : Type} {v : State → α} (hv : Ig 110133920 v) (s : State) (d : Desc) (part : ℕ) (o : Ocb) (off : ℕ) (bound : ℕ) :
    v (State.deltaAt s d part o off bound).2.2 = v s := by
  unfold State.deltaAt; (repeat' split) <;> first | (simp [keep_readKey (hv.sub rfl), foldl_keep, foldl_keep2, foldl_keep22, foldl_keep1, apply_ite v]; done) | grind [keep_readKey (hv.sub rfl)]
theorem keep_restoreBlock {α : Type} {v : State → α} (hv : Ig 110133920 v) (s : State) (d : Desc) (part : ℕ) (o : Ocb) (changed : Bool) (k : ℕ) (off : ℕ) (bound : ℕ) :
    v (State.restoreBlock s d part o changed k off bound).2.2 = v s := by
  grind [State.restoreBlock, keep_ckptBlock (hv.sub rfl), keep_deltaAt (hv.sub rfl)]
theorem keep_logGroup {α : Type} {v : State → α} (hv : Ig 67108864 v) (s : State) (d : Desc) (x : SEnt) (off : ℕ) :
    v (State.logGroup s d x off) = v s := by
  unfold State.logGroup; (repeat' split) <;> first | (simp [keep_log (hv.sub rfl), keep_logOn (hv.sub rfl), foldl_keep, foldl_keep2, foldl_keep22, foldl_keep1, apply_ite v]; done) | grind [keep_log (hv.sub rfl), keep_logOn (hv.sub rfl)]
theorem keep_restoreGroup {α : Type} {v : State → α} (hv : Ig 305052812960 v) (s : State) (d : Desc) (part : ℕ) (o : Ocb) (first : ℕ) (bs : List (Byte × Bool)) (crc : Option ℕ) :
    v (State.restoreGroup s d part o first bs crc).2.2 = v s := by
  simp [State.restoreGroup, keep_storeRun (hv.sub rfl), keep_logGroup (hv.sub rfl), foldl_keep, foldl_keep2, foldl_keep22, foldl_keep1, apply_ite v]; done

end Sys2Proof.Laws
end

