-- ==== Sys2Proof/Laws/KeepD.lean ====
section
/-! SUPPORT. What each operation of the block leaves alone, part 4 of 4: a view that ignores the fields an operation may change
is the same after it. -/

namespace Sys2Proof.Laws
open Sys2Proof.Machine

set_option linter.all false
set_option Elab.async false

theorem keep_restoreStep {α : Type} {v : State → α} (hv : Ig 305052812960 v) (s : State) (d : Desc) (part : ℕ) (o : Ocb) (nb : ℕ) (changed : Bool) (ct : List Byte) (k : ℕ) (r : Restore) :
    v (State.restoreStep s d part o nb changed ct k r).2.2 = v s := by
  unfold State.restoreStep; (repeat' split) <;> first | (simp [keep_restoreBlock (hv.sub rfl), keep_restoreGroup (hv.sub rfl), foldl_keep, foldl_keep2, foldl_keep22, foldl_keep1, apply_ite v]; done) | grind [keep_restoreBlock (hv.sub rfl), keep_restoreGroup (hv.sub rfl)]
theorem keep_restoreAll {α : Type} {v : State → α} (hv : Ig 305052812960 v) (s : State) (d : Desc) (part : ℕ) (o : Ocb) (nb : ℕ) (bits : ℕ) (ct : List Byte) (start : Restore) :
    v (State.restoreAll s d part o nb bits ct start).2.2 = v s := by
  unfold State.restoreAll; repeat' first | rfl | (simp [keep_restoreStep (hv.sub rfl), foldl_keep, foldl_keep2, foldl_keep22, foldl_keep1, apply_ite v]; done) | rw [foldl_keep (v := v)] | rw [foldl_keep2 (v := v)] | rw [foldl_keep1 (v := v)] | rw [foldl_keep22 (v := v)] | refine getD_keep (v := v) ?_ ?_ | split | dsimp only | intro _ | grind [keep_restoreStep (hv.sub rfl)]
theorem keep_convertRows {α : Type} {v : State → α} (hv : Ig 305187030688 v) (s : State) (d : Desc) (part : ℕ) :
    v (State.convertRows s d part) = v s := by
  simp [State.convertRows, keep_stockReady (hv.sub rfl), keep_loadRows (hv.sub rfl), keep_stockDone (hv.sub rfl), foldl_keep, foldl_keep2, foldl_keep22, foldl_keep1, apply_ite v]; done
theorem keep_countOld {α : Type} {v : State → α} (hv : Ig 8589935616 v) (s : State) (h : Hdr) :
    v (State.countOld s h) = v s := by
  simp [State.countOld, keep_modCtx (hv.sub rfl), keep_updNet (hv.sub rfl), foldl_keep, foldl_keep2, foldl_keep22, foldl_keep1, apply_ite v]; done
theorem keep_deny {α : Type} {v : State → α} (hv : Ig 304976233472 v) (s : State) (p : ℕ) (h : Hdr) (st : Status) :
    v (State.deny s p h st) = v s := by
  simp [State.deny, keep_consume (hv.sub rfl), keep_updNet (hv.sub rfl), keep_countOld (hv.sub rfl), keep_refuse (hv.sub rfl), hv.mirror rfl, foldl_keep, foldl_keep2, foldl_keep22, foldl_keep1, apply_ite v]; done
theorem keep_atHome {α : Type} {v : State → α} (hv : Ig 304976233472 v) (s : State) (p : ℕ) (h : Hdr) (k : Context → State → State) (k_k : ∀ z0 z1, v (k z0 z1) = v z1) :
    v (State.atHome s p h k) = v s := by
  unfold State.atHome; repeat' first | rfl | (simp [keep_arrive (hv.sub rfl), keep_refuse (hv.sub rfl), keep_consume (hv.sub rfl), keep_deny (hv.sub rfl), keep_modCtx (hv.sub rfl), k_k, foldl_keep, foldl_keep2, foldl_keep22, foldl_keep1, apply_ite v]; done) | rw [foldl_keep (v := v)] | rw [foldl_keep2 (v := v)] | rw [foldl_keep1 (v := v)] | rw [foldl_keep22 (v := v)] | refine getD_keep (v := v) ?_ ?_ | refine Eq.trans (keep_arrive (hv.sub rfl) _ _ _ _ ?_) ?_ | split | dsimp only | intro _ | grind [keep_arrive (hv.sub rfl), keep_refuse (hv.sub rfl), keep_consume (hv.sub rfl), keep_deny (hv.sub rfl), keep_modCtx (hv.sub rfl), k_k]
theorem keep_execPublish {α : Type} {v : State → α} (hv : Ig 340100695728 v) (p : ℕ) (h : Hdr) (target : ℕ) (staging : ℕ) (v0 : ℕ) (w : ℕ) (s : State) :
    ∀ t', (execPublish p h target staging v0 w s) = .next t' → v t' = v s := by
  intro t ht; unfold execPublish settled at ht; rw [← Host.Outcome.next.inj ht, keep_settle (hv.sub rfl)]; repeat' first | rfl | (simp [keep_atHome (hv.sub rfl), keep_consume (hv.sub rfl), hv.pubs rfl, foldl_keep, foldl_keep2, foldl_keep22, foldl_keep1, apply_ite v]; done) | rw [foldl_keep (v := v)] | rw [foldl_keep2 (v := v)] | rw [foldl_keep1 (v := v)] | rw [foldl_keep22 (v := v)] | refine getD_keep (v := v) ?_ ?_ | rw [hv.pubs rfl] | refine Eq.trans (keep_atHome (hv.sub rfl) _ _ _ _ ?_) ?_ | split | dsimp only | intro _ | grind [keep_atHome (hv.sub rfl), keep_consume (hv.sub rfl), hv.pubs rfl]
theorem keep_accumulate {α : Type} {v : State → α} (hv : Ig 284407365632 v) (s : State) (h : Hdr) (step : ℕ) (rank : ℕ) (chunk : ℕ) (bs : List (Byte × Bool)) :
    v (State.accumulate s h step rank chunk bs).2 = v s := by
  unfold State.accumulate; (repeat' split) <;> first | (simp [keep_choose (hv.sub rfl), keep_updEngine (hv.sub rfl), keep_contribute (hv.sub rfl), foldl_keep, foldl_keep2, foldl_keep22, foldl_keep1, apply_ite v]; done) | grind [keep_choose (hv.sub rfl), keep_updEngine (hv.sub rfl), keep_contribute (hv.sub rfl)]
theorem keep_collWrite {α : Type} {v : State → α} (hv : Ig 305915757568 v) (s : State) (p : ℕ) (h : Hdr) (step : ℕ) (rank : ℕ) (chunk : ℕ) (data : List Byte) :
    v (State.collWrite s p h step rank chunk data) = v s := by
  unfold State.collWrite; repeat' first | rfl | (simp [keep_atHome (hv.sub rfl), keep_cmp (hv.sub rfl), keep_contribute (hv.sub rfl), keep_consume (hv.sub rfl), keep_msgTake (hv.sub rfl), keep_modMsg (hv.sub rfl), keep_msgDone (hv.sub rfl), keep_accumulate (hv.sub rfl), foldl_keep, foldl_keep2, foldl_keep22, foldl_keep1, apply_ite v]; done) | rw [foldl_keep (v := v)] | rw [foldl_keep2 (v := v)] | rw [foldl_keep1 (v := v)] | rw [foldl_keep22 (v := v)] | refine getD_keep (v := v) ?_ ?_ | refine Eq.trans (keep_atHome (hv.sub rfl) _ _ _ _ ?_) ?_ | split | dsimp only | intro _ | grind [keep_atHome (hv.sub rfl), keep_cmp (hv.sub rfl), keep_contribute (hv.sub rfl), keep_consume (hv.sub rfl), keep_msgTake (hv.sub rfl), keep_modMsg (hv.sub rfl), keep_msgDone (hv.sub rfl), keep_accumulate (hv.sub rfl)]
theorem keep_execCollWr {α : Type} {v : State → α} (hv : Ig 340368869040 v) (p : ℕ) (h : Hdr) (step : ℕ) (rank : ℕ) (chunk : ℕ) (data : List Byte) (s : State) :
    ∀ t', (execCollWr p h step rank chunk data s) = .next t' → v t' = v s := by
  intro t ht; unfold execCollWr settled at ht; rw [← Host.Outcome.next.inj ht, keep_settle (hv.sub rfl)]; repeat' first | rfl | (simp [keep_collWrite (hv.sub rfl), foldl_keep, foldl_keep2, foldl_keep22, foldl_keep1, apply_ite v]; done) | rw [foldl_keep (v := v)] | rw [foldl_keep2 (v := v)] | rw [foldl_keep1 (v := v)] | rw [foldl_keep22 (v := v)] | refine getD_keep (v := v) ?_ ?_ | split | dsimp only | intro _ | grind [keep_collWrite (hv.sub rfl)]
theorem keep_onward {α : Type} {v : State → α} (hv : Ig 8589934592 v) (s : State) (p : ℕ) (tgt : ℕ) (pkt : Packet) :
    v (State.onward s p tgt pkt).2 = v s := by
  unfold State.onward; (repeat' split) <;> first | (simp [keep_unpin (hv.sub rfl), keep_pinnedPort (hv.sub rfl), foldl_keep, foldl_keep2, foldl_keep22, foldl_keep1, apply_ite v]; done) | grind [keep_unpin (hv.sub rfl), keep_pinnedPort (hv.sub rfl)]
theorem keep_cutThrough {α : Type} {v : State → α} (hv : Ig 12884901888 v) (s : State) (p : ℕ) (pkt : Packet) :
    v (State.cutThrough s p pkt) = v s := by
  unfold State.cutThrough; (repeat' split) <;> first | (simp [keep_onward (hv.sub rfl), keep_updLink (hv.sub rfl), keep_egress (hv.sub rfl), foldl_keep, foldl_keep2, foldl_keep22, foldl_keep1, apply_ite v]; done) | grind [keep_onward (hv.sub rfl), keep_updLink (hv.sub rfl), keep_egress (hv.sub rfl)]
theorem keep_plainFd {α : Type} {v : State → α} (hv : Ig 425235316752 v) (s : State) (p : ℕ) (pkt : Packet) :
    v (State.plainFd s p pkt) = v s := by
  simp [State.plainFd, keep_regAccess (hv.sub rfl), keep_eqAccess (hv.sub rfl), foldl_keep, foldl_keep2, foldl_keep22, foldl_keep1, apply_ite v]; done
theorem keep_localDelivery {α : Type} {v : State → α} (hv : Ig 425235316752 v) (s : State) (p : ℕ) (pkt : Packet) :
    v (State.localDelivery s p pkt) = v s := by
  simp [State.localDelivery, keep_plainFd (hv.sub rfl), keep_mbAccess (hv.sub rfl), keep_refuse (hv.sub rfl), keep_consume (hv.sub rfl), foldl_keep, foldl_keep2, foldl_keep22, foldl_keep1, apply_ite v]; done
theorem keep_unrouted {α : Type} {v : State → α} (hv : Ig 287762808832 v) (s : State) (p : ℕ) (h : Hdr) :
    v (State.unrouted s p h) = v s := by
  simp [State.unrouted, keep_refuse (hv.sub rfl), keep_updNet (hv.sub rfl), foldl_keep, foldl_keep2, foldl_keep22, foldl_keep1, apply_ite v]; done
theorem keep_forwardPacket {α : Type} {v : State → α} (hv : Ig 287762808832 v) (s : State) (p : ℕ) (tgt : ℕ) (pkt : Packet) :
    v (State.forwardPacket s p tgt pkt) = v s := by
  unfold State.forwardPacket; (repeat' split) <;> first | (simp [keep_onward (hv.sub rfl), keep_egress (hv.sub rfl), keep_unrouted (hv.sub rfl), foldl_keep, foldl_keep2, foldl_keep22, foldl_keep1, apply_ite v]; done) | grind [keep_onward (hv.sub rfl), keep_egress (hv.sub rfl), keep_unrouted (hv.sub rfl)]
theorem keep_transit {α : Type} {v : State → α} (hv : Ig 442508559024 v) (s : State) (p : ℕ) (pkt : Packet) :
    v (State.transit s p pkt) = v s := by
  simp [State.transit, keep_cutThrough (hv.sub rfl), keep_refuseBad (hv.sub rfl), keep_updNet (hv.sub rfl), keep_consume (hv.sub rfl), keep_localDelivery (hv.sub rfl), keep_multicast (hv.sub rfl), keep_forwardPacket (hv.sub rfl), foldl_keep, foldl_keep2, foldl_keep22, foldl_keep1, apply_ite v]; done
theorem keep_outDone {α : Type} {v : State → α} (hv : Ig 8725200896 v) (s : State) (d : Desc) (m : OutMsg) (st : Status) :
    v (State.outDone s d m st) = v s := by
  simp [State.outDone, keep_finishIf (hv.sub rfl), keep_modDesc (hv.sub rfl), keep_endDesc (hv.sub rfl), foldl_keep, foldl_keep2, foldl_keep22, foldl_keep1, apply_ite v]; done
theorem keep_landing {α : Type} {v : State → α} (hv : Ig 305052811936 v) (s : State) (d : Desc) (loc : ℕ) (n : ℕ) :
    v (State.landing s d loc n).2 = v s := by
  unfold State.landing; (repeat' split) <;> first | (simp [keep_keysReady (hv.sub rfl), foldl_keep, foldl_keep2, foldl_keep22, foldl_keep1, apply_ite v]; done) | grind [keep_keysReady (hv.sub rfl)]
theorem keep_learn {α : Type} {v : State → α} (hv : Ig 8589934592 v) (s : State) (node : ℕ) (inc : ℕ) :
    v (State.learn s node inc) = v s := by
  simp [State.learn, keep_updNet (hv.sub rfl), foldl_keep, foldl_keep2, foldl_keep22, foldl_keep1, apply_ite v]; done
theorem keep_execTransitForward {α : Type} {v : State → α} (hv : Ig 477539386032 v) (p : ℕ) (pkt : Packet) (s : State) :
    ∀ t', (execTransitForward p pkt s) = .next t' → v t' = v s := by
  intro t ht; unfold execTransitForward settled at ht; rw [← Host.Outcome.next.inj ht, keep_settle (hv.sub rfl)]; repeat' first | rfl | (simp [keep_transit (hv.sub rfl), foldl_keep, foldl_keep2, foldl_keep22, foldl_keep1, apply_ite v]; done) | rw [foldl_keep (v := v)] | rw [foldl_keep2 (v := v)] | rw [foldl_keep1 (v := v)] | rw [foldl_keep22 (v := v)] | refine getD_keep (v := v) ?_ ?_ | split | dsimp only | intro _ | grind [keep_transit (hv.sub rfl)]
theorem keep_translated {α : Type} {v : State → α} (hv : Ig 126927520 v) (s : State) (p : ℕ) (h : Hdr) (c : Context) (len : ℕ) (acc : ℕ) (bad_ : Status → State → State) (k : List (ℕ × ℕ × Trans) → State → State) (k_bad_ : ∀ z0 z1, v (bad_ z0 z1) = v z1) (k_k : ∀ z0 z1, v (k z0 z1) = v z1) :
    v (State.translated s p h c len acc bad_ k) = v s := by
  unfold State.translated
  split
  rename_i st s1 h1
  have k1 : v s1 = v s := by
    have := keep_walkPages (v := v) (hv.sub rfl) s
    have h := congrArg Prod.snd h1
    exact (congrArg v h.symm).trans (this _ _ _)
  clear h1
  extract_lets ps
  split
  · exact (k_bad_ _ _).trans k1
  · split
    · exact (k_bad_ _ _).trans ((keep_reportFault (hv.sub rfl) _ _ _ _ _ _ _ _ _).trans k1)
    · exact (k_k _ _).trans k1
theorem keep_take {α : Type} {v : State → α} (hv : Ig 305052811936 v) (s : State) (p : ℕ) (h : Hdr) (cmd : Instr) (rs : List HomeReq) (k : State → State) (k_k : ∀ z0, v (k z0) = v z0) :
    v (State.take s p h cmd rs k) = v s := by
  unfold State.take; (repeat' split) <;> first | (simp [keep_stall (hv.sub rfl), keep_submit (hv.sub rfl), keep_consume (hv.sub rfl), k_k, foldl_keep, foldl_keep2, foldl_keep22, foldl_keep1, apply_ite v]; done) | grind [keep_stall (hv.sub rfl), keep_submit (hv.sub rfl), keep_consume (hv.sub rfl), k_k]
theorem keep_tookOne {α : Type} {v : State → α} (hv : Ig 33554432 v) (s : State) :
    v (State.tookOne s) = v s := by
  simp [State.tookOne, keep_updCoh (hv.sub rfl), foldl_keep, foldl_keep2, foldl_keep22, foldl_keep1, apply_ite v]; done
theorem keep_cachingReq {α : Type} {v : State → α} (hv : Ig 305069606560 v) (s : State) (p : ℕ) (h : Hdr) (agent : ℕ) (op : HomeOp) (cmd : Instr) :
    v (State.cachingReq s p h agent op cmd) = v s := by
  unfold State.cachingReq; repeat' first | rfl | (simp [keep_atHome (hv.sub rfl), keep_deny (hv.sub rfl), keep_translated (hv.sub rfl), keep_sendData (hv.sub rfl), keep_consume (hv.sub rfl), keep_take (hv.sub rfl), keep_tookOne (hv.sub rfl), foldl_keep, foldl_keep2, foldl_keep22, foldl_keep1, apply_ite v]; done) | grind [keep_atHome (hv.sub rfl), keep_deny (hv.sub rfl), keep_translated (hv.sub rfl), keep_sendData (hv.sub rfl), keep_consume (hv.sub rfl), keep_take (hv.sub rfl), keep_tookOne (hv.sub rfl)] | rw [foldl_keep (v := v)] | rw [foldl_keep2 (v := v)] | rw [foldl_keep1 (v := v)] | rw [foldl_keep22 (v := v)] | refine getD_keep (v := v) ?_ ?_ | split | dsimp only | intro _
theorem keep_execRdShared {α : Type} {v : State → α} (hv : Ig 340100433584 v) (p : ℕ) (h : Hdr) (agent : ℕ) (s : State) :
    ∀ t', (execRdShared p h agent s) = .next t' → v t' = v s := by
  intro t ht; unfold execRdShared settled at ht; rw [← Host.Outcome.next.inj ht, keep_settle (hv.sub rfl)]; repeat' first | rfl | (simp [keep_cachingReq (hv.sub rfl), foldl_keep, foldl_keep2, foldl_keep22, foldl_keep1, apply_ite v]; done) | rw [foldl_keep (v := v)] | rw [foldl_keep2 (v := v)] | rw [foldl_keep1 (v := v)] | rw [foldl_keep22 (v := v)] | refine getD_keep (v := v) ?_ ?_ | split | dsimp only | intro _ | grind [keep_cachingReq (hv.sub rfl)]
theorem keep_execRdOwn {α : Type} {v : State → α} (hv : Ig 340100433584 v) (p : ℕ) (h : Hdr) (agent : ℕ) (s : State) :
    ∀ t', (execRdOwn p h agent s) = .next t' → v t' = v s := by
  intro t ht; unfold execRdOwn settled at ht; rw [← Host.Outcome.next.inj ht, keep_settle (hv.sub rfl)]; repeat' first | rfl | (simp [keep_cachingReq (hv.sub rfl), foldl_keep, foldl_keep2, foldl_keep22, foldl_keep1, apply_ite v]; done) | rw [foldl_keep (v := v)] | rw [foldl_keep2 (v := v)] | rw [foldl_keep1 (v := v)] | rw [foldl_keep22 (v := v)] | refine getD_keep (v := v) ?_ ?_ | split | dsimp only | intro _ | grind [keep_cachingReq (hv.sub rfl)]
theorem keep_execUpgrade {α : Type} {v : State → α} (hv : Ig 340100433584 v) (p : ℕ) (h : Hdr) (agent : ℕ) (s : State) :
    ∀ t', (execUpgrade p h agent s) = .next t' → v t' = v s := by
  intro t ht; unfold execUpgrade settled at ht; rw [← Host.Outcome.next.inj ht, keep_settle (hv.sub rfl)]; repeat' first | rfl | (simp [keep_cachingReq (hv.sub rfl), foldl_keep, foldl_keep2, foldl_keep22, foldl_keep1, apply_ite v]; done) | rw [foldl_keep (v := v)] | rw [foldl_keep2 (v := v)] | rw [foldl_keep1 (v := v)] | rw [foldl_keep22 (v := v)] | refine getD_keep (v := v) ?_ ?_ | split | dsimp only | intro _ | grind [keep_cachingReq (hv.sub rfl)]
theorem keep_uncachedRead {α : Type} {v : State → α} (hv : Ig 305069606560 v) (s : State) (p : ℕ) (h : Hdr) (cmd : Instr) :
    v (State.uncachedRead s p h cmd) = v s := by
  unfold State.uncachedRead; repeat' first | rfl | (simp [keep_atHome (hv.sub rfl), keep_deny (hv.sub rfl), keep_translated (hv.sub rfl), keep_closeJoin (hv.sub rfl), keep_take (hv.sub rfl), keep_openJoin (hv.sub rfl), foldl_keep, foldl_keep2, foldl_keep22, foldl_keep1, apply_ite v]; done) | rw [foldl_keep (v := v)] | rw [foldl_keep2 (v := v)] | rw [foldl_keep1 (v := v)] | rw [foldl_keep22 (v := v)] | refine getD_keep (v := v) ?_ ?_ | refine Eq.trans (keep_atHome (hv.sub rfl) _ _ _ _ ?_) ?_ | refine Eq.trans (keep_translated (hv.sub rfl) _ _ _ _ _ _ _ _ ?_ ?_) ?_ | refine Eq.trans (keep_take (hv.sub rfl) _ _ _ _ _ _ ?_) ?_ | split | dsimp only | intro _ | grind [keep_atHome (hv.sub rfl), keep_deny (hv.sub rfl), keep_translated (hv.sub rfl), keep_closeJoin (hv.sub rfl), keep_take (hv.sub rfl), keep_openJoin (hv.sub rfl)]
theorem keep_execRdUncached {α : Type} {v : State → α} (hv : Ig 340100433584 v) (p : ℕ) (h : Hdr) (s : State) :
    ∀ t', (execRdUncached p h s) = .next t' → v t' = v s := by
  intro t ht; unfold execRdUncached settled at ht; rw [← Host.Outcome.next.inj ht, keep_settle (hv.sub rfl)]; repeat' first | rfl | (simp [keep_uncachedRead (hv.sub rfl), foldl_keep, foldl_keep2, foldl_keep22, foldl_keep1, apply_ite v]; done) | rw [foldl_keep (v := v)] | rw [foldl_keep2 (v := v)] | rw [foldl_keep1 (v := v)] | rw [foldl_keep22 (v := v)] | refine getD_keep (v := v) ?_ ?_ | split | dsimp only | intro _ | grind [keep_uncachedRead (hv.sub rfl)]
theorem keep_execCleanEvict {α : Type} {v : State → α} (hv : Ig 340100433584 v) (p : ℕ) (h : Hdr) (agent : ℕ) (left : ℕ) (s : State) :
    ∀ t', (execCleanEvict p h agent left s) = .next t' → v t' = v s := by
  intro t ht; unfold execCleanEvict settled at ht; rw [← Host.Outcome.next.inj ht, keep_settle (hv.sub rfl)]; repeat' first | rfl | (simp [keep_atHome (hv.sub rfl), keep_deny (hv.sub rfl), keep_translated (hv.sub rfl), keep_reply (hv.sub rfl), keep_consume (hv.sub rfl), keep_take (hv.sub rfl), keep_tookOne (hv.sub rfl), foldl_keep, foldl_keep2, foldl_keep22, foldl_keep1, apply_ite v]; done) | rw [foldl_keep (v := v)] | rw [foldl_keep2 (v := v)] | rw [foldl_keep1 (v := v)] | rw [foldl_keep22 (v := v)] | refine getD_keep (v := v) ?_ ?_ | refine Eq.trans (keep_atHome (hv.sub rfl) _ _ _ _ ?_) ?_ | refine Eq.trans (keep_translated (hv.sub rfl) _ _ _ _ _ _ _ _ ?_ ?_) ?_ | refine Eq.trans (keep_take (hv.sub rfl) _ _ _ _ _ _ ?_) ?_ | split | dsimp only | intro _ | grind [keep_atHome (hv.sub rfl), keep_deny (hv.sub rfl), keep_translated (hv.sub rfl), keep_reply (hv.sub rfl), keep_consume (hv.sub rfl), keep_take (hv.sub rfl), keep_tookOne (hv.sub rfl)]
theorem keep_execWrBack {α : Type} {v : State → α} (hv : Ig 340100433584 v) (p : ℕ) (h : Hdr) (agent : ℕ) (data : List Byte) (s : State) :
    ∀ t', (execWrBack p h agent data s) = .next t' → v t' = v s := by
  intro t ht; unfold execWrBack settled at ht; rw [← Host.Outcome.next.inj ht, keep_settle (hv.sub rfl)]; repeat' first | rfl | (simp [keep_atHome (hv.sub rfl), keep_deny (hv.sub rfl), keep_translated (hv.sub rfl), keep_take (hv.sub rfl), keep_openJoin (hv.sub rfl), foldl_keep, foldl_keep2, foldl_keep22, foldl_keep1, apply_ite v]; done) | rw [foldl_keep (v := v)] | rw [foldl_keep2 (v := v)] | rw [foldl_keep1 (v := v)] | rw [foldl_keep22 (v := v)] | refine getD_keep (v := v) ?_ ?_ | refine Eq.trans (keep_atHome (hv.sub rfl) _ _ _ _ ?_) ?_ | refine Eq.trans (keep_translated (hv.sub rfl) _ _ _ _ _ _ _ _ ?_ ?_) ?_ | refine Eq.trans (keep_take (hv.sub rfl) _ _ _ _ _ _ ?_) ?_ | split | dsimp only | intro _ | grind [keep_atHome (hv.sub rfl), keep_deny (hv.sub rfl), keep_translated (hv.sub rfl), keep_take (hv.sub rfl), keep_openJoin (hv.sub rfl)]
theorem keep_writePieces {α : Type} {v : State → α} (hv : Ig 305052811936 v) (s : State) (p : ℕ) (h : Hdr) (cmd : Instr) (part : ℕ) (kind : ℕ) (op : HomeOp) (agent : ℕ) (mask : ℕ) (data : List Byte) (cold : Bool) (pcs : List (ℕ × ℕ × ℕ × ℕ × ℕ × ℕ)) :
    v (State.writePieces s p h cmd part kind op agent mask data cold pcs) = v s := by
  simp [State.writePieces, keep_closeJoin (hv.sub rfl), keep_take (hv.sub rfl), keep_openJoin (hv.sub rfl), foldl_keep, foldl_keep2, foldl_keep22, foldl_keep1, apply_ite v]; done
theorem keep_execWrThru {α : Type} {v : State → α} (hv : Ig 340100433584 v) (p : ℕ) (h : Hdr) (agent : ℕ) (mask : ℕ) (data : List Byte) (s : State) :
    ∀ t', (execWrThru p h agent mask data s) = .next t' → v t' = v s := by
  intro t ht; unfold execWrThru settled at ht; rw [← Host.Outcome.next.inj ht, keep_settle (hv.sub rfl)]; repeat' first | rfl | (simp [keep_atHome (hv.sub rfl), keep_deny (hv.sub rfl), keep_translated (hv.sub rfl), keep_writePieces (hv.sub rfl), foldl_keep, foldl_keep2, foldl_keep22, foldl_keep1, apply_ite v]; done) | rw [foldl_keep (v := v)] | rw [foldl_keep2 (v := v)] | rw [foldl_keep1 (v := v)] | rw [foldl_keep22 (v := v)] | refine getD_keep (v := v) ?_ ?_ | refine Eq.trans (keep_atHome (hv.sub rfl) _ _ _ _ ?_) ?_ | refine Eq.trans (keep_translated (hv.sub rfl) _ _ _ _ _ _ _ _ ?_ ?_) ?_ | split | dsimp only | intro _ | grind [keep_atHome (hv.sub rfl), keep_deny (hv.sub rfl), keep_translated (hv.sub rfl), keep_writePieces (hv.sub rfl)]
theorem keep_messageWrite {α : Type} {v : State → α} (hv : Ig 305069606560 v) (s : State) (p : ℕ) (h : Hdr) (op : HomeOp) (data : List Byte) (cmd : Instr) :
    v (State.messageWrite s p h op data cmd) = v s := by
  unfold State.messageWrite; repeat' first | rfl | (simp [keep_atHome (hv.sub rfl), keep_deny (hv.sub rfl), keep_consume (hv.sub rfl), keep_msgTake (hv.sub rfl), keep_translated (hv.sub rfl), keep_msgDone (hv.sub rfl), keep_cmp (hv.sub rfl), keep_stall (hv.sub rfl), keep_writePieces (hv.sub rfl), foldl_keep, foldl_keep2, foldl_keep22, foldl_keep1, apply_ite v]; done) | rw [foldl_keep (v := v)] | rw [foldl_keep2 (v := v)] | rw [foldl_keep1 (v := v)] | rw [foldl_keep22 (v := v)] | refine getD_keep (v := v) ?_ ?_ | refine Eq.trans (keep_atHome (hv.sub rfl) _ _ _ _ ?_) ?_ | refine Eq.trans (keep_translated (hv.sub rfl) _ _ _ _ _ _ _ _ ?_ ?_) ?_ | split | dsimp only | intro _ | grind [keep_atHome (hv.sub rfl), keep_deny (hv.sub rfl), keep_consume (hv.sub rfl), keep_msgTake (hv.sub rfl), keep_translated (hv.sub rfl), keep_msgDone (hv.sub rfl), keep_cmp (hv.sub rfl), keep_stall (hv.sub rfl), keep_writePieces (hv.sub rfl)]
theorem keep_execWrUncached {α : Type} {v : State → α} (hv : Ig 340100433584 v) (p : ℕ) (h : Hdr) (data : List Byte) (s : State) :
    ∀ t', (execWrUncached p h data s) = .next t' → v t' = v s := by
  intro t ht; unfold execWrUncached settled at ht; rw [← Host.Outcome.next.inj ht, keep_settle (hv.sub rfl)]; repeat' first | rfl | (simp [keep_messageWrite (hv.sub rfl), foldl_keep, foldl_keep2, foldl_keep22, foldl_keep1, apply_ite v]; done) | rw [foldl_keep (v := v)] | rw [foldl_keep2 (v := v)] | rw [foldl_keep1 (v := v)] | rw [foldl_keep22 (v := v)] | refine getD_keep (v := v) ?_ ?_ | split | dsimp only | intro _ | grind [keep_messageWrite (hv.sub rfl)]
theorem keep_execWrStash {α : Type} {v : State → α} (hv : Ig 340100433584 v) (p : ℕ) (h : Hdr) (target : ℕ) (offer : ℕ) (data : List Byte) (s : State) :
    ∀ t', (execWrStash p h target offer data s) = .next t' → v t' = v s := by
  intro t ht; unfold execWrStash settled at ht; rw [← Host.Outcome.next.inj ht, keep_settle (hv.sub rfl)]; repeat' first | rfl | (simp [keep_messageWrite (hv.sub rfl), foldl_keep, foldl_keep2, foldl_keep22, foldl_keep1, apply_ite v]; done) | rw [foldl_keep (v := v)] | rw [foldl_keep2 (v := v)] | rw [foldl_keep1 (v := v)] | rw [foldl_keep22 (v := v)] | refine getD_keep (v := v) ?_ ?_ | split | dsimp only | intro _ | grind [keep_messageWrite (hv.sub rfl)]
theorem keep_execAtomic {α : Type} {v : State → α} (hv : Ig 340100433584 v) (p : ℕ) (h : Hdr) (op : ℕ) (width : Width) (operands : List ℕ) (s : State) :
    ∀ t', (execAtomic p h op width operands s) = .next t' → v t' = v s := by
  intro t ht; unfold execAtomic settled at ht; rw [← Host.Outcome.next.inj ht, keep_settle (hv.sub rfl)]; repeat' first | rfl | (simp [keep_atHome (hv.sub rfl), keep_deny (hv.sub rfl), keep_translated (hv.sub rfl), keep_writePieces (hv.sub rfl), foldl_keep, foldl_keep2, foldl_keep22, foldl_keep1, apply_ite v]; done) | rw [foldl_keep (v := v)] | rw [foldl_keep2 (v := v)] | rw [foldl_keep1 (v := v)] | rw [foldl_keep22 (v := v)] | refine getD_keep (v := v) ?_ ?_ | refine Eq.trans (keep_atHome (hv.sub rfl) _ _ _ _ ?_) ?_ | refine Eq.trans (keep_translated (hv.sub rfl) _ _ _ _ _ _ _ _ ?_ ?_) ?_ | split | dsimp only | intro _ | grind [keep_atHome (hv.sub rfl), keep_deny (hv.sub rfl), keep_translated (hv.sub rfl), keep_writePieces (hv.sub rfl)]
theorem keep_rerun {α : Type} {v : State → α} (hv : Ig 477808609008 v) (s : State) (i : Instr) :
    v (State.rerun s i) = v s := by
  unfold State.rerun
  extract_lets out
  have h : ∀ t, out = .next t → v t = v s := by
    intro t ht
    simp only [out] at ht
    split at ht
    · exact keep_execRdShared (hv.sub rfl) _ _ _ _ t ht
    · exact keep_execRdOwn (hv.sub rfl) _ _ _ _ t ht
    · exact keep_execUpgrade (hv.sub rfl) _ _ _ _ t ht
    · exact keep_execRdUncached (hv.sub rfl) _ _ _ t ht
    · exact keep_execCleanEvict (hv.sub rfl) _ _ _ _ _ t ht
    · exact keep_execWrBack (hv.sub rfl) _ _ _ _ _ t ht
    · exact keep_execWrThru (hv.sub rfl) _ _ _ _ _ _ t ht
    · exact keep_execWrUncached (hv.sub rfl) _ _ _ _ t ht
    · exact keep_execWrStash (hv.sub rfl) _ _ _ _ _ _ t ht
    · exact keep_execAtomic (hv.sub rfl) _ _ _ _ _ _ t ht
    · exact keep_execPublish (hv.sub rfl) _ _ _ _ _ _ _ t ht
    · exact keep_execCollWr (hv.sub rfl) _ _ _ _ _ _ _ t ht
    · exact keep_execFabricDoorbell (hv.sub rfl) _ _ _ _ _ t ht
    · exact keep_execDbRejectsRead (hv.sub rfl) _ _ _ t ht
    · exact keep_execEqCiWrite (hv.sub rfl) _ _ _ _ t ht
    · exact keep_execEqDroppedRead (hv.sub rfl) _ _ _ t ht
    · exact keep_execMbLockRead (hv.sub rfl) _ _ _ t ht
    · exact keep_execMbLockWrite (hv.sub rfl) _ _ _ _ t ht
    · exact keep_execMbDoorbellWrite (hv.sub rfl) _ _ _ _ t ht
    · exact keep_execMbRequestWrite (hv.sub rfl) _ _ _ _ _ t ht
    · exact keep_execMbRejectsRead (hv.sub rfl) _ _ _ t ht
    · exact keep_execTransitForward (hv.sub rfl) _ _ _ t ht
    · cases ht; rfl
  clear_value out
  split
  · exact h _ rfl
  · rfl
theorem keep_responded {α : Type} {v : State → α} (hv : Ig 305052811936 v) (s : State) (p : ℕ) (h : Hdr) (txn : ℕ) (ks : List AwaitKind) (f : Txn → State → State) (k_f : ∀ z0 z1, v (f z0 z1) = v z1) :
    v (State.responded s p h txn ks f) = v s := by
  unfold State.responded; repeat' first | rfl | (simp [keep_arrive (hv.sub rfl), keep_consume (hv.sub rfl), keep_advance (hv.sub rfl), keep_modTxn (hv.sub rfl), keep_closeOwn (hv.sub rfl), k_f, foldl_keep, foldl_keep2, foldl_keep22, foldl_keep1, apply_ite v]; done) | rw [foldl_keep (v := v)] | rw [foldl_keep2 (v := v)] | rw [foldl_keep1 (v := v)] | rw [foldl_keep22 (v := v)] | refine getD_keep (v := v) ?_ ?_ | refine Eq.trans (keep_arrive (hv.sub rfl) _ _ _ _ ?_) ?_ | split | dsimp only | intro _ | grind [keep_arrive (hv.sub rfl), keep_consume (hv.sub rfl), keep_advance (hv.sub rfl), keep_modTxn (hv.sub rfl), keep_closeOwn (hv.sub rfl), k_f]
theorem keep_takeFirst {α : Type} {v : State → α} (hv : Ig 477808609008 v) (s : State) (hub : ℕ) (x1 : List Instr) :
    v (State.takeFirst s hub x1) = v s := by
  fun_induction State.takeFirst s hub x1 <;> repeat' first | rfl | assumption | (simp [keep_rerun (hv.sub rfl), keep_updCoh (hv.sub rfl), foldl_keep, foldl_keep2, foldl_keep22, foldl_keep1, apply_ite v]; done) | (simp_all [keep_rerun (hv.sub rfl), keep_updCoh (hv.sub rfl), foldl_keep, foldl_keep2, foldl_keep22, foldl_keep1, apply_ite v]; done) | rw [foldl_keep (v := v)] | rw [foldl_keep2 (v := v)] | rw [foldl_keep1 (v := v)] | rw [foldl_keep22 (v := v)] | refine getD_keep (v := v) ?_ ?_ | split | dsimp only | intro _ | grind [keep_rerun (hv.sub rfl), keep_updCoh (hv.sub rfl)]
theorem keep_leaseAck {α : Type} {v : State → α} (hv : Ig 287762808832 v) (s : State) (p : ℕ) (h : Hdr) (agent : ℕ) (seq : ℕ) (time : ℕ) (res : ℕ) :
    v (State.leaseAck s p h agent seq time res) = v s := by
  simp [State.leaseAck, keep_reply (hv.sub rfl), foldl_keep, foldl_keep2, foldl_keep22, foldl_keep1, apply_ite v]; done
theorem keep_reclaimed {α : Type} {v : State → α} (hv : Ig 41943712 v) (s : State) (agent : ℕ) :
    v (State.reclaimed s agent) = v s := by
  unfold State.reclaimed; (repeat' split) <;> first | (simp [keep_modAgent (hv.sub rfl), keep_postFm (hv.sub rfl), keep_postPart (hv.sub rfl), keep_respond (hv.sub rfl), keep_updCoh (hv.sub rfl), foldl_keep, foldl_keep2, foldl_keep22, foldl_keep1, apply_ite v]; done) | grind [keep_modAgent (hv.sub rfl), keep_postFm (hv.sub rfl), keep_postPart (hv.sub rfl), keep_respond (hv.sub rfl), keep_updCoh (hv.sub rfl)]
theorem keep_linkStat {α : Type} {v : State → α} (hv : Ig 4294967296 v) (s : State) (p : ℕ) (i : ℕ) (n : ℕ) :
    v (State.linkStat s p i n) = v s := by
  simp [State.linkStat, keep_updPort (hv.sub rfl), foldl_keep, foldl_keep2, foldl_keep22, foldl_keep1, apply_ite v]; done
theorem keep_portEvent {α : Type} {v : State → α} (hv : Ig 8389120 v) (s : State) (typ : ℕ) (p : ℕ) :
    v (State.portEvent s typ p) = v s := by
  simp [State.portEvent, keep_postFm (hv.sub rfl), foldl_keep, foldl_keep2, foldl_keep22, foldl_keep1, apply_ite v]; done
theorem keep_linkLoss {α : Type} {v : State → α} (hv : Ig 287940018824 v) (s : State) (p : ℕ) :
    v (State.linkLoss s p) = v s := by
  unfold State.linkLoss; (repeat' split) <;> first | (simp [keep_startTraining (hv.sub rfl), keep_loseLink (hv.sub rfl), keep_portEvent (hv.sub rfl), keep_postPart (hv.sub rfl), keep_windowOver (hv.sub rfl), foldl_keep, foldl_keep2, foldl_keep22, foldl_keep1, apply_ite v]; done) | grind [keep_startTraining (hv.sub rfl), keep_loseLink (hv.sub rfl), keep_portEvent (hv.sub rfl), keep_postPart (hv.sub rfl), keep_windowOver (hv.sub rfl)]
theorem keep_protocolError {α : Type} {v : State → α} (hv : Ig 287940018824 v) (s : State) (p : ℕ) :
    v (State.protocolError s p) = v s := by
  simp [State.protocolError, keep_linkLoss (hv.sub rfl), keep_linkStat (hv.sub rfl), foldl_keep, foldl_keep2, foldl_keep22, foldl_keep1, apply_ite v]; done
theorem keep_acceptFlit {α : Type} {v : State → α} (hv : Ig 287940018824 v) (s : State) (p : ℕ) (f : Flit) :
    v (State.acceptFlit s p f) = v s := by
  unfold State.acceptFlit; (repeat' split) <;> first | (simp [keep_protocolError (hv.sub rfl), keep_abortCopy (hv.sub rfl), keep_linkStat (hv.sub rfl), keep_updLink (hv.sub rfl), keep_updPort (hv.sub rfl), foldl_keep, foldl_keep2, foldl_keep22, foldl_keep1, apply_ite v]; done) | grind [keep_protocolError (hv.sub rfl), keep_abortCopy (hv.sub rfl), keep_linkStat (hv.sub rfl), keep_updLink (hv.sub rfl), keep_updPort (hv.sub rfl)]
theorem keep_wake {α : Type} {v : State → α} (hv : Ig 4294967296 v) (s : State) (p : ℕ) :
    v (State.wake s p) = v s := by
  simp [State.wake, keep_updPort (hv.sub rfl), keep_silence (hv.sub rfl), foldl_keep, foldl_keep2, foldl_keep22, foldl_keep1, apply_ite v]; done
theorem keep_enterPl2 {α : Type} {v : State → α} (hv : Ig 4294967296 v) (s : State) (p : ℕ) :
    v (State.enterPl2 s p) = v s := by
  simp [State.enterPl2, keep_updPort (hv.sub rfl), keep_wake (hv.sub rfl), foldl_keep, foldl_keep2, foldl_keep22, foldl_keep1, apply_ite v]; done
theorem keep_pl2If {α : Type} {v : State → α} (hv : Ig 4294967296 v) (s : State) (p : ℕ) :
    v (State.pl2If s p) = v s := by
  simp [State.pl2If, keep_enterPl2 (hv.sub rfl), foldl_keep, foldl_keep2, foldl_keep22, foldl_keep1, apply_ite v]; done
theorem keep_upReceive {α : Type} {v : State → α} (hv : Ig 287940018824 v) (s : State) (p : ℕ) (f : Flit) :
    v (State.upReceive s p f) = v s := by
  simp [State.upReceive, keep_protocolError (hv.sub rfl), keep_updLink (hv.sub rfl), keep_acceptFlit (hv.sub rfl), keep_linkStat (hv.sub rfl), keep_pl2If (hv.sub rfl), foldl_keep, foldl_keep2, foldl_keep22, foldl_keep1, apply_ite v]; done
theorem keep_failTraining {α : Type} {v : State → α} (hv : Ig 4303356552 v) (s : State) (p : ℕ) (cause : ℕ) :
    v (State.failTraining s p cause) = v s := by
  simp [State.failTraining, keep_silence (hv.sub rfl), keep_updPort (hv.sub rfl), keep_portEvent (hv.sub rfl), keep_windowOver (hv.sub rfl), foldl_keep, foldl_keep2, foldl_keep22, foldl_keep1, apply_ite v]; done
theorem keep_admitStart {α : Type} {v : State → α} (hv : Ig 4294967296 v) (s : State) (p : ℕ) :
    v (State.admitStart s p).2 = v s := by
  unfold State.admitStart; (repeat' split) <;> first | (simp [keep_admitPort (hv.sub rfl), keep_updPort (hv.sub rfl), foldl_keep, foldl_keep2, foldl_keep22, foldl_keep1, apply_ite v]; done) | grind [keep_admitPort (hv.sub rfl), keep_updPort (hv.sub rfl)]
theorem keep_admission {α : Type} {v : State → α} (hv : Ig 4294967296 v) (s : State) (p : ℕ) :
    v (State.admission s p).2 = v s := by
  unfold State.admission; (repeat' split) <;> first | (simp [keep_admitStart (hv.sub rfl), keep_admitPort (hv.sub rfl), keep_updPort (hv.sub rfl), foldl_keep, foldl_keep2, foldl_keep22, foldl_keep1, apply_ite v]; done) | grind [keep_admitStart (hv.sub rfl), keep_admitPort (hv.sub rfl), keep_updPort (hv.sub rfl)]
theorem keep_declareUp {α : Type} {v : State → α} (hv : Ig 4303356552 v) (s : State) (p : ℕ) :
    v (State.declareUp s p) = v s := by
  unfold State.declareUp; (repeat' split) <;> first | (simp [keep_updPort (hv.sub rfl), keep_admission (hv.sub rfl), keep_portEvent (hv.sub rfl), keep_partnerChanged (hv.sub rfl), keep_topoCheck (hv.sub rfl), foldl_keep, foldl_keep2, foldl_keep22, foldl_keep1, apply_ite v]; done) | grind [keep_updPort (hv.sub rfl), keep_admission (hv.sub rfl), keep_portEvent (hv.sub rfl), keep_partnerChanged (hv.sub rfl), keep_topoCheck (hv.sub rfl)]
theorem keep_takeInit {α : Type} {v : State → α} (hv : Ig 287940018824 v) (s : State) (p : ℕ) (grants : List ℕ) (version : ℕ) (rx : ℕ) :
    v (State.takeInit s p grants version rx) = v s := by
  simp [State.takeInit, keep_protocolError (hv.sub rfl), keep_failTraining (hv.sub rfl), keep_updLink (hv.sub rfl), keep_declareUp (hv.sub rfl), foldl_keep, foldl_keep2, foldl_keep22, foldl_keep1, apply_ite v]; done
theorem keep_initReceive {α : Type} {v : State → α} (hv : Ig 287940018824 v) (s : State) (p : ℕ) (f : Flit) :
    v (State.initReceive s p f) = v s := by
  simp [State.initReceive, keep_failTraining (hv.sub rfl), keep_linkStat (hv.sub rfl), keep_takeInit (hv.sub rfl), foldl_keep, foldl_keep2, foldl_keep22, foldl_keep1, apply_ite v]; done
theorem keep_inStep {α : Type} {v : State → α} (hv : Ig 0 v) (s : State) (p : ℕ) (step : ℕ) (f : Port → State → State) (k_f : ∀ z0 z1, v (f z0 z1) = v z1) :
    v (State.inStep s p step f) = v s := by
  simp [State.inStep, k_f, foldl_keep, foldl_keep2, foldl_keep22, foldl_keep1, apply_ite v]; done
theorem keep_onWire {α : Type} {v : State → α} (hv : Ig 4294967296 v) (s : State) (p : ℕ) (f : Flit) :
    v (State.onWire s p f) = v s := by
  simp [State.onWire, keep_updLink (hv.sub rfl), foldl_keep, foldl_keep2, foldl_keep22, foldl_keep1, apply_ite v]; done
theorem keep_putFlit {α : Type} {v : State → α} (hv : Ig 279172874240 v) (s : State) (p : ℕ) (f : Flit) :
    v (State.putFlit s p f) = v s := by
  unfold State.putFlit; (repeat' split) <;> first | (simp [keep_updLink (hv.sub rfl), keep_onWire (hv.sub rfl), foldl_keep, foldl_keep2, foldl_keep22, foldl_keep1, apply_ite v]; done) | grind [keep_updLink (hv.sub rfl), keep_onWire (hv.sub rfl)]
theorem keep_stopCut {α : Type} {v : State → α} (hv : Ig 4294967296 v) (s : State) (p : ℕ) :
    v (State.stopCut s p) = v s := by
  simp [State.stopCut, keep_updLink (hv.sub rfl), keep_linkStat (hv.sub rfl), foldl_keep, foldl_keep2, foldl_keep22, foldl_keep1, apply_ite v]; done
theorem keep_cutHolder {α : Type} {v : State → α} (hv : Ig 4294967296 v) (s : State) (p : ℕ) (h : Holder) :
    v (State.cutHolder s p h) = v s := by
  simp [State.cutHolder, keep_updLink (hv.sub rfl), keep_linkStat (hv.sub rfl), foldl_keep, foldl_keep2, foldl_keep22, foldl_keep1, apply_ite v]; done
theorem keep_endGrant {α : Type} {v : State → α} (hv : Ig 4294967296 v) (s : State) (p : ℕ) :
    v (State.endGrant s p) = v s := by
  simp [State.endGrant, keep_updLink (hv.sub rfl), foldl_keep, foldl_keep2, foldl_keep22, foldl_keep1, apply_ite v]; done
theorem keep_spareServed {α : Type} {v : State → α} (hv : Ig 1048576 v) (s : State) (h : Hdr) :
    v (State.spareServed s h) = v s := by
  unfold State.spareServed; (repeat' split) <;> first | (simp [keep_modDesc (hv.sub rfl), foldl_keep, foldl_keep2, foldl_keep22, foldl_keep1, apply_ite v]; done) | grind [keep_modDesc (hv.sub rfl)]
theorem keep_grantNext {α : Type} {v : State → α} (hv : Ig 4296015872 v) (s : State) (p : ℕ) (i : ℕ) :
    v (State.grantNext s p i) = v s := by
  unfold State.grantNext; (repeat' split) <;> first | (simp [keep_updLink (hv.sub rfl), keep_spareServed (hv.sub rfl), foldl_keep, foldl_keep2, foldl_keep22, foldl_keep1, apply_ite v]; done) | grind [keep_updLink (hv.sub rfl), keep_spareServed (hv.sub rfl)]
theorem keep_fill {α : Type} {v : State → α} (hv : Ig 4296015872 v) (p : ℕ) (x1 : ℕ) (x2 : List LUnit) (x3 : ℕ) (x4 : State) :
    v (State.fill p x1 x2 x3 x4).2.2 = v x4 := by
  fun_induction State.fill p x1 x2 x3 x4 <;> repeat' first | rfl | assumption | (simp [keep_stopCut (hv.sub rfl), keep_cutHolder (hv.sub rfl), keep_updLink (hv.sub rfl), keep_endGrant (hv.sub rfl), keep_grantNext (hv.sub rfl), foldl_keep, foldl_keep2, foldl_keep22, foldl_keep1, apply_ite v]; done) | (simp_all [keep_stopCut (hv.sub rfl), keep_cutHolder (hv.sub rfl), keep_updLink (hv.sub rfl), keep_endGrant (hv.sub rfl), keep_grantNext (hv.sub rfl), foldl_keep, foldl_keep2, foldl_keep22, foldl_keep1, apply_ite v]; done) | rw [foldl_keep (v := v)] | rw [foldl_keep2 (v := v)] | rw [foldl_keep1 (v := v)] | rw [foldl_keep22 (v := v)] | refine getD_keep (v := v) ?_ ?_ | split | dsimp only | intro _ | grind [keep_stopCut (hv.sub rfl), keep_cutHolder (hv.sub rfl), keep_updLink (hv.sub rfl), keep_endGrant (hv.sub rfl), keep_grantNext (hv.sub rfl)]
theorem keep_sendFlit {α : Type} {v : State → α} (hv : Ig 279173922816 v) (s : State) (p : ℕ) :
    v (State.sendFlit s p) = v s := by
  unfold State.sendFlit; (repeat' split) <;> first | (simp [keep_putFlit (hv.sub rfl), keep_updLink (hv.sub rfl), keep_linkStat (hv.sub rfl), keep_fill (hv.sub rfl), keep_updPort (hv.sub rfl), foldl_keep, foldl_keep2, foldl_keep22, foldl_keep1, apply_ite v]; done) | grind [keep_putFlit (hv.sub rfl), keep_updLink (hv.sub rfl), keep_linkStat (hv.sub rfl), keep_fill (hv.sub rfl), keep_updPort (hv.sub rfl)]
theorem keep_slot {α : Type} {v : State → α} (hv : Ig 279173922816 v) (s : State) (p : ℕ) :
    v (State.slot s p) = v s := by
  simp [State.slot, keep_pl2If (hv.sub rfl), keep_sendFlit (hv.sub rfl), foldl_keep, foldl_keep2, foldl_keep22, foldl_keep1, apply_ite v]; done
theorem keep_awake {α : Type} {v : State → α} (hv : Ig 0 v) (s : State) (p : ℕ) (f : Port → State → State) (k_f : ∀ z0 z1, v (f z0 z1) = v z1) :
    v (State.awake s p f) = v s := by
  simp [State.awake, k_f, foldl_keep, foldl_keep2, foldl_keep22, foldl_keep1, apply_ite v]; done
theorem keep_replayExpiry {α : Type} {v : State → α} (hv : Ig 287940018824 v) (s : State) (p : ℕ) :
    v (State.replayExpiry s p) = v s := by
  simp [State.replayExpiry, keep_updLink (hv.sub rfl), keep_linkStat (hv.sub rfl), keep_linkLoss (hv.sub rfl), foldl_keep, foldl_keep2, foldl_keep22, foldl_keep1, apply_ite v]; done
theorem keep_updTrain {α : Type} {v : State → α} (hv : Ig 4294967296 v) (s : State) (p : ℕ) (f : Training → Training) :
    v (State.updTrain s p f) = v s := by
  simp [State.updTrain, keep_updPort (hv.sub rfl), foldl_keep, foldl_keep2, foldl_keep22, foldl_keep1, apply_ite v]; done
theorem keep_aim {α : Type} {v : State → α} (hv : Ig 4294967296 v) (s : State) (p : ℕ) (mode : ℕ) (b : BitVec 512) :
    v (State.aim s p mode b) = v s := by
  simp [State.aim, keep_updTrain (hv.sub rfl), foldl_keep, foldl_keep2, foldl_keep22, foldl_keep1, apply_ite v]; done
theorem keep_exchanged {α : Type} {v : State → α} (hv : Ig 4303356552 v) (s : State) (p : ℕ) :
    v (State.exchanged s p) = v s := by
  unfold State.exchanged; (repeat' split) <;> first | (simp [keep_aim (hv.sub rfl), keep_failTraining (hv.sub rfl), foldl_keep, foldl_keep2, foldl_keep22, foldl_keep1, apply_ite v]; done) | grind [keep_aim (hv.sub rfl), keep_failTraining (hv.sub rfl)]
theorem keep_confirm {α : Type} {v : State → α} (hv : Ig 4303356552 v) (s : State) (p : ℕ) :
    v (State.confirm s p) = v s := by
  unfold State.confirm; (repeat' split) <;> first | (simp [keep_failTraining (hv.sub rfl), keep_updTrain (hv.sub rfl), keep_aim (hv.sub rfl), foldl_keep, foldl_keep2, foldl_keep22, foldl_keep1, apply_ite v]; done) | grind [keep_failTraining (hv.sub rfl), keep_updTrain (hv.sub rfl), keep_aim (hv.sub rfl)]
theorem keep_newRecord {α : Type} {v : State → α} (hv : Ig 274877906944 v) (s : State) (t : Training) (lanes : ℕ) :
    v (State.newRecord s t lanes).2 = v s := by
  unfold State.newRecord; repeat' first | rfl | (simp [keep_draw (hv.sub rfl), foldl_keep, foldl_keep2, foldl_keep22, foldl_keep1, apply_ite v]; done) | rw [foldl_keep (v := v)] | rw [foldl_keep2 (v := v)] | rw [foldl_keep1 (v := v)] | rw [foldl_keep22 (v := v)] | refine getD_keep (v := v) ?_ ?_ | split | dsimp only | intro _ | grind [keep_draw (hv.sub rfl)]
theorem keep_linkMsg {α : Type} {v : State → α} (hv : Ig 4294967296 v) (s : State) (p : ℕ) (op : ℕ) :
    v (State.linkMsg s p op) = v s := by
  simp [State.linkMsg, keep_egress (hv.sub rfl), foldl_keep, foldl_keep2, foldl_keep22, foldl_keep1, apply_ite v]; done
theorem keep_takeLinkMsg {α : Type} {v : State → α} (hv : Ig 12918456320 v) (s : State) (p : ℕ) (op : ℕ) :
    v (State.takeLinkMsg s p op) = v s := by
  unfold State.takeLinkMsg; (repeat' split) <;> first | (simp [keep_consume (hv.sub rfl), foldl_keep, foldl_keep2, foldl_keep22, foldl_keep1, apply_ite v]; done) | grind [keep_consume (hv.sub rfl)]
theorem keep_refreshDue {α : Type} {v : State → α} (hv : Ig 75497984 v) (s : State) (u : ℕ) :
    v (State.refreshDue s u) = v s := by
  simp [State.refreshDue, keep_updUnit (hv.sub rfl), keep_neighbourRefresh (hv.sub rfl), foldl_keep, foldl_keep2, foldl_keep22, foldl_keep1, apply_ite v]; done
theorem keep_eligible {α : Type} {v : State → α} (hv : Ig 67108864 v) (s : State) (g : ℕ) (i : ℕ) :
    v (State.eligible s g i).2 = v s := by
  unfold State.eligible; (repeat' split) <;> first | (simp [keep_updGroup (hv.sub rfl), foldl_keep, foldl_keep2, foldl_keep22, foldl_keep1, apply_ite v]; done) | grind [keep_updGroup (hv.sub rfl)]
theorem keep_slotUnit {α : Type} {v : State → α} (hv : Ig 110133920 v) (s : State) (u : ℕ) (p : ℕ) (i : ℕ) (owned : Bool) :
    v (State.slotUnit s u p i owned) = v s := by
  unfold State.slotUnit; (repeat' split) <;> first | (simp [keep_updUnit (hv.sub rfl), keep_modDesc (hv.sub rfl), keep_issue (hv.sub rfl), foldl_keep, foldl_keep2, foldl_keep22, foldl_keep1, apply_ite v]; done) | grind [keep_updUnit (hv.sub rfl), keep_modDesc (hv.sub rfl), keep_issue (hv.sub rfl)]
theorem keep_advancePass {α : Type} {v : State → α} (hv : Ig 67108864 v) (s : State) (u : ℕ) :
    v (State.advancePass s u) = v s := by
  simp [State.advancePass, keep_updUnit (hv.sub rfl), foldl_keep, foldl_keep2, foldl_keep22, foldl_keep1, apply_ite v]; done
theorem keep_recommend {α : Type} {v : State → α} (hv : Ig 75497984 v) (s : State) (u : ℕ) (sec : ℕ) (bank : Bool) :
    v (State.recommend s u sec bank) = v s := by
  simp [State.recommend, keep_updUnit (hv.sub rfl), keep_log (hv.sub rfl), keep_postFm (hv.sub rfl), foldl_keep, foldl_keep2, foldl_keep22, foldl_keep1, apply_ite v]; done
theorem keep_scrubCorrected {α : Type} {v : State → α} (hv : Ig 75497984 v) (s : State) (u : ℕ) (sec : ℕ) (d : Decoded) :
    v (State.scrubCorrected s u sec d) = v s := by
  simp [State.scrubCorrected, keep_corrected (hv.sub rfl), keep_updUnit (hv.sub rfl), keep_recommend (hv.sub rfl), keep_store (hv.sub rfl), keep_command_ (hv.sub rfl), foldl_keep, foldl_keep2, foldl_keep22, foldl_keep1, apply_ite v]; done
theorem keep_hubEvents {α : Type} {v : State → α} (hv : Ig 8388736 v) (s : State) (hs : List ℕ) (cause : ℕ) (fin : Bool) :
    v (State.hubEvents s hs cause fin) = v s := by
  simp [State.hubEvents, keep_postParts (hv.sub rfl), foldl_keep, foldl_keep2, foldl_keep22, foldl_keep1, apply_ite v]; done
theorem keep_averageHigh {α : Type} {v : State → α} (hv : Ig 137447342208 v) (s : State) :
    v (State.averageHigh s) = v s := by
  simp [State.averageHigh, keep_updPower (hv.sub rfl), keep_hubEvents (hv.sub rfl), foldl_keep, foldl_keep2, foldl_keep22, foldl_keep1, apply_ite v]; done
theorem keep_averageLow {α : Type} {v : State → α} (hv : Ig 137447342208 v) (s : State) :
    v (State.averageLow s) = v s := by
  unfold State.averageLow; (repeat' split) <;> first | (simp [keep_hubEvents (hv.sub rfl), keep_updPower (hv.sub rfl), foldl_keep, foldl_keep2, foldl_keep22, foldl_keep1, apply_ite v]; done) | grind [keep_hubEvents (hv.sub rfl), keep_updPower (hv.sub rfl)]
theorem keep_throttlePin {α : Type} {v : State → α} (hv : Ig 8388752 v) (s : State) (low : Bool) :
    v (State.throttlePin s low) = v s := by
  simp [State.throttlePin, keep_hubEvents (hv.sub rfl), hv.pins rfl, foldl_keep, foldl_keep2, foldl_keep22, foldl_keep1, apply_ite v]; done
theorem keep_record {α : Type} {v : State → α} (hv : Ig 137506062336 v) (s : State) (unit : ℕ) (temp : ℕ) :
    v (State.record s unit temp) = v s := by
  simp [State.record, keep_updPower (hv.sub rfl), keep_updUnit (hv.sub rfl), foldl_keep, foldl_keep2, foldl_keep22, foldl_keep1, apply_ite v]; done
theorem keep_hotOn {α : Type} {v : State → α} (hv : Ig 137447342208 v) (s : State) (unit : ℕ) :
    v (State.hotOn s unit) = v s := by
  simp [State.hotOn, keep_updPower (hv.sub rfl), keep_postParts (hv.sub rfl), foldl_keep, foldl_keep2, foldl_keep22, foldl_keep1, apply_ite v]; done
theorem keep_hotOff {α : Type} {v : State → α} (hv : Ig 137447342208 v) (s : State) (unit : ℕ) :
    v (State.hotOff s unit) = v s := by
  simp [State.hotOff, keep_updPower (hv.sub rfl), keep_postParts (hv.sub rfl), foldl_keep, foldl_keep2, foldl_keep22, foldl_keep1, apply_ite v]; done
theorem keep_measure {α : Type} {v : State → α} (hv : Ig 34359738368 v) (s : State) (i : ℕ) (bs : List Byte) :
    v (State.measure s i bs) = v s := by
  simp [State.measure, hv.fw rfl, foldl_keep, foldl_keep2, foldl_keep22, foldl_keep1, apply_ite v]; done
theorem keep_measurePowerOn {α : Type} {v : State → α} (hv : Ig 34359738368 v) (s : State) :
    v (State.measurePowerOn s) = v s := by
  simp [State.measurePowerOn, keep_measure (hv.sub rfl), foldl_keep, foldl_keep2, foldl_keep22, foldl_keep1, apply_ite v]; done
theorem keep_stageTo {α : Type} {v : State → α} (hv : Ig 8 v) (s : State) (st : ℕ) :
    v (State.stageTo s st) = v s := by
  simp [State.stageTo, keep_updBoot (hv.sub rfl), foldl_keep, foldl_keep2, foldl_keep22, foldl_keep1, apply_ite v]; done
theorem keep_stopBoot {α : Type} {v : State → α} (hv : Ig 24 v) (s : State) (cause : ℕ) :
    v (State.stopBoot s cause) = v s := by
  simp [State.stopBoot, keep_updBoot (hv.sub rfl), hv.pins rfl, foldl_keep, foldl_keep2, foldl_keep22, foldl_keep1, apply_ite v]; done
theorem keep_failUnit {α : Type} {v : State → α} (hv : Ig 4504715400 v) (s : State) (r : UnitRef) :
    v (State.failUnit s r) = v s := by
  simp [State.failUnit, keep_setAbsent (hv.sub rfl), keep_updBoot (hv.sub rfl), keep_outside (hv.sub rfl), keep_degrade (hv.sub rfl), foldl_keep, foldl_keep2, foldl_keep22, foldl_keep1, apply_ite v]; done
theorem keep_failUnits {α : Type} {v : State → α} (hv : Ig 4504715400 v) (s : State) (l : List UnitRef) :
    v (State.failUnits s l) = v s := by
  simp [State.failUnits, keep_failUnit (hv.sub rfl), foldl_keep, foldl_keep2, foldl_keep22, foldl_keep1, apply_ite v]; done
theorem keep_bootImage {α : Type} {v : State → α} (hv : Ig 103079215112 v) (s : State) (i : Image) (slot : ℕ) (fallback : Bool) (fromA : Bool) :
    v (State.bootImage s i slot fallback fromA) = v s := by
  unfold State.bootImage; rw [keep_measure (hv.sub rfl), keep_updBoot (hv.sub rfl)]; exact hv.ext s _ (by (repeat' apply And.intro) <;> first | exact .inl rfl | exact .inr rfl)
theorem keep_loadImage {α : Type} {v : State → α} (hv : Ig 103079215112 v) (s : State) :
    ∀ t', (State.loadImage s) = some t' → v t' = v s := by
  unfold State.loadImage; (repeat' split) <;> first | (simp [keep_bootImage (hv.sub rfl), foldl_keep, foldl_keep2, foldl_keep22, foldl_keep1, apply_ite v]; done) | grind [keep_bootImage (hv.sub rfl)]
theorem keep_imageStage {α : Type} {v : State → α} (hv : Ig 103079215128 v) (s : State) :
    v (State.imageStage s) = v s := by
  unfold State.imageStage; (repeat' split) <;> first | (simp [keep_loadImage (hv.sub rfl), keep_stageTo (hv.sub rfl), keep_stopBoot (hv.sub rfl), foldl_keep, foldl_keep2, foldl_keep22, foldl_keep1, apply_ite v]; done) | grind [keep_loadImage (hv.sub rfl), keep_stageTo (hv.sub rfl), keep_stopBoot (hv.sub rfl)]
theorem keep_trainMemory {α : Type} {v : State → α} (hv : Ig 274945015808 v) (s : State) (r : StageReport) (u : ℕ) :
    v (State.trainMemory s r u).2 = v s := by
  unfold State.trainMemory; (repeat' split) <;> first | (simp [keep_draw (hv.sub rfl), keep_updPool (hv.sub rfl), foldl_keep, foldl_keep2, foldl_keep22, foldl_keep1, apply_ite v]; done) | grind [keep_draw (hv.sub rfl), keep_updPool (hv.sub rfl)]
theorem keep_memoryStage {α : Type} {v : State → α} (hv : Ig 279382622344 v) (s : State) (r : StageReport) :
    v (State.memoryStage s r) = v s := by
  simp [State.memoryStage, keep_failUnits (hv.sub rfl), keep_trainMemory (hv.sub rfl), keep_stageTo (hv.sub rfl), keep_updBoot (hv.sub rfl), foldl_keep, foldl_keep2, foldl_keep22, foldl_keep1, apply_ite v]; done
theorem keep_trainAll {α : Type} {v : State → α} (hv : Ig 4294967296 v) (s : State) :
    v (State.trainAll s) = v s := by
  simp [State.trainAll, keep_startTraining (hv.sub rfl), foldl_keep, foldl_keep2, foldl_keep22, foldl_keep1, apply_ite v]; done
theorem keep_portsStage {α : Type} {v : State → α} (hv : Ig 4504715912 v) (s : State) (r : StageReport) :
    v (State.portsStage s r) = v s := by
  simp [State.portsStage, keep_failUnits (hv.sub rfl), keep_enterTopo (hv.sub rfl), keep_updBoot (hv.sub rfl), foldl_keep, foldl_keep2, foldl_keep22, foldl_keep1, apply_ite v]; done
theorem keep_stageDone {α : Type} {v : State → α} (hv : Ig 519900791450 v) (s : State) (r : StageReport) :
    v (State.stageDone s r) = v s := by
  unfold State.stageDone; (repeat' split) <;> first | (simp [keep_measurePowerOn (hv.sub rfl), keep_stageTo (hv.sub rfl), keep_stopBoot (hv.sub rfl), keep_failUnits (hv.sub rfl), keep_imageStage (hv.sub rfl), keep_measure (hv.sub rfl), keep_memoryStage (hv.sub rfl), keep_trainAll (hv.sub rfl), keep_updBoot (hv.sub rfl), keep_portsStage (hv.sub rfl), hv.power rfl, hv.flash rfl, foldl_keep, foldl_keep2, foldl_keep22, foldl_keep1, apply_ite v]; done) | grind [keep_measurePowerOn (hv.sub rfl), keep_stageTo (hv.sub rfl), keep_stopBoot (hv.sub rfl), keep_failUnits (hv.sub rfl), keep_imageStage (hv.sub rfl), keep_measure (hv.sub rfl), keep_memoryStage (hv.sub rfl), keep_trainAll (hv.sub rfl), keep_updBoot (hv.sub rfl), keep_portsStage (hv.sub rfl), hv.power rfl, hv.flash rfl]
theorem keep_dropHolder {α : Type} {v : State → α} (hv : Ig 32 v) (s : State) (m : ℕ) :
    v (State.dropHolder s m) = v s := by
  simp [State.dropHolder, keep_updMb (hv.sub rfl), foldl_keep, foldl_keep2, foldl_keep22, foldl_keep1, apply_ite v]; done
theorem keep_endSessions {α : Type} {v : State → α} (hv : Ig 34359738496 v) (s : State) (fn : ℕ) :
    v (State.endSessions s fn) = v s := by
  exact hv.ext s _ (by (repeat' apply And.intro) <;> first | exact .inl rfl | exact .inr rfl)
theorem keep_tapIsolate {α : Type} {v : State → α} (hv : Ig 425378972296 v) (s : State) :
    v (State.tapIsolate s) = v s := by
  simp [State.tapIsolate, keep_updPower (hv.sub rfl), keep_loseLink (hv.sub rfl), keep_silence (hv.sub rfl), keep_windowOver (hv.sub rfl), keep_updPort (hv.sub rfl), foldl_keep, foldl_keep2, foldl_keep22, foldl_keep1, apply_ite v]; done
theorem keep_firstBeat {α : Type} {v : State → α} (hv : Ig 17179869184 v) (s : State) (prev : Role) (claim : ℕ) (role : ℕ) :
    v (State.firstBeat s prev claim role) = v s := by
  simp [State.firstBeat, keep_updMirror (hv.sub rfl), keep_toSolo (hv.sub rfl), foldl_keep, foldl_keep2, foldl_keep22, foldl_keep1, apply_ite v]; done
theorem keep_staleDesc {α : Type} {v : State → α} (hv : Ig 8748793856 v) (s : State) (d : Desc) :
    v (State.staleDesc s d) = v s := by
  unfold State.staleDesc; (repeat' split) <;> first | (simp [keep_endDesc (hv.sub rfl), keep_updFaults (hv.sub rfl), keep_admitted (hv.sub rfl), foldl_keep, foldl_keep2, foldl_keep22, foldl_keep1, apply_ite v]; done) | grind [keep_endDesc (hv.sub rfl), keep_updFaults (hv.sub rfl), keep_admitted (hv.sub rfl)]
theorem keep_staleHome {α : Type} {v : State → α} (hv : Ig 287796363264 v) (s : State) :
    v (State.staleHome s) = v s := by
  simp [State.staleHome, keep_refuse (hv.sub rfl), keep_modTxn (hv.sub rfl), keep_updCoh (hv.sub rfl), keep_pieceDone (hv.sub rfl), keep_closeJoin (hv.sub rfl), foldl_keep, foldl_keep2, foldl_keep22, foldl_keep1, apply_ite v]; done
theorem keep_stopServing {α : Type} {v : State → α} (hv : Ig 305135353888 v) (s : State) :
    v (State.stopServing s).2 = v s := by
  simp [State.stopServing, keep_updMirror (hv.sub rfl), keep_staleDesc (hv.sub rfl), keep_endPub (hv.sub rfl), keep_staleHome (hv.sub rfl), foldl_keep, foldl_keep2, foldl_keep22, foldl_keep1, apply_ite v]; done
theorem keep_discardMirrored {α : Type} {v : State → α} (hv : Ig 100663296 v) (s : State) :
    v (State.discardMirrored s) = v s := by
  simp [State.discardMirrored, keep_freeDir (hv.sub rfl), foldl_keep, foldl_keep2, foldl_keep22, foldl_keep1, apply_ite v]; done
theorem keep_toSync {α : Type} {v : State → α} (hv : Ig 305202462752 v) (s : State) :
    v (State.toSync s) = v s := by
  simp [State.toSync, keep_stopServing (hv.sub rfl), keep_updMirror (hv.sub rfl), keep_discardMirrored (hv.sub rfl), foldl_keep, foldl_keep2, foldl_keep22, foldl_keep1, apply_ite v]; done
theorem keep_startSync {α : Type} {v : State → α} (hv : Ig 305111760928 v) (s : State) :
    v (State.startSync s) = v s := by
  unfold State.startSync; repeat' first | rfl | (simp [keep_dropForwards (hv.sub rfl), keep_updMirror (hv.sub rfl), foldl_keep, foldl_keep2, foldl_keep22, foldl_keep1, apply_ite v]; done) | rw [foldl_keep (v := v)] | rw [foldl_keep2 (v := v)] | rw [foldl_keep1 (v := v)] | rw [foldl_keep22 (v := v)] | refine getD_keep (v := v) ?_ ?_ | split | dsimp only | intro _ | grind [keep_dropForwards (hv.sub rfl), keep_updMirror (hv.sub rfl)]
theorem keep_beatRole {α : Type} {v : State → α} (hv : Ig 305202462752 v) (s : State) (claim : ℕ) (role : ℕ) :
    v (State.beatRole s claim role) = v s := by
  unfold State.beatRole; (repeat' split) <;> first | (simp [keep_firstBeat (hv.sub rfl), keep_toSync (hv.sub rfl), keep_startSync (hv.sub rfl), keep_toSolo (hv.sub rfl), keep_updMirror (hv.sub rfl), foldl_keep, foldl_keep2, foldl_keep22, foldl_keep1, apply_ite v]; done) | grind [keep_firstBeat (hv.sub rfl), keep_toSync (hv.sub rfl), keep_startSync (hv.sub rfl), keep_toSolo (hv.sub rfl), keep_updMirror (hv.sub rfl)]
theorem keep_beat {α : Type} {v : State → α} (hv : Ig 305202462752 v) (s : State) (path : ℕ) (w : BitVec 256) :
    v (State.beat s path w) = v s := by
  simp [State.beat, keep_beatRole (hv.sub rfl), keep_updMirror (hv.sub rfl), foldl_keep, foldl_keep2, foldl_keep22, foldl_keep1, apply_ite v]; done
theorem keep_mirrorEv {α : Type} {v : State → α} (hv : Ig 8389120 v) (s : State) (typ : ℕ) (status : ℕ) (body : ℕ) :
    v (State.mirrorEv s typ status body) = v s := by
  simp [State.mirrorEv, keep_postFm (hv.sub rfl), foldl_keep, foldl_keep2, foldl_keep22, foldl_keep1, apply_ite v]; done
theorem keep_fencedEv {α : Type} {v : State → α} (hv : Ig 8389120 v) (s : State) (n : ℕ) :
    v (State.fencedEv s n) = v s := by
  simp [State.fencedEv, keep_mirrorEv (hv.sub rfl), foldl_keep, foldl_keep2, foldl_keep22, foldl_keep1, apply_ite v]; done
theorem keep_pairTake {α : Type} {v : State → α} (hv : Ig 287796363264 v) (s : State) (p : ℕ) (h : Hdr) (k : State → State) (k_k : ∀ z0, v (k z0) = v z0) :
    v (State.pairTake s p h k) = v s := by
  simp [State.pairTake, keep_arrive (hv.sub rfl), keep_consume (hv.sub rfl), k_k, foldl_keep, foldl_keep2, foldl_keep22, foldl_keep1, apply_ite v]; done
theorem keep_mirAck {α : Type} {v : State → α} (hv : Ig 4294967296 v) (s : State) (p : ℕ) (h : Hdr) (st : Status) :
    v (State.mirAck s p h st) = v s := by
  simp [State.mirAck, keep_egress (hv.sub rfl), foldl_keep, foldl_keep2, foldl_keep22, foldl_keep1, apply_ite v]; done
theorem keep_pairWrite {α : Type} {v : State → α} (hv : Ig 110133920 v) (s : State) (rid : ℕ) (off : ℕ) (data : List Byte) (poison : Bool) (cls : ℕ) :
    v (State.pairWrite s rid off data poison cls).2 = v s := by
  unfold State.pairWrite; (repeat' split) <;> first | (simp [keep_writeBytes (hv.sub rfl), foldl_keep, foldl_keep2, foldl_keep22, foldl_keep1, apply_ite v]; done) | grind [keep_writeBytes (hv.sub rfl)]
theorem keep_spdmOn {α : Type} {v : State → α} (hv : Ig 0 v) (s : State) (fn : ℕ) (f : State → State) (k_f : ∀ z0, v (f z0) = v z0) :
    v (State.spdmOn s fn f) = v s := by
  simp [State.spdmOn, k_f, foldl_keep, foldl_keep2, foldl_keep22, foldl_keep1, apply_ite v]; done
theorem keep_doe {α : Type} {v : State → α} (hv : Ig 16 v) (s : State) (fn : ℕ) (r : Spdm) :
    v (State.doe s fn r) = v s := by
  simp [State.doe, hv.pins rfl, foldl_keep, foldl_keep2, foldl_keep22, foldl_keep1, apply_ite v]; done
theorem keep_setPhase {α : Type} {v : State → α} (hv : Ig 34359738368 v) (s : State) (fn : ℕ) (n : ℕ) :
    v (State.setPhase s fn n) = v s := by
  simp [State.setPhase, hv.fw rfl, foldl_keep, foldl_keep2, foldl_keep22, foldl_keep1, apply_ite v]; done
theorem keep_spdmAt {α : Type} {v : State → α} (hv : Ig 16 v) (s : State) (fn : ℕ) (phase : ℕ) (f : State → State) (k_f : ∀ z0, v (f z0) = v z0) :
    v (State.spdmAt s fn phase f) = v s := by
  simp [State.spdmAt, keep_spdmOn (hv.sub rfl), keep_doe (hv.sub rfl), k_f, foldl_keep, foldl_keep2, foldl_keep22, foldl_keep1, apply_ite v]; done
theorem keep_dropSession {α : Type} {v : State → α} (hv : Ig 34359738528 v) (s : State) (fn : ℕ) (id : ℕ) :
    v (State.dropSession s fn id) = v s := by
  simp [State.dropSession, keep_modPart (hv.sub rfl), keep_updMb (hv.sub rfl), hv.fw rfl, foldl_keep, foldl_keep2, foldl_keep22, foldl_keep1, apply_ite v]; done
theorem keep_inSession {α : Type} {v : State → α} (hv : Ig 16 v) (s : State) (fn : ℕ) (sess : ℕ) (f : Session → State → State) (k_f : ∀ z0 z1, v (f z0 z1) = v z1) :
    v (State.inSession s fn sess f) = v s := by
  unfold State.inSession; repeat' first | rfl | (simp [keep_spdmOn (hv.sub rfl), keep_doe (hv.sub rfl), k_f, foldl_keep, foldl_keep2, foldl_keep22, foldl_keep1, apply_ite v]; done) | rw [foldl_keep (v := v)] | rw [foldl_keep2 (v := v)] | rw [foldl_keep1 (v := v)] | rw [foldl_keep22 (v := v)] | refine getD_keep (v := v) ?_ ?_ | refine Eq.trans (keep_spdmOn (hv.sub rfl) _ _ _ ?_) ?_ | split | dsimp only | intro _ | grind [keep_spdmOn (hv.sub rfl), keep_doe (hv.sub rfl), k_f]
theorem keep_sweepEntry {α : Type} {v : State → α} (hv : Ig 305052811936 v) (s : State) (e : DirEnt) :
    v (State.sweepEntry s e) = v s := by
  unfold State.sweepEntry; (repeat' split) <;> first | (simp [keep_begin (hv.sub rfl), keep_keepDir (hv.sub rfl), foldl_keep, foldl_keep2, foldl_keep22, foldl_keep1, apply_ite v]; done) | grind [keep_begin (hv.sub rfl), keep_keepDir (hv.sub rfl)]

end Sys2Proof.Laws
end

