-- ==== Sys2Proof/Laws/Cold.lean ====
section
/-! SUPPORT. What a cold reset leaves: fuses, waiting commands, the fused limits, the context generations that boot flash holds. -/

namespace Sys2Proof.Laws
open Sys2Proof.Machine

set_option Elab.async false

/-- The fuses survive a cold reset. -/
theorem coldReset_fuses (s : State) (kind : Nat) (held renumber : Bool) : (s.coldReset kind held renumber).fuses = s.fuses := by
  unfold State.coldReset
  dsimp only
  split
  · exact keep_coldPool (v := State.fuses) (ig_fuses.sub rfl) _
  · exact (keep_updPool (v := State.fuses) (ig_fuses.sub rfl) _ _).trans (keep_coldPool (v := State.fuses) (ig_fuses.sub rfl) _)

/-- The commands that wait survive a cold reset. -/
theorem coldReset_pending (s : State) (kind : Nat) (held renumber : Bool) :
    (s.coldReset kind held renumber).pending = s.pending := by
  unfold State.coldReset
  dsimp only
  split
  · exact keep_coldPool (v := State.pending) (ig_pending.sub rfl) _
  · exact (keep_updPool (v := State.pending) (ig_pending.sub rfl) _ _).trans (keep_coldPool (v := State.pending) (ig_pending.sub rfl) _)

/-- Every cold reset starts at the fused limits; a thermal trip and the sensors' last readings survive it. -/
theorem coldReset_power (s : State) (kind : Nat) (held renumber : Bool) :
    (s.coldReset kind held renumber).power =
      { limitW := s.variant.watts, limitMhz := s.variant.mhz, trip := s.power.trip, temps := s.power.temps } := by
  unfold State.coldReset
  dsimp only
  split
  · exact keep_coldPool (v := State.power) (ig_power.sub rfl) _
  · exact (keep_updPool (v := State.power) (ig_power.sub rfl) _ _).trans (keep_coldPool (v := State.power) (ig_power.sub rfl) _)

/-- What a cold reset leaves, held or not: the flash, with the unit retirements
that a reset copies to it, as `Flash.atCold` leaves it. -/
theorem coldReset_flash (s : State) (kind : Nat) (held renumber : Bool) :
    (s.coldReset kind held renumber).flash =
    s.flashUnits.atCold s.pool.unretire renumber := by
  unfold State.coldReset
  dsimp only
  split
  · exact keep_coldPool (v := State.flash) (ig_flash.sub rfl) _
  · exact (keep_updPool (v := State.flash) (ig_flash.sub rfl) _ _).trans (keep_coldPool (v := State.flash) (ig_flash.sub rfl) _)

/-- Making a unit absent writes nothing of bring-up but the list of dies that are not there. -/
theorem setAbsent_boot (s : State) (r : UnitRef) : ∃ l, (s.setAbsent r).boot = { s.boot with noDies := l } := by
  have keep (n : Nat) (f : MemUnit → MemUnit) (s : State) : (s.updUnit n f).boot = s.boot :=
    keep_updUnit (v := State.boot) (ig_boot.sub rfl) _ _ _
  cases r with
  | pc n => exact ⟨_, keep ..⟩
  | stack n => exact ⟨_, foldl_keep (v := State.boot) (fun s i => keep ..) _ _⟩
  | dc n => exact ⟨_, keep ..⟩
  | oe n => exact ⟨_, keep_updEngine (v := State.boot) (ig_boot.sub rfl) ..⟩
  | te n => exact ⟨_, keep_updEngine (v := State.boot) (ig_boot.sub rfl) ..⟩
  | port n => exact ⟨_, keep_updPort (v := State.boot) (ig_boot.sub rfl) ..⟩
  | hub n => exact ⟨_, rfl⟩
  | iod n => exact ⟨_, rfl⟩

/-- So does the restoration of the pool at a cold reset. -/
theorem coldPool_boot (s : State) : ∃ l, s.coldPool.boot = { s.boot with noDies := l } := by
  have unit (n : Nat) (f : MemUnit → MemUnit) (s : State) : (s.updUnit n f).boot = s.boot :=
    keep_updUnit (v := State.boot) (ig_boot.sub rfl) _ _ _
  have all (l : List UnitRef) (s : State) : ∃ d, (l.foldl (fun s r => s.setAbsent r) s).boot = { s.boot with noDies := d } := by
    induction l generalizing s with
    | nil => exact ⟨_, rfl⟩
    | cons r l ih =>
      obtain ⟨d, hd⟩ := ih (s.setAbsent r)
      obtain ⟨e, he⟩ := setAbsent_boot s r
      exact ⟨d, by rw [List.foldl_cons, hd, he]⟩
  unfold State.coldPool
  obtain ⟨d, hd⟩ := all _ _
  refine ⟨d, hd.trans ?_⟩
  rw [foldl_keep (v := State.boot) (fun s x => unit ..), foldl_keep (v := State.boot) (fun s x => unit ..),
    keep_updPool (v := State.boot) (ig_boot.sub rfl)]

/-- The stage and the cause of a cold reset, and whether the controller is held in it. -/
theorem coldReset_boot (s : State) (kind : Nat) (held renumber : Bool) :
    (s.coldReset kind held renumber).boot.stage = 0 ∧ (s.coldReset kind held renumber).boot.kind = kind
      ∧ (s.coldReset kind held renumber).boot.held = held := by
  unfold State.coldReset
  dsimp only
  split <;> obtain ⟨l, h⟩ := coldPool_boot _
  · rw [h]; exact ⟨rfl, rfl, rfl⟩
  · rw [keep_updPool (v := State.boot) (ig_boot.sub rfl), h]; exact ⟨rfl, rfl, rfl⟩

end Sys2Proof.Laws
end

