-- ==== Sys2Proof/Laws/Commands.lean ====
section
/-! SUPPORT. A mailbox command either takes its effect or leaves its first refusal as the response. -/

namespace Sys2Proof.Laws
open Sys2Proof.Machine

set_option Elab.async false

/-- Checks in two parts: the first part decides unless it passes. -/
theorem firstFail_append (a b : List Check) :
    firstFail (a ++ b) = match firstFail a with
      | some r => some r
      | none => firstFail b := by
  induction a with
  | nil => rfl
  | cons x r ih =>
    obtain ⟨c, st, o⟩ := x
    cases c
    · simpa [firstFail] using ih
    · simp [firstFail]
/-- No check applies when the first does not and none of the rest does. -/
theorem firstFail_none_cons (c : Bool) (st : Status) (o : Nat) (r : List Check) :
    firstFail ((c, st, o) :: r) = none ↔ c = false ∧ firstFail r = none := by
  cases c <;> simp [firstFail]
/-- The same for a check made by `chk`. -/
theorem firstFail_none_chk (c : Bool) (st : Status) (r : List Check) :
    firstFail (chk c st :: r) = none ↔ c = false ∧ firstFail r = none := firstFail_none_cons ..
/-- The same for a check made by `bad`. -/
theorem firstFail_none_bad (c : Bool) (o : Nat) (r : List Check) :
    firstFail (bad c o :: r) = none ↔ c = false ∧ firstFail r = none := firstFail_none_cons ..
/-- A command that its mailbox may run and that no check refuses takes its effect. -/
theorem command_ok (s : State) (m : Nat) (c : Call) (l : List Check) (eff : State → State) (h : s.serves m c = true)
    (hl : firstFail l = none) : s.command m c l eff = eff s := by
  unfold State.command
  rw [firstFail_append]
  unfold State.serves at h
  rw [Option.isNone_iff_eq_none] at h
  rw [h, hl]
/-- A command that its mailbox may run and that a check refuses leaves that status. -/
theorem command_refused (s : State) (m : Nat) (c : Call) (l : List Check) (eff : State → State) (st : Status) (o : Nat)
    (h : s.serves m c = true) (hl : firstFail l = some (st, o)) :
    s.command m c l eff = s.respond m { status := st, failOff := o } := by
  unfold State.command
  rw [firstFail_append]
  unfold State.serves at h
  rw [Option.isNone_iff_eq_none] at h
  rw [h, hl]
/-- Every command ends in a next state: its effect, settled. -/
@[simp] theorem settled_eq (s : State) : settled s = .next s.settle := rfl

end Sys2Proof.Laws
end

