-- ==== Sys2Proof/Laws/Memory.lean ====
section
/-! SUPPORT. Tables and byte memory: what is read after an update, and that memory stays in canonical form. -/

namespace Sys2Proof.Laws
open Sys2Proof.Machine

set_option Elab.async false

/-! Tables. -/

@[simp] theorem at?_nil {α : Type} (k : Nat) : Tab.at? ([] : Tab α) k = none := rfl
/-- The entry just put is found. -/
@[simp] theorem at?_put {α : Type} (t : Tab α) (k : Nat) (v : α) : Tab.at? (Tab.put t k v) k = some v := by
  induction t with
  | nil => simp [Tab.put, Tab.at?]
  | cons x r ih =>
    obtain ⟨j, w⟩ := x
    unfold Tab.put
    split
    · rename_i h
      simp [Tab.at?, Nat.ne_of_lt h, ih]
    · split <;> simp [Tab.at?]
/-- Every other entry stays. -/
theorem at?_put_ne {α : Type} (t : Tab α) (k j : Nat) (v : α) (h : j ≠ k) : Tab.at? (Tab.put t k v) j = Tab.at? t j := by
  induction t with
  | nil => simp [Tab.put, Tab.at?, Ne.symm h]
  | cons x r ih =>
    obtain ⟨i, w⟩ := x
    unfold Tab.put
    split
    · simp [Tab.at?, ih]
    · split
      · rename_i hk
        subst hk
        simp [Tab.at?, Ne.symm h]
      · simp [Tab.at?, Ne.symm h]
/-- A deleted entry is gone. -/
@[simp] theorem at?_del {α : Type} (t : Tab α) (k : Nat) : Tab.at? (Tab.del t k) k = none := by
  induction t with
  | nil => rfl
  | cons x r ih =>
    obtain ⟨j, w⟩ := x
    unfold Tab.del at *
    by_cases h : j = k
    · subst h; simpa using ih
    · simp [h, Tab.at?]; exact ih
/-- Every other entry stays. -/
theorem at?_del_ne {α : Type} (t : Tab α) (k j : Nat) (h : j ≠ k) : Tab.at? (Tab.del t k) j = Tab.at? t j := by
  induction t with
  | nil => rfl
  | cons x r ih =>
    obtain ⟨i, w⟩ := x
    unfold Tab.del at *
    by_cases hi : i = k
    · subst hi
      simp [Tab.at?, Ne.symm h]
      exact ih
    · simp [hi, Tab.at?, ih]
/-- An update is found. -/
@[simp] theorem or_upd {α : Type} (t : Tab α) (k : Nat) (d : α) (f : α → α) : Tab.or (Tab.upd t k d f) k d = f (Tab.or t k d) := by
  simp [Tab.or, Tab.upd]
/-- An update changes no other entry. -/
theorem or_upd_ne {α : Type} (t : Tab α) (k j : Nat) (d : α) (f : α → α) (h : j ≠ k) :
    Tab.or (Tab.upd t k d f) j d = Tab.or t j d := by
  simp [Tab.or, Tab.upd, at?_put_ne _ _ _ _ h]

/-! Byte memory. -/

/-- Read after write of the same byte. -/
@[simp] theorem get_put (m : Memory) (a : Nat) (b : Byte) : (m.put a b).get a = b := by
  unfold Memory.put Memory.get Tab.or
  split
  · rename_i h; simp [h]
  · simp
/-- A write leaves every other byte. -/
theorem get_put_ne (m : Memory) (a c : Nat) (b : Byte) (h : c ≠ a) : (m.put a b).get c = m.get c := by
  unfold Memory.put Memory.get Tab.or
  split
  · rw [at?_del_ne _ _ _ h]
  · rw [at?_put_ne _ _ _ _ h]
/-- A write of several bytes leaves every byte outside them. -/
theorem get_write_ne (m : Memory) (a c : Nat) (bs : List Byte) (h : c < a ∨ a + bs.length ≤ c) :
    (m.write a bs).get c = m.get c := by
  induction bs generalizing m a with
  | nil => rfl
  | cons b r ih =>
    unfold Memory.write
    rw [ih, get_put_ne]
    · simp at h; omega
    · simp at h; omega
/-- Read after write of several bytes. -/
theorem get_write (m : Memory) (a i : Nat) (bs : List Byte) (h : i < bs.length) : (m.write a bs).get (a + i) = bs[i] := by
  induction bs generalizing m a i with
  | nil => simp at h
  | cons b r ih =>
    unfold Memory.write
    cases i with
    | zero => simp; rw [get_write_ne _ _ _ _ (.inl (by omega)), get_put]
    | succ i =>
      have := ih (m.put a b) (a + 1) i (by simpa using h)
      simp only [List.getElem_cons_succ]
      rw [← this]
      congr 1
      omega

/-- Every address of a memory is above `a`, and it is in canonical form. -/
def Above (a : Nat) (m : Memory) : Prop := m.wf = true ∧ ∀ c ∈ m, a < c.1
theorem wf_cons (a : Nat) (b : Byte) (m : Memory) : Memory.wf ((a, b) :: m) = true ↔ b ≠ 0 ∧ Above a m := by
  induction m generalizing a b with
  | nil => simp [Memory.wf, Above]
  | cons x r ih =>
    obtain ⟨c, d⟩ := x
    have h := ih c d
    simp only [Memory.wf, Bool.and_eq_true, bne_iff_ne, decide_eq_true_eq, Above] at *
    constructor
    · rintro ⟨⟨hb, hac⟩, hw⟩
      refine ⟨hb, hw, ?_⟩
      intro y hy
      rcases List.mem_cons.mp hy with rfl | hy
      · exact hac
      · exact Nat.lt_trans hac ((h.mp hw).2.2 y hy)
    · rintro ⟨hb, hw, hall⟩
      exact ⟨⟨hb, hall (c, d) (List.mem_cons_self)⟩, hw⟩
/-- A sublist of a canonical memory is canonical. -/
theorem wf_filter (m : Memory) (p : Host.Cell → Bool) (h : m.wf = true) : Memory.wf (m.filter p) = true := by
  induction m with
  | nil => rfl
  | cons x r ih =>
    obtain ⟨a, b⟩ := x
    rw [wf_cons] at h
    rw [List.filter_cons]
    split
    · rw [wf_cons]
      exact ⟨h.1, ih h.2.1, fun c hc => h.2.2 c (List.mem_of_mem_filter hc)⟩
    · exact ih h.2.1
theorem mem_tabPut (m : Memory) (a : Nat) (b : Byte) (c : Host.Cell) (h : c ∈ Tab.put (α := Byte) m a b) : c ∈ m ∨ c = (a, b) := by
  induction m with
  | nil => simpa [Tab.put] using h
  | cons x r ih =>
    obtain ⟨j, w⟩ := x
    unfold Tab.put at h
    split at h
    · rcases List.mem_cons.mp h with rfl | h
      · simp
      · rcases ih h with h | h
        · simp [h]
        · simp [h]
    · split at h
      · rcases List.mem_cons.mp h with rfl | h
        · simp
        · simp [h]
      · rcases List.mem_cons.mp h with rfl | h
        · simp
        · exact .inl h
theorem wf_tabPut (m : Memory) (a : Nat) (b : Byte) (hb : b ≠ 0) (h : m.wf = true) : Memory.wf (Tab.put (α := Byte) m a b) = true := by
  induction m with
  | nil => simp [Tab.put, Memory.wf]; exact hb
  | cons x r ih =>
    obtain ⟨j, w⟩ := x
    have h' := (wf_cons _ _ _).mp h
    unfold Tab.put
    split
    · rename_i hj
      rw [wf_cons]
      refine ⟨h'.1, ih h'.2.1, ?_⟩
      intro c hc
      rcases mem_tabPut _ _ _ _ hc with hc | rfl
      · exact h'.2.2 c hc
      · exact hj
    · split
      · rename_i hj
        subst hj
        rw [wf_cons]
        exact ⟨hb, h'.2⟩
      · rw [wf_cons]
        refine ⟨hb, h, ?_⟩
        intro c hc
        rcases List.mem_cons.mp hc with rfl | hc
        · simp; omega
        · have := h'.2.2 c hc
          omega
/-- A write of one byte keeps the canonical form. -/
theorem wf_put (m : Memory) (a : Nat) (b : Byte) (h : m.wf = true) : (m.put a b).wf = true := by
  unfold Memory.put
  split
  · exact wf_filter m _ h
  · rename_i hb
    exact wf_tabPut m a b hb h
/-- A write of several bytes keeps the canonical form. -/
theorem wf_write (m : Memory) (a : Nat) (bs : List Byte) (h : m.wf = true) : (m.write a bs).wf = true := by
  induction bs generalizing m a with
  | nil => exact h
  | cons b r ih => exact ih _ _ (wf_put m a b h)
/-- Zeroing bytes keeps the canonical form. -/
theorem wf_clear (m : Memory) (a n : Nat) (h : m.wf = true) : (m.clear a n).wf = true := wf_filter m _ h

end Sys2Proof.Laws
end

