-- ==== Sys2Proof/Laws/State.lean ====
section
/-! SUPPORT. What each update of the state changes, and that it changes nothing else: one lemma per field and update. -/

namespace Sys2Proof.Laws
open Sys2Proof.Machine

set_option Elab.async false

/-! `State.updPool`. -/
@[simp] theorem updPool_fuses (s : State) (f : Pool → Pool) : (s.updPool f).fuses = s.fuses := rfl
@[simp] theorem updPool_flash (s : State) (f : Pool → Pool) : (s.updPool f).flash = s.flash := rfl
@[simp] theorem updPool_clock (s : State) (f : Pool → Pool) : (s.updPool f).clock = s.clock := rfl
@[simp] theorem updPool_boot (s : State) (f : Pool → Pool) : (s.updPool f).boot = s.boot := rfl
@[simp] theorem updPool_pins (s : State) (f : Pool → Pool) : (s.updPool f).pins = s.pins := rfl
@[simp] theorem updPool_mbs (s : State) (f : Pool → Pool) : (s.updPool f).mbs = s.mbs := rfl
@[simp] theorem updPool_mbOrder (s : State) (f : Pool → Pool) : (s.updPool f).mbOrder = s.mbOrder := rfl
@[simp] theorem updPool_parts (s : State) (f : Pool → Pool) : (s.updPool f).parts = s.parts := rfl
@[simp] theorem updPool_fmEq (s : State) (f : Pool → Pool) : (s.updPool f).fmEq = s.fmEq := rfl
@[simp] theorem updPool_fmUnbound (s : State) (f : Pool → Pool) : (s.updPool f).fmUnbound = s.fmUnbound := rfl
@[simp] theorem updPool_ctxs (s : State) (f : Pool → Pool) : (s.updPool f).ctxs = s.ctxs := rfl
@[simp] theorem updPool_gens (s : State) (f : Pool → Pool) : (s.updPool f).gens = s.gens := rfl
@[simp] theorem updPool_quarantine (s : State) (f : Pool → Pool) : (s.updPool f).quarantine = s.quarantine := rfl
@[simp] theorem updPool_tables (s : State) (f : Pool → Pool) : (s.updPool f).tables = s.tables := rfl
@[simp] theorem updPool_tcache (s : State) (f : Pool → Pool) : (s.updPool f).tcache = s.tcache := rfl
@[simp] theorem updPool_regions (s : State) (f : Pool → Pool) : (s.updPool f).regions = s.regions := rfl
@[simp] theorem updPool_extents (s : State) (f : Pool → Pool) : (s.updPool f).extents = s.extents := rfl
@[simp] theorem updPool_chunks (s : State) (f : Pool → Pool) : (s.updPool f).chunks = s.chunks := rfl
@[simp] theorem updPool_pubs (s : State) (f : Pool → Pool) : (s.updPool f).pubs = s.pubs := rfl
@[simp] theorem updPool_queues (s : State) (f : Pool → Pool) : (s.updPool f).queues = s.queues := rfl
@[simp] theorem updPool_descs (s : State) (f : Pool → Pool) : (s.updPool f).descs = s.descs := rfl
@[simp] theorem updPool_descOrder (s : State) (f : Pool → Pool) : (s.updPool f).descOrder = s.descOrder := rfl
@[simp] theorem updPool_heldOrder (s : State) (f : Pool → Pool) : (s.updPool f).heldOrder = s.heldOrder := rfl
@[simp] theorem updPool_eqs (s : State) (f : Pool → Pool) : (s.updPool f).eqs = s.eqs := rfl
@[simp] theorem updPool_faults (s : State) (f : Pool → Pool) : (s.updPool f).faults = s.faults := rfl
@[simp] theorem updPool_coh (s : State) (f : Pool → Pool) : (s.updPool f).coh = s.coh := rfl
@[simp] theorem updPool_pool (s : State) (f : Pool → Pool) : (s.updPool f).pool = f s.pool := rfl
@[simp] theorem updPool_engines (s : State) (f : Pool → Pool) : (s.updPool f).engines = s.engines := rfl
@[simp] theorem updPool_colls (s : State) (f : Pool → Pool) : (s.updPool f).colls = s.colls := rfl
@[simp] theorem updPool_ownOut (s : State) (f : Pool → Pool) : (s.updPool f).ownOut = s.ownOut := rfl
@[simp] theorem updPool_shapers (s : State) (f : Pool → Pool) : (s.updPool f).shapers = s.shapers := rfl
@[simp] theorem updPool_wheel (s : State) (f : Pool → Pool) : (s.updPool f).wheel = s.wheel := rfl
@[simp] theorem updPool_ports (s : State) (f : Pool → Pool) : (s.updPool f).ports = s.ports := rfl
@[simp] theorem updPool_net (s : State) (f : Pool → Pool) : (s.updPool f).net = s.net := rfl
@[simp] theorem updPool_mirror (s : State) (f : Pool → Pool) : (s.updPool f).mirror = s.mirror := rfl
@[simp] theorem updPool_fw (s : State) (f : Pool → Pool) : (s.updPool f).fw = s.fw := rfl
@[simp] theorem updPool_mpc (s : State) (f : Pool → Pool) : (s.updPool f).mpc = s.mpc := rfl
@[simp] theorem updPool_power (s : State) (f : Pool → Pool) : (s.updPool f).power = s.power := rfl
@[simp] theorem updPool_free (s : State) (f : Pool → Pool) : (s.updPool f).free = s.free := rfl
@[simp] theorem updPool_pending (s : State) (f : Pool → Pool) : (s.updPool f).pending = s.pending := rfl
/-! `State.updCoh`. -/
@[simp] theorem updCoh_fuses (s : State) (f : Coherence → Coherence) : (s.updCoh f).fuses = s.fuses := rfl
@[simp] theorem updCoh_flash (s : State) (f : Coherence → Coherence) : (s.updCoh f).flash = s.flash := rfl
@[simp] theorem updCoh_clock (s : State) (f : Coherence → Coherence) : (s.updCoh f).clock = s.clock := rfl
@[simp] theorem updCoh_boot (s : State) (f : Coherence → Coherence) : (s.updCoh f).boot = s.boot := rfl
@[simp] theorem updCoh_pins (s : State) (f : Coherence → Coherence) : (s.updCoh f).pins = s.pins := rfl
@[simp] theorem updCoh_mbs (s : State) (f : Coherence → Coherence) : (s.updCoh f).mbs = s.mbs := rfl
@[simp] theorem updCoh_mbOrder (s : State) (f : Coherence → Coherence) : (s.updCoh f).mbOrder = s.mbOrder := rfl
@[simp] theorem updCoh_parts (s : State) (f : Coherence → Coherence) : (s.updCoh f).parts = s.parts := rfl
@[simp] theorem updCoh_fmEq (s : State) (f : Coherence → Coherence) : (s.updCoh f).fmEq = s.fmEq := rfl
@[simp] theorem updCoh_fmUnbound (s : State) (f : Coherence → Coherence) : (s.updCoh f).fmUnbound = s.fmUnbound := rfl
@[simp] theorem updCoh_ctxs (s : State) (f : Coherence → Coherence) : (s.updCoh f).ctxs = s.ctxs := rfl
@[simp] theorem updCoh_gens (s : State) (f : Coherence → Coherence) : (s.updCoh f).gens = s.gens := rfl
@[simp] theorem updCoh_quarantine (s : State) (f : Coherence → Coherence) : (s.updCoh f).quarantine = s.quarantine := rfl
@[simp] theorem updCoh_tables (s : State) (f : Coherence → Coherence) : (s.updCoh f).tables = s.tables := rfl
@[simp] theorem updCoh_tcache (s : State) (f : Coherence → Coherence) : (s.updCoh f).tcache = s.tcache := rfl
@[simp] theorem updCoh_regions (s : State) (f : Coherence → Coherence) : (s.updCoh f).regions = s.regions := rfl
@[simp] theorem updCoh_extents (s : State) (f : Coherence → Coherence) : (s.updCoh f).extents = s.extents := rfl
@[simp] theorem updCoh_chunks (s : State) (f : Coherence → Coherence) : (s.updCoh f).chunks = s.chunks := rfl
@[simp] theorem updCoh_pubs (s : State) (f : Coherence → Coherence) : (s.updCoh f).pubs = s.pubs := rfl
@[simp] theorem updCoh_queues (s : State) (f : Coherence → Coherence) : (s.updCoh f).queues = s.queues := rfl
@[simp] theorem updCoh_descs (s : State) (f : Coherence → Coherence) : (s.updCoh f).descs = s.descs := rfl
@[simp] theorem updCoh_descOrder (s : State) (f : Coherence → Coherence) : (s.updCoh f).descOrder = s.descOrder := rfl
@[simp] theorem updCoh_heldOrder (s : State) (f : Coherence → Coherence) : (s.updCoh f).heldOrder = s.heldOrder := rfl
@[simp] theorem updCoh_eqs (s : State) (f : Coherence → Coherence) : (s.updCoh f).eqs = s.eqs := rfl
@[simp] theorem updCoh_faults (s : State) (f : Coherence → Coherence) : (s.updCoh f).faults = s.faults := rfl
@[simp] theorem updCoh_coh (s : State) (f : Coherence → Coherence) : (s.updCoh f).coh = f s.coh := rfl
@[simp] theorem updCoh_pool (s : State) (f : Coherence → Coherence) : (s.updCoh f).pool = s.pool := rfl
@[simp] theorem updCoh_engines (s : State) (f : Coherence → Coherence) : (s.updCoh f).engines = s.engines := rfl
@[simp] theorem updCoh_colls (s : State) (f : Coherence → Coherence) : (s.updCoh f).colls = s.colls := rfl
@[simp] theorem updCoh_ownOut (s : State) (f : Coherence → Coherence) : (s.updCoh f).ownOut = s.ownOut := rfl
@[simp] theorem updCoh_shapers (s : State) (f : Coherence → Coherence) : (s.updCoh f).shapers = s.shapers := rfl
@[simp] theorem updCoh_wheel (s : State) (f : Coherence → Coherence) : (s.updCoh f).wheel = s.wheel := rfl
@[simp] theorem updCoh_ports (s : State) (f : Coherence → Coherence) : (s.updCoh f).ports = s.ports := rfl
@[simp] theorem updCoh_net (s : State) (f : Coherence → Coherence) : (s.updCoh f).net = s.net := rfl
@[simp] theorem updCoh_mirror (s : State) (f : Coherence → Coherence) : (s.updCoh f).mirror = s.mirror := rfl
@[simp] theorem updCoh_fw (s : State) (f : Coherence → Coherence) : (s.updCoh f).fw = s.fw := rfl
@[simp] theorem updCoh_mpc (s : State) (f : Coherence → Coherence) : (s.updCoh f).mpc = s.mpc := rfl
@[simp] theorem updCoh_power (s : State) (f : Coherence → Coherence) : (s.updCoh f).power = s.power := rfl
@[simp] theorem updCoh_free (s : State) (f : Coherence → Coherence) : (s.updCoh f).free = s.free := rfl
@[simp] theorem updCoh_pending (s : State) (f : Coherence → Coherence) : (s.updCoh f).pending = s.pending := rfl
/-! `State.updNet`. -/
@[simp] theorem updNet_fuses (s : State) (f : Routing → Routing) : (s.updNet f).fuses = s.fuses := rfl
@[simp] theorem updNet_flash (s : State) (f : Routing → Routing) : (s.updNet f).flash = s.flash := rfl
@[simp] theorem updNet_clock (s : State) (f : Routing → Routing) : (s.updNet f).clock = s.clock := rfl
@[simp] theorem updNet_boot (s : State) (f : Routing → Routing) : (s.updNet f).boot = s.boot := rfl
@[simp] theorem updNet_pins (s : State) (f : Routing → Routing) : (s.updNet f).pins = s.pins := rfl
@[simp] theorem updNet_mbs (s : State) (f : Routing → Routing) : (s.updNet f).mbs = s.mbs := rfl
@[simp] theorem updNet_mbOrder (s : State) (f : Routing → Routing) : (s.updNet f).mbOrder = s.mbOrder := rfl
@[simp] theorem updNet_parts (s : State) (f : Routing → Routing) : (s.updNet f).parts = s.parts := rfl
@[simp] theorem updNet_fmEq (s : State) (f : Routing → Routing) : (s.updNet f).fmEq = s.fmEq := rfl
@[simp] theorem updNet_fmUnbound (s : State) (f : Routing → Routing) : (s.updNet f).fmUnbound = s.fmUnbound := rfl
@[simp] theorem updNet_ctxs (s : State) (f : Routing → Routing) : (s.updNet f).ctxs = s.ctxs := rfl
@[simp] theorem updNet_gens (s : State) (f : Routing → Routing) : (s.updNet f).gens = s.gens := rfl
@[simp] theorem updNet_quarantine (s : State) (f : Routing → Routing) : (s.updNet f).quarantine = s.quarantine := rfl
@[simp] theorem updNet_tables (s : State) (f : Routing → Routing) : (s.updNet f).tables = s.tables := rfl
@[simp] theorem updNet_tcache (s : State) (f : Routing → Routing) : (s.updNet f).tcache = s.tcache := rfl
@[simp] theorem updNet_regions (s : State) (f : Routing → Routing) : (s.updNet f).regions = s.regions := rfl
@[simp] theorem updNet_extents (s : State) (f : Routing → Routing) : (s.updNet f).extents = s.extents := rfl
@[simp] theorem updNet_chunks (s : State) (f : Routing → Routing) : (s.updNet f).chunks = s.chunks := rfl
@[simp] theorem updNet_pubs (s : State) (f : Routing → Routing) : (s.updNet f).pubs = s.pubs := rfl
@[simp] theorem updNet_queues (s : State) (f : Routing → Routing) : (s.updNet f).queues = s.queues := rfl
@[simp] theorem updNet_descs (s : State) (f : Routing → Routing) : (s.updNet f).descs = s.descs := rfl
@[simp] theorem updNet_descOrder (s : State) (f : Routing → Routing) : (s.updNet f).descOrder = s.descOrder := rfl
@[simp] theorem updNet_heldOrder (s : State) (f : Routing → Routing) : (s.updNet f).heldOrder = s.heldOrder := rfl
@[simp] theorem updNet_eqs (s : State) (f : Routing → Routing) : (s.updNet f).eqs = s.eqs := rfl
@[simp] theorem updNet_faults (s : State) (f : Routing → Routing) : (s.updNet f).faults = s.faults := rfl
@[simp] theorem updNet_coh (s : State) (f : Routing → Routing) : (s.updNet f).coh = s.coh := rfl
@[simp] theorem updNet_pool (s : State) (f : Routing → Routing) : (s.updNet f).pool = s.pool := rfl
@[simp] theorem updNet_engines (s : State) (f : Routing → Routing) : (s.updNet f).engines = s.engines := rfl
@[simp] theorem updNet_colls (s : State) (f : Routing → Routing) : (s.updNet f).colls = s.colls := rfl
@[simp] theorem updNet_ownOut (s : State) (f : Routing → Routing) : (s.updNet f).ownOut = s.ownOut := rfl
@[simp] theorem updNet_shapers (s : State) (f : Routing → Routing) : (s.updNet f).shapers = s.shapers := rfl
@[simp] theorem updNet_wheel (s : State) (f : Routing → Routing) : (s.updNet f).wheel = s.wheel := rfl
@[simp] theorem updNet_ports (s : State) (f : Routing → Routing) : (s.updNet f).ports = s.ports := rfl
@[simp] theorem updNet_net (s : State) (f : Routing → Routing) : (s.updNet f).net = f s.net := rfl
@[simp] theorem updNet_mirror (s : State) (f : Routing → Routing) : (s.updNet f).mirror = s.mirror := rfl
@[simp] theorem updNet_fw (s : State) (f : Routing → Routing) : (s.updNet f).fw = s.fw := rfl
@[simp] theorem updNet_mpc (s : State) (f : Routing → Routing) : (s.updNet f).mpc = s.mpc := rfl
@[simp] theorem updNet_power (s : State) (f : Routing → Routing) : (s.updNet f).power = s.power := rfl
@[simp] theorem updNet_free (s : State) (f : Routing → Routing) : (s.updNet f).free = s.free := rfl
@[simp] theorem updNet_pending (s : State) (f : Routing → Routing) : (s.updNet f).pending = s.pending := rfl
/-! `State.updMirror`. -/
@[simp] theorem updMirror_fuses (s : State) (f : Mirror → Mirror) : (s.updMirror f).fuses = s.fuses := rfl
@[simp] theorem updMirror_flash (s : State) (f : Mirror → Mirror) : (s.updMirror f).flash = s.flash := rfl
@[simp] theorem updMirror_clock (s : State) (f : Mirror → Mirror) : (s.updMirror f).clock = s.clock := rfl
@[simp] theorem updMirror_boot (s : State) (f : Mirror → Mirror) : (s.updMirror f).boot = s.boot := rfl
@[simp] theorem updMirror_pins (s : State) (f : Mirror → Mirror) : (s.updMirror f).pins = s.pins := rfl
@[simp] theorem updMirror_mbs (s : State) (f : Mirror → Mirror) : (s.updMirror f).mbs = s.mbs := rfl
@[simp] theorem updMirror_mbOrder (s : State) (f : Mirror → Mirror) : (s.updMirror f).mbOrder = s.mbOrder := rfl
@[simp] theorem updMirror_parts (s : State) (f : Mirror → Mirror) : (s.updMirror f).parts = s.parts := rfl
@[simp] theorem updMirror_fmEq (s : State) (f : Mirror → Mirror) : (s.updMirror f).fmEq = s.fmEq := rfl
@[simp] theorem updMirror_fmUnbound (s : State) (f : Mirror → Mirror) : (s.updMirror f).fmUnbound = s.fmUnbound := rfl
@[simp] theorem updMirror_ctxs (s : State) (f : Mirror → Mirror) : (s.updMirror f).ctxs = s.ctxs := rfl
@[simp] theorem updMirror_gens (s : State) (f : Mirror → Mirror) : (s.updMirror f).gens = s.gens := rfl
@[simp] theorem updMirror_quarantine (s : State) (f : Mirror → Mirror) : (s.updMirror f).quarantine = s.quarantine := rfl
@[simp] theorem updMirror_tables (s : State) (f : Mirror → Mirror) : (s.updMirror f).tables = s.tables := rfl
@[simp] theorem updMirror_tcache (s : State) (f : Mirror → Mirror) : (s.updMirror f).tcache = s.tcache := rfl
@[simp] theorem updMirror_regions (s : State) (f : Mirror → Mirror) : (s.updMirror f).regions = s.regions := rfl
@[simp] theorem updMirror_extents (s : State) (f : Mirror → Mirror) : (s.updMirror f).extents = s.extents := rfl
@[simp] theorem updMirror_chunks (s : State) (f : Mirror → Mirror) : (s.updMirror f).chunks = s.chunks := rfl
@[simp] theorem updMirror_pubs (s : State) (f : Mirror → Mirror) : (s.updMirror f).pubs = s.pubs := rfl
@[simp] theorem updMirror_queues (s : State) (f : Mirror → Mirror) : (s.updMirror f).queues = s.queues := rfl
@[simp] theorem updMirror_descs (s : State) (f : Mirror → Mirror) : (s.updMirror f).descs = s.descs := rfl
@[simp] theorem updMirror_descOrder (s : State) (f : Mirror → Mirror) : (s.updMirror f).descOrder = s.descOrder := rfl
@[simp] theorem updMirror_heldOrder (s : State) (f : Mirror → Mirror) : (s.updMirror f).heldOrder = s.heldOrder := rfl
@[simp] theorem updMirror_eqs (s : State) (f : Mirror → Mirror) : (s.updMirror f).eqs = s.eqs := rfl
@[simp] theorem updMirror_faults (s : State) (f : Mirror → Mirror) : (s.updMirror f).faults = s.faults := rfl
@[simp] theorem updMirror_coh (s : State) (f : Mirror → Mirror) : (s.updMirror f).coh = s.coh := rfl
@[simp] theorem updMirror_pool (s : State) (f : Mirror → Mirror) : (s.updMirror f).pool = s.pool := rfl
@[simp] theorem updMirror_engines (s : State) (f : Mirror → Mirror) : (s.updMirror f).engines = s.engines := rfl
@[simp] theorem updMirror_colls (s : State) (f : Mirror → Mirror) : (s.updMirror f).colls = s.colls := rfl
@[simp] theorem updMirror_ownOut (s : State) (f : Mirror → Mirror) : (s.updMirror f).ownOut = s.ownOut := rfl
@[simp] theorem updMirror_shapers (s : State) (f : Mirror → Mirror) : (s.updMirror f).shapers = s.shapers := rfl
@[simp] theorem updMirror_wheel (s : State) (f : Mirror → Mirror) : (s.updMirror f).wheel = s.wheel := rfl
@[simp] theorem updMirror_ports (s : State) (f : Mirror → Mirror) : (s.updMirror f).ports = s.ports := rfl
@[simp] theorem updMirror_net (s : State) (f : Mirror → Mirror) : (s.updMirror f).net = s.net := rfl
@[simp] theorem updMirror_mirror (s : State) (f : Mirror → Mirror) : (s.updMirror f).mirror = f s.mirror := rfl
@[simp] theorem updMirror_fw (s : State) (f : Mirror → Mirror) : (s.updMirror f).fw = s.fw := rfl
@[simp] theorem updMirror_mpc (s : State) (f : Mirror → Mirror) : (s.updMirror f).mpc = s.mpc := rfl
@[simp] theorem updMirror_power (s : State) (f : Mirror → Mirror) : (s.updMirror f).power = s.power := rfl
@[simp] theorem updMirror_free (s : State) (f : Mirror → Mirror) : (s.updMirror f).free = s.free := rfl
@[simp] theorem updMirror_pending (s : State) (f : Mirror → Mirror) : (s.updMirror f).pending = s.pending := rfl
/-! `State.updBoot`. -/
@[simp] theorem updBoot_fuses (s : State) (f : Boot → Boot) : (s.updBoot f).fuses = s.fuses := rfl
@[simp] theorem updBoot_flash (s : State) (f : Boot → Boot) : (s.updBoot f).flash = s.flash := rfl
@[simp] theorem updBoot_clock (s : State) (f : Boot → Boot) : (s.updBoot f).clock = s.clock := rfl
@[simp] theorem updBoot_boot (s : State) (f : Boot → Boot) : (s.updBoot f).boot = f s.boot := rfl
@[simp] theorem updBoot_pins (s : State) (f : Boot → Boot) : (s.updBoot f).pins = s.pins := rfl
@[simp] theorem updBoot_mbs (s : State) (f : Boot → Boot) : (s.updBoot f).mbs = s.mbs := rfl
@[simp] theorem updBoot_mbOrder (s : State) (f : Boot → Boot) : (s.updBoot f).mbOrder = s.mbOrder := rfl
@[simp] theorem updBoot_parts (s : State) (f : Boot → Boot) : (s.updBoot f).parts = s.parts := rfl
@[simp] theorem updBoot_fmEq (s : State) (f : Boot → Boot) : (s.updBoot f).fmEq = s.fmEq := rfl
@[simp] theorem updBoot_fmUnbound (s : State) (f : Boot → Boot) : (s.updBoot f).fmUnbound = s.fmUnbound := rfl
@[simp] theorem updBoot_ctxs (s : State) (f : Boot → Boot) : (s.updBoot f).ctxs = s.ctxs := rfl
@[simp] theorem updBoot_gens (s : State) (f : Boot → Boot) : (s.updBoot f).gens = s.gens := rfl
@[simp] theorem updBoot_quarantine (s : State) (f : Boot → Boot) : (s.updBoot f).quarantine = s.quarantine := rfl
@[simp] theorem updBoot_tables (s : State) (f : Boot → Boot) : (s.updBoot f).tables = s.tables := rfl
@[simp] theorem updBoot_tcache (s : State) (f : Boot → Boot) : (s.updBoot f).tcache = s.tcache := rfl
@[simp] theorem updBoot_regions (s : State) (f : Boot → Boot) : (s.updBoot f).regions = s.regions := rfl
@[simp] theorem updBoot_extents (s : State) (f : Boot → Boot) : (s.updBoot f).extents = s.extents := rfl
@[simp] theorem updBoot_chunks (s : State) (f : Boot → Boot) : (s.updBoot f).chunks = s.chunks := rfl
@[simp] theorem updBoot_pubs (s : State) (f : Boot → Boot) : (s.updBoot f).pubs = s.pubs := rfl
@[simp] theorem updBoot_queues (s : State) (f : Boot → Boot) : (s.updBoot f).queues = s.queues := rfl
@[simp] theorem updBoot_descs (s : State) (f : Boot → Boot) : (s.updBoot f).descs = s.descs := rfl
@[simp] theorem updBoot_descOrder (s : State) (f : Boot → Boot) : (s.updBoot f).descOrder = s.descOrder := rfl
@[simp] theorem updBoot_heldOrder (s : State) (f : Boot → Boot) : (s.updBoot f).heldOrder = s.heldOrder := rfl
@[simp] theorem updBoot_eqs (s : State) (f : Boot → Boot) : (s.updBoot f).eqs = s.eqs := rfl
@[simp] theorem updBoot_faults (s : State) (f : Boot → Boot) : (s.updBoot f).faults = s.faults := rfl
@[simp] theorem updBoot_coh (s : State) (f : Boot → Boot) : (s.updBoot f).coh = s.coh := rfl
@[simp] theorem updBoot_pool (s : State) (f : Boot → Boot) : (s.updBoot f).pool = s.pool := rfl
@[simp] theorem updBoot_engines (s : State) (f : Boot → Boot) : (s.updBoot f).engines = s.engines := rfl
@[simp] theorem updBoot_colls (s : State) (f : Boot → Boot) : (s.updBoot f).colls = s.colls := rfl
@[simp] theorem updBoot_ownOut (s : State) (f : Boot → Boot) : (s.updBoot f).ownOut = s.ownOut := rfl
@[simp] theorem updBoot_shapers (s : State) (f : Boot → Boot) : (s.updBoot f).shapers = s.shapers := rfl
@[simp] theorem updBoot_wheel (s : State) (f : Boot → Boot) : (s.updBoot f).wheel = s.wheel := rfl
@[simp] theorem updBoot_ports (s : State) (f : Boot → Boot) : (s.updBoot f).ports = s.ports := rfl
@[simp] theorem updBoot_net (s : State) (f : Boot → Boot) : (s.updBoot f).net = s.net := rfl
@[simp] theorem updBoot_mirror (s : State) (f : Boot → Boot) : (s.updBoot f).mirror = s.mirror := rfl
@[simp] theorem updBoot_fw (s : State) (f : Boot → Boot) : (s.updBoot f).fw = s.fw := rfl
@[simp] theorem updBoot_mpc (s : State) (f : Boot → Boot) : (s.updBoot f).mpc = s.mpc := rfl
@[simp] theorem updBoot_power (s : State) (f : Boot → Boot) : (s.updBoot f).power = s.power := rfl
@[simp] theorem updBoot_free (s : State) (f : Boot → Boot) : (s.updBoot f).free = s.free := rfl
@[simp] theorem updBoot_pending (s : State) (f : Boot → Boot) : (s.updBoot f).pending = s.pending := rfl
/-! `State.updFaults`. -/
@[simp] theorem updFaults_fuses (s : State) (f : Faults → Faults) : (s.updFaults f).fuses = s.fuses := rfl
@[simp] theorem updFaults_flash (s : State) (f : Faults → Faults) : (s.updFaults f).flash = s.flash := rfl
@[simp] theorem updFaults_clock (s : State) (f : Faults → Faults) : (s.updFaults f).clock = s.clock := rfl
@[simp] theorem updFaults_boot (s : State) (f : Faults → Faults) : (s.updFaults f).boot = s.boot := rfl
@[simp] theorem updFaults_pins (s : State) (f : Faults → Faults) : (s.updFaults f).pins = s.pins := rfl
@[simp] theorem updFaults_mbs (s : State) (f : Faults → Faults) : (s.updFaults f).mbs = s.mbs := rfl
@[simp] theorem updFaults_mbOrder (s : State) (f : Faults → Faults) : (s.updFaults f).mbOrder = s.mbOrder := rfl
@[simp] theorem updFaults_parts (s : State) (f : Faults → Faults) : (s.updFaults f).parts = s.parts := rfl
@[simp] theorem updFaults_fmEq (s : State) (f : Faults → Faults) : (s.updFaults f).fmEq = s.fmEq := rfl
@[simp] theorem updFaults_fmUnbound (s : State) (f : Faults → Faults) : (s.updFaults f).fmUnbound = s.fmUnbound := rfl
@[simp] theorem updFaults_ctxs (s : State) (f : Faults → Faults) : (s.updFaults f).ctxs = s.ctxs := rfl
@[simp] theorem updFaults_gens (s : State) (f : Faults → Faults) : (s.updFaults f).gens = s.gens := rfl
@[simp] theorem updFaults_quarantine (s : State) (f : Faults → Faults) : (s.updFaults f).quarantine = s.quarantine := rfl
@[simp] theorem updFaults_tables (s : State) (f : Faults → Faults) : (s.updFaults f).tables = s.tables := rfl
@[simp] theorem updFaults_tcache (s : State) (f : Faults → Faults) : (s.updFaults f).tcache = s.tcache := rfl
@[simp] theorem updFaults_regions (s : State) (f : Faults → Faults) : (s.updFaults f).regions = s.regions := rfl
@[simp] theorem updFaults_extents (s : State) (f : Faults → Faults) : (s.updFaults f).extents = s.extents := rfl
@[simp] theorem updFaults_chunks (s : State) (f : Faults → Faults) : (s.updFaults f).chunks = s.chunks := rfl
@[simp] theorem updFaults_pubs (s : State) (f : Faults → Faults) : (s.updFaults f).pubs = s.pubs := rfl
@[simp] theorem updFaults_queues (s : State) (f : Faults → Faults) : (s.updFaults f).queues = s.queues := rfl
@[simp] theorem updFaults_descs (s : State) (f : Faults → Faults) : (s.updFaults f).descs = s.descs := rfl
@[simp] theorem updFaults_descOrder (s : State) (f : Faults → Faults) : (s.updFaults f).descOrder = s.descOrder := rfl
@[simp] theorem updFaults_heldOrder (s : State) (f : Faults → Faults) : (s.updFaults f).heldOrder = s.heldOrder := rfl
@[simp] theorem updFaults_eqs (s : State) (f : Faults → Faults) : (s.updFaults f).eqs = s.eqs := rfl
@[simp] theorem updFaults_faults (s : State) (f : Faults → Faults) : (s.updFaults f).faults = f s.faults := rfl
@[simp] theorem updFaults_coh (s : State) (f : Faults → Faults) : (s.updFaults f).coh = s.coh := rfl
@[simp] theorem updFaults_pool (s : State) (f : Faults → Faults) : (s.updFaults f).pool = s.pool := rfl
@[simp] theorem updFaults_engines (s : State) (f : Faults → Faults) : (s.updFaults f).engines = s.engines := rfl
@[simp] theorem updFaults_colls (s : State) (f : Faults → Faults) : (s.updFaults f).colls = s.colls := rfl
@[simp] theorem updFaults_ownOut (s : State) (f : Faults → Faults) : (s.updFaults f).ownOut = s.ownOut := rfl
@[simp] theorem updFaults_shapers (s : State) (f : Faults → Faults) : (s.updFaults f).shapers = s.shapers := rfl
@[simp] theorem updFaults_wheel (s : State) (f : Faults → Faults) : (s.updFaults f).wheel = s.wheel := rfl
@[simp] theorem updFaults_ports (s : State) (f : Faults → Faults) : (s.updFaults f).ports = s.ports := rfl
@[simp] theorem updFaults_net (s : State) (f : Faults → Faults) : (s.updFaults f).net = s.net := rfl
@[simp] theorem updFaults_mirror (s : State) (f : Faults → Faults) : (s.updFaults f).mirror = s.mirror := rfl
@[simp] theorem updFaults_fw (s : State) (f : Faults → Faults) : (s.updFaults f).fw = s.fw := rfl
@[simp] theorem updFaults_mpc (s : State) (f : Faults → Faults) : (s.updFaults f).mpc = s.mpc := rfl
@[simp] theorem updFaults_power (s : State) (f : Faults → Faults) : (s.updFaults f).power = s.power := rfl
@[simp] theorem updFaults_free (s : State) (f : Faults → Faults) : (s.updFaults f).free = s.free := rfl
@[simp] theorem updFaults_pending (s : State) (f : Faults → Faults) : (s.updFaults f).pending = s.pending := rfl
/-! `State.updPower`. -/
@[simp] theorem updPower_fuses (s : State) (f : Power → Power) : (s.updPower f).fuses = s.fuses := rfl
@[simp] theorem updPower_flash (s : State) (f : Power → Power) : (s.updPower f).flash = s.flash := rfl
@[simp] theorem updPower_clock (s : State) (f : Power → Power) : (s.updPower f).clock = s.clock := rfl
@[simp] theorem updPower_boot (s : State) (f : Power → Power) : (s.updPower f).boot = s.boot := rfl
@[simp] theorem updPower_pins (s : State) (f : Power → Power) : (s.updPower f).pins = s.pins := rfl
@[simp] theorem updPower_mbs (s : State) (f : Power → Power) : (s.updPower f).mbs = s.mbs := rfl
@[simp] theorem updPower_mbOrder (s : State) (f : Power → Power) : (s.updPower f).mbOrder = s.mbOrder := rfl
@[simp] theorem updPower_parts (s : State) (f : Power → Power) : (s.updPower f).parts = s.parts := rfl
@[simp] theorem updPower_fmEq (s : State) (f : Power → Power) : (s.updPower f).fmEq = s.fmEq := rfl
@[simp] theorem updPower_fmUnbound (s : State) (f : Power → Power) : (s.updPower f).fmUnbound = s.fmUnbound := rfl
@[simp] theorem updPower_ctxs (s : State) (f : Power → Power) : (s.updPower f).ctxs = s.ctxs := rfl
@[simp] theorem updPower_gens (s : State) (f : Power → Power) : (s.updPower f).gens = s.gens := rfl
@[simp] theorem updPower_quarantine (s : State) (f : Power → Power) : (s.updPower f).quarantine = s.quarantine := rfl
@[simp] theorem updPower_tables (s : State) (f : Power → Power) : (s.updPower f).tables = s.tables := rfl
@[simp] theorem updPower_tcache (s : State) (f : Power → Power) : (s.updPower f).tcache = s.tcache := rfl
@[simp] theorem updPower_regions (s : State) (f : Power → Power) : (s.updPower f).regions = s.regions := rfl
@[simp] theorem updPower_extents (s : State) (f : Power → Power) : (s.updPower f).extents = s.extents := rfl
@[simp] theorem updPower_chunks (s : State) (f : Power → Power) : (s.updPower f).chunks = s.chunks := rfl
@[simp] theorem updPower_pubs (s : State) (f : Power → Power) : (s.updPower f).pubs = s.pubs := rfl
@[simp] theorem updPower_queues (s : State) (f : Power → Power) : (s.updPower f).queues = s.queues := rfl
@[simp] theorem updPower_descs (s : State) (f : Power → Power) : (s.updPower f).descs = s.descs := rfl
@[simp] theorem updPower_descOrder (s : State) (f : Power → Power) : (s.updPower f).descOrder = s.descOrder := rfl
@[simp] theorem updPower_heldOrder (s : State) (f : Power → Power) : (s.updPower f).heldOrder = s.heldOrder := rfl
@[simp] theorem updPower_eqs (s : State) (f : Power → Power) : (s.updPower f).eqs = s.eqs := rfl
@[simp] theorem updPower_faults (s : State) (f : Power → Power) : (s.updPower f).faults = s.faults := rfl
@[simp] theorem updPower_coh (s : State) (f : Power → Power) : (s.updPower f).coh = s.coh := rfl
@[simp] theorem updPower_pool (s : State) (f : Power → Power) : (s.updPower f).pool = s.pool := rfl
@[simp] theorem updPower_engines (s : State) (f : Power → Power) : (s.updPower f).engines = s.engines := rfl
@[simp] theorem updPower_colls (s : State) (f : Power → Power) : (s.updPower f).colls = s.colls := rfl
@[simp] theorem updPower_ownOut (s : State) (f : Power → Power) : (s.updPower f).ownOut = s.ownOut := rfl
@[simp] theorem updPower_shapers (s : State) (f : Power → Power) : (s.updPower f).shapers = s.shapers := rfl
@[simp] theorem updPower_wheel (s : State) (f : Power → Power) : (s.updPower f).wheel = s.wheel := rfl
@[simp] theorem updPower_ports (s : State) (f : Power → Power) : (s.updPower f).ports = s.ports := rfl
@[simp] theorem updPower_net (s : State) (f : Power → Power) : (s.updPower f).net = s.net := rfl
@[simp] theorem updPower_mirror (s : State) (f : Power → Power) : (s.updPower f).mirror = s.mirror := rfl
@[simp] theorem updPower_fw (s : State) (f : Power → Power) : (s.updPower f).fw = s.fw := rfl
@[simp] theorem updPower_mpc (s : State) (f : Power → Power) : (s.updPower f).mpc = s.mpc := rfl
@[simp] theorem updPower_power (s : State) (f : Power → Power) : (s.updPower f).power = f s.power := rfl
@[simp] theorem updPower_free (s : State) (f : Power → Power) : (s.updPower f).free = s.free := rfl
@[simp] theorem updPower_pending (s : State) (f : Power → Power) : (s.updPower f).pending = s.pending := rfl
/-! `State.updUnit`. -/
@[simp] theorem updUnit_fuses (s : State) (k : Nat) (f : MemUnit → MemUnit) : (s.updUnit k f).fuses = s.fuses := rfl
@[simp] theorem updUnit_flash (s : State) (k : Nat) (f : MemUnit → MemUnit) : (s.updUnit k f).flash = s.flash := rfl
@[simp] theorem updUnit_clock (s : State) (k : Nat) (f : MemUnit → MemUnit) : (s.updUnit k f).clock = s.clock := rfl
@[simp] theorem updUnit_boot (s : State) (k : Nat) (f : MemUnit → MemUnit) : (s.updUnit k f).boot = s.boot := rfl
@[simp] theorem updUnit_pins (s : State) (k : Nat) (f : MemUnit → MemUnit) : (s.updUnit k f).pins = s.pins := rfl
@[simp] theorem updUnit_mbs (s : State) (k : Nat) (f : MemUnit → MemUnit) : (s.updUnit k f).mbs = s.mbs := rfl
@[simp] theorem updUnit_mbOrder (s : State) (k : Nat) (f : MemUnit → MemUnit) : (s.updUnit k f).mbOrder = s.mbOrder := rfl
@[simp] theorem updUnit_parts (s : State) (k : Nat) (f : MemUnit → MemUnit) : (s.updUnit k f).parts = s.parts := rfl
@[simp] theorem updUnit_fmEq (s : State) (k : Nat) (f : MemUnit → MemUnit) : (s.updUnit k f).fmEq = s.fmEq := rfl
@[simp] theorem updUnit_fmUnbound (s : State) (k : Nat) (f : MemUnit → MemUnit) : (s.updUnit k f).fmUnbound = s.fmUnbound := rfl
@[simp] theorem updUnit_ctxs (s : State) (k : Nat) (f : MemUnit → MemUnit) : (s.updUnit k f).ctxs = s.ctxs := rfl
@[simp] theorem updUnit_gens (s : State) (k : Nat) (f : MemUnit → MemUnit) : (s.updUnit k f).gens = s.gens := rfl
@[simp] theorem updUnit_quarantine (s : State) (k : Nat) (f : MemUnit → MemUnit) : (s.updUnit k f).quarantine = s.quarantine := rfl
@[simp] theorem updUnit_tables (s : State) (k : Nat) (f : MemUnit → MemUnit) : (s.updUnit k f).tables = s.tables := rfl
@[simp] theorem updUnit_tcache (s : State) (k : Nat) (f : MemUnit → MemUnit) : (s.updUnit k f).tcache = s.tcache := rfl
@[simp] theorem updUnit_regions (s : State) (k : Nat) (f : MemUnit → MemUnit) : (s.updUnit k f).regions = s.regions := rfl
@[simp] theorem updUnit_extents (s : State) (k : Nat) (f : MemUnit → MemUnit) : (s.updUnit k f).extents = s.extents := rfl
@[simp] theorem updUnit_chunks (s : State) (k : Nat) (f : MemUnit → MemUnit) : (s.updUnit k f).chunks = s.chunks := rfl
@[simp] theorem updUnit_pubs (s : State) (k : Nat) (f : MemUnit → MemUnit) : (s.updUnit k f).pubs = s.pubs := rfl
@[simp] theorem updUnit_queues (s : State) (k : Nat) (f : MemUnit → MemUnit) : (s.updUnit k f).queues = s.queues := rfl
@[simp] theorem updUnit_descs (s : State) (k : Nat) (f : MemUnit → MemUnit) : (s.updUnit k f).descs = s.descs := rfl
@[simp] theorem updUnit_descOrder (s : State) (k : Nat) (f : MemUnit → MemUnit) : (s.updUnit k f).descOrder = s.descOrder := rfl
@[simp] theorem updUnit_heldOrder (s : State) (k : Nat) (f : MemUnit → MemUnit) : (s.updUnit k f).heldOrder = s.heldOrder := rfl
@[simp] theorem updUnit_eqs (s : State) (k : Nat) (f : MemUnit → MemUnit) : (s.updUnit k f).eqs = s.eqs := rfl
@[simp] theorem updUnit_faults (s : State) (k : Nat) (f : MemUnit → MemUnit) : (s.updUnit k f).faults = s.faults := rfl
@[simp] theorem updUnit_coh (s : State) (k : Nat) (f : MemUnit → MemUnit) : (s.updUnit k f).coh = s.coh := rfl
@[simp] theorem updUnit_pool (s : State) (k : Nat) (f : MemUnit → MemUnit) : (s.updUnit k f).pool = { s.pool with units := s.pool.units.upd k {} f } := rfl
@[simp] theorem updUnit_engines (s : State) (k : Nat) (f : MemUnit → MemUnit) : (s.updUnit k f).engines = s.engines := rfl
@[simp] theorem updUnit_colls (s : State) (k : Nat) (f : MemUnit → MemUnit) : (s.updUnit k f).colls = s.colls := rfl
@[simp] theorem updUnit_ownOut (s : State) (k : Nat) (f : MemUnit → MemUnit) : (s.updUnit k f).ownOut = s.ownOut := rfl
@[simp] theorem updUnit_shapers (s : State) (k : Nat) (f : MemUnit → MemUnit) : (s.updUnit k f).shapers = s.shapers := rfl
@[simp] theorem updUnit_wheel (s : State) (k : Nat) (f : MemUnit → MemUnit) : (s.updUnit k f).wheel = s.wheel := rfl
@[simp] theorem updUnit_ports (s : State) (k : Nat) (f : MemUnit → MemUnit) : (s.updUnit k f).ports = s.ports := rfl
@[simp] theorem updUnit_net (s : State) (k : Nat) (f : MemUnit → MemUnit) : (s.updUnit k f).net = s.net := rfl
@[simp] theorem updUnit_mirror (s : State) (k : Nat) (f : MemUnit → MemUnit) : (s.updUnit k f).mirror = s.mirror := rfl
@[simp] theorem updUnit_fw (s : State) (k : Nat) (f : MemUnit → MemUnit) : (s.updUnit k f).fw = s.fw := rfl
@[simp] theorem updUnit_mpc (s : State) (k : Nat) (f : MemUnit → MemUnit) : (s.updUnit k f).mpc = s.mpc := rfl
@[simp] theorem updUnit_power (s : State) (k : Nat) (f : MemUnit → MemUnit) : (s.updUnit k f).power = s.power := rfl
@[simp] theorem updUnit_free (s : State) (k : Nat) (f : MemUnit → MemUnit) : (s.updUnit k f).free = s.free := rfl
@[simp] theorem updUnit_pending (s : State) (k : Nat) (f : MemUnit → MemUnit) : (s.updUnit k f).pending = s.pending := rfl
/-! `State.updGroup`. -/
@[simp] theorem updGroup_fuses (s : State) (k : Nat) (f : Group → Group) : (s.updGroup k f).fuses = s.fuses := rfl
@[simp] theorem updGroup_flash (s : State) (k : Nat) (f : Group → Group) : (s.updGroup k f).flash = s.flash := rfl
@[simp] theorem updGroup_clock (s : State) (k : Nat) (f : Group → Group) : (s.updGroup k f).clock = s.clock := rfl
@[simp] theorem updGroup_boot (s : State) (k : Nat) (f : Group → Group) : (s.updGroup k f).boot = s.boot := rfl
@[simp] theorem updGroup_pins (s : State) (k : Nat) (f : Group → Group) : (s.updGroup k f).pins = s.pins := rfl
@[simp] theorem updGroup_mbs (s : State) (k : Nat) (f : Group → Group) : (s.updGroup k f).mbs = s.mbs := rfl
@[simp] theorem updGroup_mbOrder (s : State) (k : Nat) (f : Group → Group) : (s.updGroup k f).mbOrder = s.mbOrder := rfl
@[simp] theorem updGroup_parts (s : State) (k : Nat) (f : Group → Group) : (s.updGroup k f).parts = s.parts := rfl
@[simp] theorem updGroup_fmEq (s : State) (k : Nat) (f : Group → Group) : (s.updGroup k f).fmEq = s.fmEq := rfl
@[simp] theorem updGroup_fmUnbound (s : State) (k : Nat) (f : Group → Group) : (s.updGroup k f).fmUnbound = s.fmUnbound := rfl
@[simp] theorem updGroup_ctxs (s : State) (k : Nat) (f : Group → Group) : (s.updGroup k f).ctxs = s.ctxs := rfl
@[simp] theorem updGroup_gens (s : State) (k : Nat) (f : Group → Group) : (s.updGroup k f).gens = s.gens := rfl
@[simp] theorem updGroup_quarantine (s : State) (k : Nat) (f : Group → Group) : (s.updGroup k f).quarantine = s.quarantine := rfl
@[simp] theorem updGroup_tables (s : State) (k : Nat) (f : Group → Group) : (s.updGroup k f).tables = s.tables := rfl
@[simp] theorem updGroup_tcache (s : State) (k : Nat) (f : Group → Group) : (s.updGroup k f).tcache = s.tcache := rfl
@[simp] theorem updGroup_regions (s : State) (k : Nat) (f : Group → Group) : (s.updGroup k f).regions = s.regions := rfl
@[simp] theorem updGroup_extents (s : State) (k : Nat) (f : Group → Group) : (s.updGroup k f).extents = s.extents := rfl
@[simp] theorem updGroup_chunks (s : State) (k : Nat) (f : Group → Group) : (s.updGroup k f).chunks = s.chunks := rfl
@[simp] theorem updGroup_pubs (s : State) (k : Nat) (f : Group → Group) : (s.updGroup k f).pubs = s.pubs := rfl
@[simp] theorem updGroup_queues (s : State) (k : Nat) (f : Group → Group) : (s.updGroup k f).queues = s.queues := rfl
@[simp] theorem updGroup_descs (s : State) (k : Nat) (f : Group → Group) : (s.updGroup k f).descs = s.descs := rfl
@[simp] theorem updGroup_descOrder (s : State) (k : Nat) (f : Group → Group) : (s.updGroup k f).descOrder = s.descOrder := rfl
@[simp] theorem updGroup_heldOrder (s : State) (k : Nat) (f : Group → Group) : (s.updGroup k f).heldOrder = s.heldOrder := rfl
@[simp] theorem updGroup_eqs (s : State) (k : Nat) (f : Group → Group) : (s.updGroup k f).eqs = s.eqs := rfl
@[simp] theorem updGroup_faults (s : State) (k : Nat) (f : Group → Group) : (s.updGroup k f).faults = s.faults := rfl
@[simp] theorem updGroup_coh (s : State) (k : Nat) (f : Group → Group) : (s.updGroup k f).coh = s.coh := rfl
@[simp] theorem updGroup_pool (s : State) (k : Nat) (f : Group → Group) : (s.updGroup k f).pool = { s.pool with groups := s.pool.groups.upd k {} f } := rfl
@[simp] theorem updGroup_engines (s : State) (k : Nat) (f : Group → Group) : (s.updGroup k f).engines = s.engines := rfl
@[simp] theorem updGroup_colls (s : State) (k : Nat) (f : Group → Group) : (s.updGroup k f).colls = s.colls := rfl
@[simp] theorem updGroup_ownOut (s : State) (k : Nat) (f : Group → Group) : (s.updGroup k f).ownOut = s.ownOut := rfl
@[simp] theorem updGroup_shapers (s : State) (k : Nat) (f : Group → Group) : (s.updGroup k f).shapers = s.shapers := rfl
@[simp] theorem updGroup_wheel (s : State) (k : Nat) (f : Group → Group) : (s.updGroup k f).wheel = s.wheel := rfl
@[simp] theorem updGroup_ports (s : State) (k : Nat) (f : Group → Group) : (s.updGroup k f).ports = s.ports := rfl
@[simp] theorem updGroup_net (s : State) (k : Nat) (f : Group → Group) : (s.updGroup k f).net = s.net := rfl
@[simp] theorem updGroup_mirror (s : State) (k : Nat) (f : Group → Group) : (s.updGroup k f).mirror = s.mirror := rfl
@[simp] theorem updGroup_fw (s : State) (k : Nat) (f : Group → Group) : (s.updGroup k f).fw = s.fw := rfl
@[simp] theorem updGroup_mpc (s : State) (k : Nat) (f : Group → Group) : (s.updGroup k f).mpc = s.mpc := rfl
@[simp] theorem updGroup_power (s : State) (k : Nat) (f : Group → Group) : (s.updGroup k f).power = s.power := rfl
@[simp] theorem updGroup_free (s : State) (k : Nat) (f : Group → Group) : (s.updGroup k f).free = s.free := rfl
@[simp] theorem updGroup_pending (s : State) (k : Nat) (f : Group → Group) : (s.updGroup k f).pending = s.pending := rfl
/-! `State.updEngine`. -/
@[simp] theorem updEngine_fuses (s : State) (k : Nat) (f : Engine → Engine) : (s.updEngine k f).fuses = s.fuses := rfl
@[simp] theorem updEngine_flash (s : State) (k : Nat) (f : Engine → Engine) : (s.updEngine k f).flash = s.flash := rfl
@[simp] theorem updEngine_clock (s : State) (k : Nat) (f : Engine → Engine) : (s.updEngine k f).clock = s.clock := rfl
@[simp] theorem updEngine_boot (s : State) (k : Nat) (f : Engine → Engine) : (s.updEngine k f).boot = s.boot := rfl
@[simp] theorem updEngine_pins (s : State) (k : Nat) (f : Engine → Engine) : (s.updEngine k f).pins = s.pins := rfl
@[simp] theorem updEngine_mbs (s : State) (k : Nat) (f : Engine → Engine) : (s.updEngine k f).mbs = s.mbs := rfl
@[simp] theorem updEngine_mbOrder (s : State) (k : Nat) (f : Engine → Engine) : (s.updEngine k f).mbOrder = s.mbOrder := rfl
@[simp] theorem updEngine_parts (s : State) (k : Nat) (f : Engine → Engine) : (s.updEngine k f).parts = s.parts := rfl
@[simp] theorem updEngine_fmEq (s : State) (k : Nat) (f : Engine → Engine) : (s.updEngine k f).fmEq = s.fmEq := rfl
@[simp] theorem updEngine_fmUnbound (s : State) (k : Nat) (f : Engine → Engine) : (s.updEngine k f).fmUnbound = s.fmUnbound := rfl
@[simp] theorem updEngine_ctxs (s : State) (k : Nat) (f : Engine → Engine) : (s.updEngine k f).ctxs = s.ctxs := rfl
@[simp] theorem updEngine_gens (s : State) (k : Nat) (f : Engine → Engine) : (s.updEngine k f).gens = s.gens := rfl
@[simp] theorem updEngine_quarantine (s : State) (k : Nat) (f : Engine → Engine) : (s.updEngine k f).quarantine = s.quarantine := rfl
@[simp] theorem updEngine_tables (s : State) (k : Nat) (f : Engine → Engine) : (s.updEngine k f).tables = s.tables := rfl
@[simp] theorem updEngine_tcache (s : State) (k : Nat) (f : Engine → Engine) : (s.updEngine k f).tcache = s.tcache := rfl
@[simp] theorem updEngine_regions (s : State) (k : Nat) (f : Engine → Engine) : (s.updEngine k f).regions = s.regions := rfl
@[simp] theorem updEngine_extents (s : State) (k : Nat) (f : Engine → Engine) : (s.updEngine k f).extents = s.extents := rfl
@[simp] theorem updEngine_chunks (s : State) (k : Nat) (f : Engine → Engine) : (s.updEngine k f).chunks = s.chunks := rfl
@[simp] theorem updEngine_pubs (s : State) (k : Nat) (f : Engine → Engine) : (s.updEngine k f).pubs = s.pubs := rfl
@[simp] theorem updEngine_queues (s : State) (k : Nat) (f : Engine → Engine) : (s.updEngine k f).queues = s.queues := rfl
@[simp] theorem updEngine_descs (s : State) (k : Nat) (f : Engine → Engine) : (s.updEngine k f).descs = s.descs := rfl
@[simp] theorem updEngine_descOrder (s : State) (k : Nat) (f : Engine → Engine) : (s.updEngine k f).descOrder = s.descOrder := rfl
@[simp] theorem updEngine_heldOrder (s : State) (k : Nat) (f : Engine → Engine) : (s.updEngine k f).heldOrder = s.heldOrder := rfl
@[simp] theorem updEngine_eqs (s : State) (k : Nat) (f : Engine → Engine) : (s.updEngine k f).eqs = s.eqs := rfl
@[simp] theorem updEngine_faults (s : State) (k : Nat) (f : Engine → Engine) : (s.updEngine k f).faults = s.faults := rfl
@[simp] theorem updEngine_coh (s : State) (k : Nat) (f : Engine → Engine) : (s.updEngine k f).coh = s.coh := rfl
@[simp] theorem updEngine_pool (s : State) (k : Nat) (f : Engine → Engine) : (s.updEngine k f).pool = s.pool := rfl
@[simp] theorem updEngine_engines (s : State) (k : Nat) (f : Engine → Engine) : (s.updEngine k f).engines = s.engines.upd k {} f := rfl
@[simp] theorem updEngine_colls (s : State) (k : Nat) (f : Engine → Engine) : (s.updEngine k f).colls = s.colls := rfl
@[simp] theorem updEngine_ownOut (s : State) (k : Nat) (f : Engine → Engine) : (s.updEngine k f).ownOut = s.ownOut := rfl
@[simp] theorem updEngine_shapers (s : State) (k : Nat) (f : Engine → Engine) : (s.updEngine k f).shapers = s.shapers := rfl
@[simp] theorem updEngine_wheel (s : State) (k : Nat) (f : Engine → Engine) : (s.updEngine k f).wheel = s.wheel := rfl
@[simp] theorem updEngine_ports (s : State) (k : Nat) (f : Engine → Engine) : (s.updEngine k f).ports = s.ports := rfl
@[simp] theorem updEngine_net (s : State) (k : Nat) (f : Engine → Engine) : (s.updEngine k f).net = s.net := rfl
@[simp] theorem updEngine_mirror (s : State) (k : Nat) (f : Engine → Engine) : (s.updEngine k f).mirror = s.mirror := rfl
@[simp] theorem updEngine_fw (s : State) (k : Nat) (f : Engine → Engine) : (s.updEngine k f).fw = s.fw := rfl
@[simp] theorem updEngine_mpc (s : State) (k : Nat) (f : Engine → Engine) : (s.updEngine k f).mpc = s.mpc := rfl
@[simp] theorem updEngine_power (s : State) (k : Nat) (f : Engine → Engine) : (s.updEngine k f).power = s.power := rfl
@[simp] theorem updEngine_free (s : State) (k : Nat) (f : Engine → Engine) : (s.updEngine k f).free = s.free := rfl
@[simp] theorem updEngine_pending (s : State) (k : Nat) (f : Engine → Engine) : (s.updEngine k f).pending = s.pending := rfl
/-! `State.updPort`. -/
@[simp] theorem updPort_fuses (s : State) (k : Nat) (f : Port → Port) : (s.updPort k f).fuses = s.fuses := rfl
@[simp] theorem updPort_flash (s : State) (k : Nat) (f : Port → Port) : (s.updPort k f).flash = s.flash := rfl
@[simp] theorem updPort_clock (s : State) (k : Nat) (f : Port → Port) : (s.updPort k f).clock = s.clock := rfl
@[simp] theorem updPort_boot (s : State) (k : Nat) (f : Port → Port) : (s.updPort k f).boot = s.boot := rfl
@[simp] theorem updPort_pins (s : State) (k : Nat) (f : Port → Port) : (s.updPort k f).pins = s.pins := rfl
@[simp] theorem updPort_mbs (s : State) (k : Nat) (f : Port → Port) : (s.updPort k f).mbs = s.mbs := rfl
@[simp] theorem updPort_mbOrder (s : State) (k : Nat) (f : Port → Port) : (s.updPort k f).mbOrder = s.mbOrder := rfl
@[simp] theorem updPort_parts (s : State) (k : Nat) (f : Port → Port) : (s.updPort k f).parts = s.parts := rfl
@[simp] theorem updPort_fmEq (s : State) (k : Nat) (f : Port → Port) : (s.updPort k f).fmEq = s.fmEq := rfl
@[simp] theorem updPort_fmUnbound (s : State) (k : Nat) (f : Port → Port) : (s.updPort k f).fmUnbound = s.fmUnbound := rfl
@[simp] theorem updPort_ctxs (s : State) (k : Nat) (f : Port → Port) : (s.updPort k f).ctxs = s.ctxs := rfl
@[simp] theorem updPort_gens (s : State) (k : Nat) (f : Port → Port) : (s.updPort k f).gens = s.gens := rfl
@[simp] theorem updPort_quarantine (s : State) (k : Nat) (f : Port → Port) : (s.updPort k f).quarantine = s.quarantine := rfl
@[simp] theorem updPort_tables (s : State) (k : Nat) (f : Port → Port) : (s.updPort k f).tables = s.tables := rfl
@[simp] theorem updPort_tcache (s : State) (k : Nat) (f : Port → Port) : (s.updPort k f).tcache = s.tcache := rfl
@[simp] theorem updPort_regions (s : State) (k : Nat) (f : Port → Port) : (s.updPort k f).regions = s.regions := rfl
@[simp] theorem updPort_extents (s : State) (k : Nat) (f : Port → Port) : (s.updPort k f).extents = s.extents := rfl
@[simp] theorem updPort_chunks (s : State) (k : Nat) (f : Port → Port) : (s.updPort k f).chunks = s.chunks := rfl
@[simp] theorem updPort_pubs (s : State) (k : Nat) (f : Port → Port) : (s.updPort k f).pubs = s.pubs := rfl
@[simp] theorem updPort_queues (s : State) (k : Nat) (f : Port → Port) : (s.updPort k f).queues = s.queues := rfl
@[simp] theorem updPort_descs (s : State) (k : Nat) (f : Port → Port) : (s.updPort k f).descs = s.descs := rfl
@[simp] theorem updPort_descOrder (s : State) (k : Nat) (f : Port → Port) : (s.updPort k f).descOrder = s.descOrder := rfl
@[simp] theorem updPort_heldOrder (s : State) (k : Nat) (f : Port → Port) : (s.updPort k f).heldOrder = s.heldOrder := rfl
@[simp] theorem updPort_eqs (s : State) (k : Nat) (f : Port → Port) : (s.updPort k f).eqs = s.eqs := rfl
@[simp] theorem updPort_faults (s : State) (k : Nat) (f : Port → Port) : (s.updPort k f).faults = s.faults := rfl
@[simp] theorem updPort_coh (s : State) (k : Nat) (f : Port → Port) : (s.updPort k f).coh = s.coh := rfl
@[simp] theorem updPort_pool (s : State) (k : Nat) (f : Port → Port) : (s.updPort k f).pool = s.pool := rfl
@[simp] theorem updPort_engines (s : State) (k : Nat) (f : Port → Port) : (s.updPort k f).engines = s.engines := rfl
@[simp] theorem updPort_colls (s : State) (k : Nat) (f : Port → Port) : (s.updPort k f).colls = s.colls := rfl
@[simp] theorem updPort_ownOut (s : State) (k : Nat) (f : Port → Port) : (s.updPort k f).ownOut = s.ownOut := rfl
@[simp] theorem updPort_shapers (s : State) (k : Nat) (f : Port → Port) : (s.updPort k f).shapers = s.shapers := rfl
@[simp] theorem updPort_wheel (s : State) (k : Nat) (f : Port → Port) : (s.updPort k f).wheel = s.wheel := rfl
@[simp] theorem updPort_ports (s : State) (k : Nat) (f : Port → Port) : (s.updPort k f).ports = s.ports.upd k {} f := rfl
@[simp] theorem updPort_net (s : State) (k : Nat) (f : Port → Port) : (s.updPort k f).net = s.net := rfl
@[simp] theorem updPort_mirror (s : State) (k : Nat) (f : Port → Port) : (s.updPort k f).mirror = s.mirror := rfl
@[simp] theorem updPort_fw (s : State) (k : Nat) (f : Port → Port) : (s.updPort k f).fw = s.fw := rfl
@[simp] theorem updPort_mpc (s : State) (k : Nat) (f : Port → Port) : (s.updPort k f).mpc = s.mpc := rfl
@[simp] theorem updPort_power (s : State) (k : Nat) (f : Port → Port) : (s.updPort k f).power = s.power := rfl
@[simp] theorem updPort_free (s : State) (k : Nat) (f : Port → Port) : (s.updPort k f).free = s.free := rfl
@[simp] theorem updPort_pending (s : State) (k : Nat) (f : Port → Port) : (s.updPort k f).pending = s.pending := rfl
/-! `State.updMb`. -/
@[simp] theorem updMb_fuses (s : State) (k : Nat) (f : Mailbox → Mailbox) : (s.updMb k f).fuses = s.fuses := rfl
@[simp] theorem updMb_flash (s : State) (k : Nat) (f : Mailbox → Mailbox) : (s.updMb k f).flash = s.flash := rfl
@[simp] theorem updMb_clock (s : State) (k : Nat) (f : Mailbox → Mailbox) : (s.updMb k f).clock = s.clock := rfl
@[simp] theorem updMb_boot (s : State) (k : Nat) (f : Mailbox → Mailbox) : (s.updMb k f).boot = s.boot := rfl
@[simp] theorem updMb_pins (s : State) (k : Nat) (f : Mailbox → Mailbox) : (s.updMb k f).pins = s.pins := rfl
@[simp] theorem updMb_mbs (s : State) (k : Nat) (f : Mailbox → Mailbox) : (s.updMb k f).mbs = s.mbs.upd k {} f := rfl
@[simp] theorem updMb_mbOrder (s : State) (k : Nat) (f : Mailbox → Mailbox) : (s.updMb k f).mbOrder = s.mbOrder := rfl
@[simp] theorem updMb_parts (s : State) (k : Nat) (f : Mailbox → Mailbox) : (s.updMb k f).parts = s.parts := rfl
@[simp] theorem updMb_fmEq (s : State) (k : Nat) (f : Mailbox → Mailbox) : (s.updMb k f).fmEq = s.fmEq := rfl
@[simp] theorem updMb_fmUnbound (s : State) (k : Nat) (f : Mailbox → Mailbox) : (s.updMb k f).fmUnbound = s.fmUnbound := rfl
@[simp] theorem updMb_ctxs (s : State) (k : Nat) (f : Mailbox → Mailbox) : (s.updMb k f).ctxs = s.ctxs := rfl
@[simp] theorem updMb_gens (s : State) (k : Nat) (f : Mailbox → Mailbox) : (s.updMb k f).gens = s.gens := rfl
@[simp] theorem updMb_quarantine (s : State) (k : Nat) (f : Mailbox → Mailbox) : (s.updMb k f).quarantine = s.quarantine := rfl
@[simp] theorem updMb_tables (s : State) (k : Nat) (f : Mailbox → Mailbox) : (s.updMb k f).tables = s.tables := rfl
@[simp] theorem updMb_tcache (s : State) (k : Nat) (f : Mailbox → Mailbox) : (s.updMb k f).tcache = s.tcache := rfl
@[simp] theorem updMb_regions (s : State) (k : Nat) (f : Mailbox → Mailbox) : (s.updMb k f).regions = s.regions := rfl
@[simp] theorem updMb_extents (s : State) (k : Nat) (f : Mailbox → Mailbox) : (s.updMb k f).extents = s.extents := rfl
@[simp] theorem updMb_chunks (s : State) (k : Nat) (f : Mailbox → Mailbox) : (s.updMb k f).chunks = s.chunks := rfl
@[simp] theorem updMb_pubs (s : State) (k : Nat) (f : Mailbox → Mailbox) : (s.updMb k f).pubs = s.pubs := rfl
@[simp] theorem updMb_queues (s : State) (k : Nat) (f : Mailbox → Mailbox) : (s.updMb k f).queues = s.queues := rfl
@[simp] theorem updMb_descs (s : State) (k : Nat) (f : Mailbox → Mailbox) : (s.updMb k f).descs = s.descs := rfl
@[simp] theorem updMb_descOrder (s : State) (k : Nat) (f : Mailbox → Mailbox) : (s.updMb k f).descOrder = s.descOrder := rfl
@[simp] theorem updMb_heldOrder (s : State) (k : Nat) (f : Mailbox → Mailbox) : (s.updMb k f).heldOrder = s.heldOrder := rfl
@[simp] theorem updMb_eqs (s : State) (k : Nat) (f : Mailbox → Mailbox) : (s.updMb k f).eqs = s.eqs := rfl
@[simp] theorem updMb_faults (s : State) (k : Nat) (f : Mailbox → Mailbox) : (s.updMb k f).faults = s.faults := rfl
@[simp] theorem updMb_coh (s : State) (k : Nat) (f : Mailbox → Mailbox) : (s.updMb k f).coh = s.coh := rfl
@[simp] theorem updMb_pool (s : State) (k : Nat) (f : Mailbox → Mailbox) : (s.updMb k f).pool = s.pool := rfl
@[simp] theorem updMb_engines (s : State) (k : Nat) (f : Mailbox → Mailbox) : (s.updMb k f).engines = s.engines := rfl
@[simp] theorem updMb_colls (s : State) (k : Nat) (f : Mailbox → Mailbox) : (s.updMb k f).colls = s.colls := rfl
@[simp] theorem updMb_ownOut (s : State) (k : Nat) (f : Mailbox → Mailbox) : (s.updMb k f).ownOut = s.ownOut := rfl
@[simp] theorem updMb_shapers (s : State) (k : Nat) (f : Mailbox → Mailbox) : (s.updMb k f).shapers = s.shapers := rfl
@[simp] theorem updMb_wheel (s : State) (k : Nat) (f : Mailbox → Mailbox) : (s.updMb k f).wheel = s.wheel := rfl
@[simp] theorem updMb_ports (s : State) (k : Nat) (f : Mailbox → Mailbox) : (s.updMb k f).ports = s.ports := rfl
@[simp] theorem updMb_net (s : State) (k : Nat) (f : Mailbox → Mailbox) : (s.updMb k f).net = s.net := rfl
@[simp] theorem updMb_mirror (s : State) (k : Nat) (f : Mailbox → Mailbox) : (s.updMb k f).mirror = s.mirror := rfl
@[simp] theorem updMb_fw (s : State) (k : Nat) (f : Mailbox → Mailbox) : (s.updMb k f).fw = s.fw := rfl
@[simp] theorem updMb_mpc (s : State) (k : Nat) (f : Mailbox → Mailbox) : (s.updMb k f).mpc = s.mpc := rfl
@[simp] theorem updMb_power (s : State) (k : Nat) (f : Mailbox → Mailbox) : (s.updMb k f).power = s.power := rfl
@[simp] theorem updMb_free (s : State) (k : Nat) (f : Mailbox → Mailbox) : (s.updMb k f).free = s.free := rfl
@[simp] theorem updMb_pending (s : State) (k : Nat) (f : Mailbox → Mailbox) : (s.updMb k f).pending = s.pending := rfl
/-! `State.respond`. -/
@[simp] theorem respond_fuses (s : State) (k : Nat) (r : Resp) : (s.respond k r).fuses = s.fuses := rfl
@[simp] theorem respond_flash (s : State) (k : Nat) (r : Resp) : (s.respond k r).flash = s.flash := rfl
@[simp] theorem respond_clock (s : State) (k : Nat) (r : Resp) : (s.respond k r).clock = s.clock := rfl
@[simp] theorem respond_boot (s : State) (k : Nat) (r : Resp) : (s.respond k r).boot = s.boot := rfl
@[simp] theorem respond_pins (s : State) (k : Nat) (r : Resp) : (s.respond k r).pins = s.pins := rfl
@[simp] theorem respond_mbs (s : State) (k : Nat) (r : Resp) : (s.respond k r).mbs = s.mbs.upd k {} (fun b => { b with result := some r }) := rfl
@[simp] theorem respond_mbOrder (s : State) (k : Nat) (r : Resp) : (s.respond k r).mbOrder = s.mbOrder := rfl
@[simp] theorem respond_parts (s : State) (k : Nat) (r : Resp) : (s.respond k r).parts = s.parts := rfl
@[simp] theorem respond_fmEq (s : State) (k : Nat) (r : Resp) : (s.respond k r).fmEq = s.fmEq := rfl
@[simp] theorem respond_fmUnbound (s : State) (k : Nat) (r : Resp) : (s.respond k r).fmUnbound = s.fmUnbound := rfl
@[simp] theorem respond_ctxs (s : State) (k : Nat) (r : Resp) : (s.respond k r).ctxs = s.ctxs := rfl
@[simp] theorem respond_gens (s : State) (k : Nat) (r : Resp) : (s.respond k r).gens = s.gens := rfl
@[simp] theorem respond_quarantine (s : State) (k : Nat) (r : Resp) : (s.respond k r).quarantine = s.quarantine := rfl
@[simp] theorem respond_tables (s : State) (k : Nat) (r : Resp) : (s.respond k r).tables = s.tables := rfl
@[simp] theorem respond_tcache (s : State) (k : Nat) (r : Resp) : (s.respond k r).tcache = s.tcache := rfl
@[simp] theorem respond_regions (s : State) (k : Nat) (r : Resp) : (s.respond k r).regions = s.regions := rfl
@[simp] theorem respond_extents (s : State) (k : Nat) (r : Resp) : (s.respond k r).extents = s.extents := rfl
@[simp] theorem respond_chunks (s : State) (k : Nat) (r : Resp) : (s.respond k r).chunks = s.chunks := rfl
@[simp] theorem respond_pubs (s : State) (k : Nat) (r : Resp) : (s.respond k r).pubs = s.pubs := rfl
@[simp] theorem respond_queues (s : State) (k : Nat) (r : Resp) : (s.respond k r).queues = s.queues := rfl
@[simp] theorem respond_descs (s : State) (k : Nat) (r : Resp) : (s.respond k r).descs = s.descs := rfl
@[simp] theorem respond_descOrder (s : State) (k : Nat) (r : Resp) : (s.respond k r).descOrder = s.descOrder := rfl
@[simp] theorem respond_heldOrder (s : State) (k : Nat) (r : Resp) : (s.respond k r).heldOrder = s.heldOrder := rfl
@[simp] theorem respond_eqs (s : State) (k : Nat) (r : Resp) : (s.respond k r).eqs = s.eqs := rfl
@[simp] theorem respond_faults (s : State) (k : Nat) (r : Resp) : (s.respond k r).faults = s.faults := rfl
@[simp] theorem respond_coh (s : State) (k : Nat) (r : Resp) : (s.respond k r).coh = s.coh := rfl
@[simp] theorem respond_pool (s : State) (k : Nat) (r : Resp) : (s.respond k r).pool = s.pool := rfl
@[simp] theorem respond_engines (s : State) (k : Nat) (r : Resp) : (s.respond k r).engines = s.engines := rfl
@[simp] theorem respond_colls (s : State) (k : Nat) (r : Resp) : (s.respond k r).colls = s.colls := rfl
@[simp] theorem respond_ownOut (s : State) (k : Nat) (r : Resp) : (s.respond k r).ownOut = s.ownOut := rfl
@[simp] theorem respond_shapers (s : State) (k : Nat) (r : Resp) : (s.respond k r).shapers = s.shapers := rfl
@[simp] theorem respond_wheel (s : State) (k : Nat) (r : Resp) : (s.respond k r).wheel = s.wheel := rfl
@[simp] theorem respond_ports (s : State) (k : Nat) (r : Resp) : (s.respond k r).ports = s.ports := rfl
@[simp] theorem respond_net (s : State) (k : Nat) (r : Resp) : (s.respond k r).net = s.net := rfl
@[simp] theorem respond_mirror (s : State) (k : Nat) (r : Resp) : (s.respond k r).mirror = s.mirror := rfl
@[simp] theorem respond_fw (s : State) (k : Nat) (r : Resp) : (s.respond k r).fw = s.fw := rfl
@[simp] theorem respond_mpc (s : State) (k : Nat) (r : Resp) : (s.respond k r).mpc = s.mpc := rfl
@[simp] theorem respond_power (s : State) (k : Nat) (r : Resp) : (s.respond k r).power = s.power := rfl
@[simp] theorem respond_free (s : State) (k : Nat) (r : Resp) : (s.respond k r).free = s.free := rfl
@[simp] theorem respond_pending (s : State) (k : Nat) (r : Resp) : (s.respond k r).pending = s.pending := rfl
/-! `State.modCtx`. -/
@[simp] theorem modCtx_fuses (s : State) (k : Nat) (f : Context → Context) : (s.modCtx k f).fuses = s.fuses := rfl
@[simp] theorem modCtx_flash (s : State) (k : Nat) (f : Context → Context) : (s.modCtx k f).flash = s.flash := rfl
@[simp] theorem modCtx_clock (s : State) (k : Nat) (f : Context → Context) : (s.modCtx k f).clock = s.clock := rfl
@[simp] theorem modCtx_boot (s : State) (k : Nat) (f : Context → Context) : (s.modCtx k f).boot = s.boot := rfl
@[simp] theorem modCtx_pins (s : State) (k : Nat) (f : Context → Context) : (s.modCtx k f).pins = s.pins := rfl
@[simp] theorem modCtx_mbs (s : State) (k : Nat) (f : Context → Context) : (s.modCtx k f).mbs = s.mbs := rfl
@[simp] theorem modCtx_mbOrder (s : State) (k : Nat) (f : Context → Context) : (s.modCtx k f).mbOrder = s.mbOrder := rfl
@[simp] theorem modCtx_parts (s : State) (k : Nat) (f : Context → Context) : (s.modCtx k f).parts = s.parts := rfl
@[simp] theorem modCtx_fmEq (s : State) (k : Nat) (f : Context → Context) : (s.modCtx k f).fmEq = s.fmEq := rfl
@[simp] theorem modCtx_fmUnbound (s : State) (k : Nat) (f : Context → Context) : (s.modCtx k f).fmUnbound = s.fmUnbound := rfl
@[simp] theorem modCtx_ctxs (s : State) (k : Nat) (f : Context → Context) : (s.modCtx k f).ctxs = s.ctxs.mod k f := rfl
@[simp] theorem modCtx_gens (s : State) (k : Nat) (f : Context → Context) : (s.modCtx k f).gens = s.gens := rfl
@[simp] theorem modCtx_quarantine (s : State) (k : Nat) (f : Context → Context) : (s.modCtx k f).quarantine = s.quarantine := rfl
@[simp] theorem modCtx_tables (s : State) (k : Nat) (f : Context → Context) : (s.modCtx k f).tables = s.tables := rfl
@[simp] theorem modCtx_tcache (s : State) (k : Nat) (f : Context → Context) : (s.modCtx k f).tcache = s.tcache := rfl
@[simp] theorem modCtx_regions (s : State) (k : Nat) (f : Context → Context) : (s.modCtx k f).regions = s.regions := rfl
@[simp] theorem modCtx_extents (s : State) (k : Nat) (f : Context → Context) : (s.modCtx k f).extents = s.extents := rfl
@[simp] theorem modCtx_chunks (s : State) (k : Nat) (f : Context → Context) : (s.modCtx k f).chunks = s.chunks := rfl
@[simp] theorem modCtx_pubs (s : State) (k : Nat) (f : Context → Context) : (s.modCtx k f).pubs = s.pubs := rfl
@[simp] theorem modCtx_queues (s : State) (k : Nat) (f : Context → Context) : (s.modCtx k f).queues = s.queues := rfl
@[simp] theorem modCtx_descs (s : State) (k : Nat) (f : Context → Context) : (s.modCtx k f).descs = s.descs := rfl
@[simp] theorem modCtx_descOrder (s : State) (k : Nat) (f : Context → Context) : (s.modCtx k f).descOrder = s.descOrder := rfl
@[simp] theorem modCtx_heldOrder (s : State) (k : Nat) (f : Context → Context) : (s.modCtx k f).heldOrder = s.heldOrder := rfl
@[simp] theorem modCtx_eqs (s : State) (k : Nat) (f : Context → Context) : (s.modCtx k f).eqs = s.eqs := rfl
@[simp] theorem modCtx_faults (s : State) (k : Nat) (f : Context → Context) : (s.modCtx k f).faults = s.faults := rfl
@[simp] theorem modCtx_coh (s : State) (k : Nat) (f : Context → Context) : (s.modCtx k f).coh = s.coh := rfl
@[simp] theorem modCtx_pool (s : State) (k : Nat) (f : Context → Context) : (s.modCtx k f).pool = s.pool := rfl
@[simp] theorem modCtx_engines (s : State) (k : Nat) (f : Context → Context) : (s.modCtx k f).engines = s.engines := rfl
@[simp] theorem modCtx_colls (s : State) (k : Nat) (f : Context → Context) : (s.modCtx k f).colls = s.colls := rfl
@[simp] theorem modCtx_ownOut (s : State) (k : Nat) (f : Context → Context) : (s.modCtx k f).ownOut = s.ownOut := rfl
@[simp] theorem modCtx_shapers (s : State) (k : Nat) (f : Context → Context) : (s.modCtx k f).shapers = s.shapers := rfl
@[simp] theorem modCtx_wheel (s : State) (k : Nat) (f : Context → Context) : (s.modCtx k f).wheel = s.wheel := rfl
@[simp] theorem modCtx_ports (s : State) (k : Nat) (f : Context → Context) : (s.modCtx k f).ports = s.ports := rfl
@[simp] theorem modCtx_net (s : State) (k : Nat) (f : Context → Context) : (s.modCtx k f).net = s.net := rfl
@[simp] theorem modCtx_mirror (s : State) (k : Nat) (f : Context → Context) : (s.modCtx k f).mirror = s.mirror := rfl
@[simp] theorem modCtx_fw (s : State) (k : Nat) (f : Context → Context) : (s.modCtx k f).fw = s.fw := rfl
@[simp] theorem modCtx_mpc (s : State) (k : Nat) (f : Context → Context) : (s.modCtx k f).mpc = s.mpc := rfl
@[simp] theorem modCtx_power (s : State) (k : Nat) (f : Context → Context) : (s.modCtx k f).power = s.power := rfl
@[simp] theorem modCtx_free (s : State) (k : Nat) (f : Context → Context) : (s.modCtx k f).free = s.free := rfl
@[simp] theorem modCtx_pending (s : State) (k : Nat) (f : Context → Context) : (s.modCtx k f).pending = s.pending := rfl
/-! `State.modRegion`. -/
@[simp] theorem modRegion_fuses (s : State) (k : Nat) (f : Region → Region) : (s.modRegion k f).fuses = s.fuses := rfl
@[simp] theorem modRegion_flash (s : State) (k : Nat) (f : Region → Region) : (s.modRegion k f).flash = s.flash := rfl
@[simp] theorem modRegion_clock (s : State) (k : Nat) (f : Region → Region) : (s.modRegion k f).clock = s.clock := rfl
@[simp] theorem modRegion_boot (s : State) (k : Nat) (f : Region → Region) : (s.modRegion k f).boot = s.boot := rfl
@[simp] theorem modRegion_pins (s : State) (k : Nat) (f : Region → Region) : (s.modRegion k f).pins = s.pins := rfl
@[simp] theorem modRegion_mbs (s : State) (k : Nat) (f : Region → Region) : (s.modRegion k f).mbs = s.mbs := rfl
@[simp] theorem modRegion_mbOrder (s : State) (k : Nat) (f : Region → Region) : (s.modRegion k f).mbOrder = s.mbOrder := rfl
@[simp] theorem modRegion_parts (s : State) (k : Nat) (f : Region → Region) : (s.modRegion k f).parts = s.parts := rfl
@[simp] theorem modRegion_fmEq (s : State) (k : Nat) (f : Region → Region) : (s.modRegion k f).fmEq = s.fmEq := rfl
@[simp] theorem modRegion_fmUnbound (s : State) (k : Nat) (f : Region → Region) : (s.modRegion k f).fmUnbound = s.fmUnbound := rfl
@[simp] theorem modRegion_ctxs (s : State) (k : Nat) (f : Region → Region) : (s.modRegion k f).ctxs = s.ctxs := rfl
@[simp] theorem modRegion_gens (s : State) (k : Nat) (f : Region → Region) : (s.modRegion k f).gens = s.gens := rfl
@[simp] theorem modRegion_quarantine (s : State) (k : Nat) (f : Region → Region) : (s.modRegion k f).quarantine = s.quarantine := rfl
@[simp] theorem modRegion_tables (s : State) (k : Nat) (f : Region → Region) : (s.modRegion k f).tables = s.tables := rfl
@[simp] theorem modRegion_tcache (s : State) (k : Nat) (f : Region → Region) : (s.modRegion k f).tcache = s.tcache := rfl
@[simp] theorem modRegion_regions (s : State) (k : Nat) (f : Region → Region) : (s.modRegion k f).regions = s.regions.mod k f := rfl
@[simp] theorem modRegion_extents (s : State) (k : Nat) (f : Region → Region) : (s.modRegion k f).extents = s.extents := rfl
@[simp] theorem modRegion_chunks (s : State) (k : Nat) (f : Region → Region) : (s.modRegion k f).chunks = s.chunks := rfl
@[simp] theorem modRegion_pubs (s : State) (k : Nat) (f : Region → Region) : (s.modRegion k f).pubs = s.pubs := rfl
@[simp] theorem modRegion_queues (s : State) (k : Nat) (f : Region → Region) : (s.modRegion k f).queues = s.queues := rfl
@[simp] theorem modRegion_descs (s : State) (k : Nat) (f : Region → Region) : (s.modRegion k f).descs = s.descs := rfl
@[simp] theorem modRegion_descOrder (s : State) (k : Nat) (f : Region → Region) : (s.modRegion k f).descOrder = s.descOrder := rfl
@[simp] theorem modRegion_heldOrder (s : State) (k : Nat) (f : Region → Region) : (s.modRegion k f).heldOrder = s.heldOrder := rfl
@[simp] theorem modRegion_eqs (s : State) (k : Nat) (f : Region → Region) : (s.modRegion k f).eqs = s.eqs := rfl
@[simp] theorem modRegion_faults (s : State) (k : Nat) (f : Region → Region) : (s.modRegion k f).faults = s.faults := rfl
@[simp] theorem modRegion_coh (s : State) (k : Nat) (f : Region → Region) : (s.modRegion k f).coh = s.coh := rfl
@[simp] theorem modRegion_pool (s : State) (k : Nat) (f : Region → Region) : (s.modRegion k f).pool = s.pool := rfl
@[simp] theorem modRegion_engines (s : State) (k : Nat) (f : Region → Region) : (s.modRegion k f).engines = s.engines := rfl
@[simp] theorem modRegion_colls (s : State) (k : Nat) (f : Region → Region) : (s.modRegion k f).colls = s.colls := rfl
@[simp] theorem modRegion_ownOut (s : State) (k : Nat) (f : Region → Region) : (s.modRegion k f).ownOut = s.ownOut := rfl
@[simp] theorem modRegion_shapers (s : State) (k : Nat) (f : Region → Region) : (s.modRegion k f).shapers = s.shapers := rfl
@[simp] theorem modRegion_wheel (s : State) (k : Nat) (f : Region → Region) : (s.modRegion k f).wheel = s.wheel := rfl
@[simp] theorem modRegion_ports (s : State) (k : Nat) (f : Region → Region) : (s.modRegion k f).ports = s.ports := rfl
@[simp] theorem modRegion_net (s : State) (k : Nat) (f : Region → Region) : (s.modRegion k f).net = s.net := rfl
@[simp] theorem modRegion_mirror (s : State) (k : Nat) (f : Region → Region) : (s.modRegion k f).mirror = s.mirror := rfl
@[simp] theorem modRegion_fw (s : State) (k : Nat) (f : Region → Region) : (s.modRegion k f).fw = s.fw := rfl
@[simp] theorem modRegion_mpc (s : State) (k : Nat) (f : Region → Region) : (s.modRegion k f).mpc = s.mpc := rfl
@[simp] theorem modRegion_power (s : State) (k : Nat) (f : Region → Region) : (s.modRegion k f).power = s.power := rfl
@[simp] theorem modRegion_free (s : State) (k : Nat) (f : Region → Region) : (s.modRegion k f).free = s.free := rfl
@[simp] theorem modRegion_pending (s : State) (k : Nat) (f : Region → Region) : (s.modRegion k f).pending = s.pending := rfl
/-! `State.modQueue`. -/
@[simp] theorem modQueue_fuses (s : State) (k : Nat) (f : Queue → Queue) : (s.modQueue k f).fuses = s.fuses := rfl
@[simp] theorem modQueue_flash (s : State) (k : Nat) (f : Queue → Queue) : (s.modQueue k f).flash = s.flash := rfl
@[simp] theorem modQueue_clock (s : State) (k : Nat) (f : Queue → Queue) : (s.modQueue k f).clock = s.clock := rfl
@[simp] theorem modQueue_boot (s : State) (k : Nat) (f : Queue → Queue) : (s.modQueue k f).boot = s.boot := rfl
@[simp] theorem modQueue_pins (s : State) (k : Nat) (f : Queue → Queue) : (s.modQueue k f).pins = s.pins := rfl
@[simp] theorem modQueue_mbs (s : State) (k : Nat) (f : Queue → Queue) : (s.modQueue k f).mbs = s.mbs := rfl
@[simp] theorem modQueue_mbOrder (s : State) (k : Nat) (f : Queue → Queue) : (s.modQueue k f).mbOrder = s.mbOrder := rfl
@[simp] theorem modQueue_parts (s : State) (k : Nat) (f : Queue → Queue) : (s.modQueue k f).parts = s.parts := rfl
@[simp] theorem modQueue_fmEq (s : State) (k : Nat) (f : Queue → Queue) : (s.modQueue k f).fmEq = s.fmEq := rfl
@[simp] theorem modQueue_fmUnbound (s : State) (k : Nat) (f : Queue → Queue) : (s.modQueue k f).fmUnbound = s.fmUnbound := rfl
@[simp] theorem modQueue_ctxs (s : State) (k : Nat) (f : Queue → Queue) : (s.modQueue k f).ctxs = s.ctxs := rfl
@[simp] theorem modQueue_gens (s : State) (k : Nat) (f : Queue → Queue) : (s.modQueue k f).gens = s.gens := rfl
@[simp] theorem modQueue_quarantine (s : State) (k : Nat) (f : Queue → Queue) : (s.modQueue k f).quarantine = s.quarantine := rfl
@[simp] theorem modQueue_tables (s : State) (k : Nat) (f : Queue → Queue) : (s.modQueue k f).tables = s.tables := rfl
@[simp] theorem modQueue_tcache (s : State) (k : Nat) (f : Queue → Queue) : (s.modQueue k f).tcache = s.tcache := rfl
@[simp] theorem modQueue_regions (s : State) (k : Nat) (f : Queue → Queue) : (s.modQueue k f).regions = s.regions := rfl
@[simp] theorem modQueue_extents (s : State) (k : Nat) (f : Queue → Queue) : (s.modQueue k f).extents = s.extents := rfl
@[simp] theorem modQueue_chunks (s : State) (k : Nat) (f : Queue → Queue) : (s.modQueue k f).chunks = s.chunks := rfl
@[simp] theorem modQueue_pubs (s : State) (k : Nat) (f : Queue → Queue) : (s.modQueue k f).pubs = s.pubs := rfl
@[simp] theorem modQueue_queues (s : State) (k : Nat) (f : Queue → Queue) : (s.modQueue k f).queues = s.queues.mod k f := rfl
@[simp] theorem modQueue_descs (s : State) (k : Nat) (f : Queue → Queue) : (s.modQueue k f).descs = s.descs := rfl
@[simp] theorem modQueue_descOrder (s : State) (k : Nat) (f : Queue → Queue) : (s.modQueue k f).descOrder = s.descOrder := rfl
@[simp] theorem modQueue_heldOrder (s : State) (k : Nat) (f : Queue → Queue) : (s.modQueue k f).heldOrder = s.heldOrder := rfl
@[simp] theorem modQueue_eqs (s : State) (k : Nat) (f : Queue → Queue) : (s.modQueue k f).eqs = s.eqs := rfl
@[simp] theorem modQueue_faults (s : State) (k : Nat) (f : Queue → Queue) : (s.modQueue k f).faults = s.faults := rfl
@[simp] theorem modQueue_coh (s : State) (k : Nat) (f : Queue → Queue) : (s.modQueue k f).coh = s.coh := rfl
@[simp] theorem modQueue_pool (s : State) (k : Nat) (f : Queue → Queue) : (s.modQueue k f).pool = s.pool := rfl
@[simp] theorem modQueue_engines (s : State) (k : Nat) (f : Queue → Queue) : (s.modQueue k f).engines = s.engines := rfl
@[simp] theorem modQueue_colls (s : State) (k : Nat) (f : Queue → Queue) : (s.modQueue k f).colls = s.colls := rfl
@[simp] theorem modQueue_ownOut (s : State) (k : Nat) (f : Queue → Queue) : (s.modQueue k f).ownOut = s.ownOut := rfl
@[simp] theorem modQueue_shapers (s : State) (k : Nat) (f : Queue → Queue) : (s.modQueue k f).shapers = s.shapers := rfl
@[simp] theorem modQueue_wheel (s : State) (k : Nat) (f : Queue → Queue) : (s.modQueue k f).wheel = s.wheel := rfl
@[simp] theorem modQueue_ports (s : State) (k : Nat) (f : Queue → Queue) : (s.modQueue k f).ports = s.ports := rfl
@[simp] theorem modQueue_net (s : State) (k : Nat) (f : Queue → Queue) : (s.modQueue k f).net = s.net := rfl
@[simp] theorem modQueue_mirror (s : State) (k : Nat) (f : Queue → Queue) : (s.modQueue k f).mirror = s.mirror := rfl
@[simp] theorem modQueue_fw (s : State) (k : Nat) (f : Queue → Queue) : (s.modQueue k f).fw = s.fw := rfl
@[simp] theorem modQueue_mpc (s : State) (k : Nat) (f : Queue → Queue) : (s.modQueue k f).mpc = s.mpc := rfl
@[simp] theorem modQueue_power (s : State) (k : Nat) (f : Queue → Queue) : (s.modQueue k f).power = s.power := rfl
@[simp] theorem modQueue_free (s : State) (k : Nat) (f : Queue → Queue) : (s.modQueue k f).free = s.free := rfl
@[simp] theorem modQueue_pending (s : State) (k : Nat) (f : Queue → Queue) : (s.modQueue k f).pending = s.pending := rfl
/-! `State.modEq`. -/
@[simp] theorem modEq_fuses (s : State) (k : Nat) (f : EventQ → EventQ) : (s.modEq k f).fuses = s.fuses := rfl
@[simp] theorem modEq_flash (s : State) (k : Nat) (f : EventQ → EventQ) : (s.modEq k f).flash = s.flash := rfl
@[simp] theorem modEq_clock (s : State) (k : Nat) (f : EventQ → EventQ) : (s.modEq k f).clock = s.clock := rfl
@[simp] theorem modEq_boot (s : State) (k : Nat) (f : EventQ → EventQ) : (s.modEq k f).boot = s.boot := rfl
@[simp] theorem modEq_pins (s : State) (k : Nat) (f : EventQ → EventQ) : (s.modEq k f).pins = s.pins := rfl
@[simp] theorem modEq_mbs (s : State) (k : Nat) (f : EventQ → EventQ) : (s.modEq k f).mbs = s.mbs := rfl
@[simp] theorem modEq_mbOrder (s : State) (k : Nat) (f : EventQ → EventQ) : (s.modEq k f).mbOrder = s.mbOrder := rfl
@[simp] theorem modEq_parts (s : State) (k : Nat) (f : EventQ → EventQ) : (s.modEq k f).parts = s.parts := rfl
@[simp] theorem modEq_fmEq (s : State) (k : Nat) (f : EventQ → EventQ) : (s.modEq k f).fmEq = s.fmEq := rfl
@[simp] theorem modEq_fmUnbound (s : State) (k : Nat) (f : EventQ → EventQ) : (s.modEq k f).fmUnbound = s.fmUnbound := rfl
@[simp] theorem modEq_ctxs (s : State) (k : Nat) (f : EventQ → EventQ) : (s.modEq k f).ctxs = s.ctxs := rfl
@[simp] theorem modEq_gens (s : State) (k : Nat) (f : EventQ → EventQ) : (s.modEq k f).gens = s.gens := rfl
@[simp] theorem modEq_quarantine (s : State) (k : Nat) (f : EventQ → EventQ) : (s.modEq k f).quarantine = s.quarantine := rfl
@[simp] theorem modEq_tables (s : State) (k : Nat) (f : EventQ → EventQ) : (s.modEq k f).tables = s.tables := rfl
@[simp] theorem modEq_tcache (s : State) (k : Nat) (f : EventQ → EventQ) : (s.modEq k f).tcache = s.tcache := rfl
@[simp] theorem modEq_regions (s : State) (k : Nat) (f : EventQ → EventQ) : (s.modEq k f).regions = s.regions := rfl
@[simp] theorem modEq_extents (s : State) (k : Nat) (f : EventQ → EventQ) : (s.modEq k f).extents = s.extents := rfl
@[simp] theorem modEq_chunks (s : State) (k : Nat) (f : EventQ → EventQ) : (s.modEq k f).chunks = s.chunks := rfl
@[simp] theorem modEq_pubs (s : State) (k : Nat) (f : EventQ → EventQ) : (s.modEq k f).pubs = s.pubs := rfl
@[simp] theorem modEq_queues (s : State) (k : Nat) (f : EventQ → EventQ) : (s.modEq k f).queues = s.queues := rfl
@[simp] theorem modEq_descs (s : State) (k : Nat) (f : EventQ → EventQ) : (s.modEq k f).descs = s.descs := rfl
@[simp] theorem modEq_descOrder (s : State) (k : Nat) (f : EventQ → EventQ) : (s.modEq k f).descOrder = s.descOrder := rfl
@[simp] theorem modEq_heldOrder (s : State) (k : Nat) (f : EventQ → EventQ) : (s.modEq k f).heldOrder = s.heldOrder := rfl
@[simp] theorem modEq_eqs (s : State) (k : Nat) (f : EventQ → EventQ) : (s.modEq k f).eqs = s.eqs.mod k f := rfl
@[simp] theorem modEq_faults (s : State) (k : Nat) (f : EventQ → EventQ) : (s.modEq k f).faults = s.faults := rfl
@[simp] theorem modEq_coh (s : State) (k : Nat) (f : EventQ → EventQ) : (s.modEq k f).coh = s.coh := rfl
@[simp] theorem modEq_pool (s : State) (k : Nat) (f : EventQ → EventQ) : (s.modEq k f).pool = s.pool := rfl
@[simp] theorem modEq_engines (s : State) (k : Nat) (f : EventQ → EventQ) : (s.modEq k f).engines = s.engines := rfl
@[simp] theorem modEq_colls (s : State) (k : Nat) (f : EventQ → EventQ) : (s.modEq k f).colls = s.colls := rfl
@[simp] theorem modEq_ownOut (s : State) (k : Nat) (f : EventQ → EventQ) : (s.modEq k f).ownOut = s.ownOut := rfl
@[simp] theorem modEq_shapers (s : State) (k : Nat) (f : EventQ → EventQ) : (s.modEq k f).shapers = s.shapers := rfl
@[simp] theorem modEq_wheel (s : State) (k : Nat) (f : EventQ → EventQ) : (s.modEq k f).wheel = s.wheel := rfl
@[simp] theorem modEq_ports (s : State) (k : Nat) (f : EventQ → EventQ) : (s.modEq k f).ports = s.ports := rfl
@[simp] theorem modEq_net (s : State) (k : Nat) (f : EventQ → EventQ) : (s.modEq k f).net = s.net := rfl
@[simp] theorem modEq_mirror (s : State) (k : Nat) (f : EventQ → EventQ) : (s.modEq k f).mirror = s.mirror := rfl
@[simp] theorem modEq_fw (s : State) (k : Nat) (f : EventQ → EventQ) : (s.modEq k f).fw = s.fw := rfl
@[simp] theorem modEq_mpc (s : State) (k : Nat) (f : EventQ → EventQ) : (s.modEq k f).mpc = s.mpc := rfl
@[simp] theorem modEq_power (s : State) (k : Nat) (f : EventQ → EventQ) : (s.modEq k f).power = s.power := rfl
@[simp] theorem modEq_free (s : State) (k : Nat) (f : EventQ → EventQ) : (s.modEq k f).free = s.free := rfl
@[simp] theorem modEq_pending (s : State) (k : Nat) (f : EventQ → EventQ) : (s.modEq k f).pending = s.pending := rfl
/-! `State.modPart`. -/
@[simp] theorem modPart_fuses (s : State) (k : Nat) (f : Partition → Partition) : (s.modPart k f).fuses = s.fuses := rfl
@[simp] theorem modPart_flash (s : State) (k : Nat) (f : Partition → Partition) : (s.modPart k f).flash = s.flash := rfl
@[simp] theorem modPart_clock (s : State) (k : Nat) (f : Partition → Partition) : (s.modPart k f).clock = s.clock := rfl
@[simp] theorem modPart_boot (s : State) (k : Nat) (f : Partition → Partition) : (s.modPart k f).boot = s.boot := rfl
@[simp] theorem modPart_pins (s : State) (k : Nat) (f : Partition → Partition) : (s.modPart k f).pins = s.pins := rfl
@[simp] theorem modPart_mbs (s : State) (k : Nat) (f : Partition → Partition) : (s.modPart k f).mbs = s.mbs := rfl
@[simp] theorem modPart_mbOrder (s : State) (k : Nat) (f : Partition → Partition) : (s.modPart k f).mbOrder = s.mbOrder := rfl
@[simp] theorem modPart_parts (s : State) (k : Nat) (f : Partition → Partition) : (s.modPart k f).parts = s.parts.mod k f := rfl
@[simp] theorem modPart_fmEq (s : State) (k : Nat) (f : Partition → Partition) : (s.modPart k f).fmEq = s.fmEq := rfl
@[simp] theorem modPart_fmUnbound (s : State) (k : Nat) (f : Partition → Partition) : (s.modPart k f).fmUnbound = s.fmUnbound := rfl
@[simp] theorem modPart_ctxs (s : State) (k : Nat) (f : Partition → Partition) : (s.modPart k f).ctxs = s.ctxs := rfl
@[simp] theorem modPart_gens (s : State) (k : Nat) (f : Partition → Partition) : (s.modPart k f).gens = s.gens := rfl
@[simp] theorem modPart_quarantine (s : State) (k : Nat) (f : Partition → Partition) : (s.modPart k f).quarantine = s.quarantine := rfl
@[simp] theorem modPart_tables (s : State) (k : Nat) (f : Partition → Partition) : (s.modPart k f).tables = s.tables := rfl
@[simp] theorem modPart_tcache (s : State) (k : Nat) (f : Partition → Partition) : (s.modPart k f).tcache = s.tcache := rfl
@[simp] theorem modPart_regions (s : State) (k : Nat) (f : Partition → Partition) : (s.modPart k f).regions = s.regions := rfl
@[simp] theorem modPart_extents (s : State) (k : Nat) (f : Partition → Partition) : (s.modPart k f).extents = s.extents := rfl
@[simp] theorem modPart_chunks (s : State) (k : Nat) (f : Partition → Partition) : (s.modPart k f).chunks = s.chunks := rfl
@[simp] theorem modPart_pubs (s : State) (k : Nat) (f : Partition → Partition) : (s.modPart k f).pubs = s.pubs := rfl
@[simp] theorem modPart_queues (s : State) (k : Nat) (f : Partition → Partition) : (s.modPart k f).queues = s.queues := rfl
@[simp] theorem modPart_descs (s : State) (k : Nat) (f : Partition → Partition) : (s.modPart k f).descs = s.descs := rfl
@[simp] theorem modPart_descOrder (s : State) (k : Nat) (f : Partition → Partition) : (s.modPart k f).descOrder = s.descOrder := rfl
@[simp] theorem modPart_heldOrder (s : State) (k : Nat) (f : Partition → Partition) : (s.modPart k f).heldOrder = s.heldOrder := rfl
@[simp] theorem modPart_eqs (s : State) (k : Nat) (f : Partition → Partition) : (s.modPart k f).eqs = s.eqs := rfl
@[simp] theorem modPart_faults (s : State) (k : Nat) (f : Partition → Partition) : (s.modPart k f).faults = s.faults := rfl
@[simp] theorem modPart_coh (s : State) (k : Nat) (f : Partition → Partition) : (s.modPart k f).coh = s.coh := rfl
@[simp] theorem modPart_pool (s : State) (k : Nat) (f : Partition → Partition) : (s.modPart k f).pool = s.pool := rfl
@[simp] theorem modPart_engines (s : State) (k : Nat) (f : Partition → Partition) : (s.modPart k f).engines = s.engines := rfl
@[simp] theorem modPart_colls (s : State) (k : Nat) (f : Partition → Partition) : (s.modPart k f).colls = s.colls := rfl
@[simp] theorem modPart_ownOut (s : State) (k : Nat) (f : Partition → Partition) : (s.modPart k f).ownOut = s.ownOut := rfl
@[simp] theorem modPart_shapers (s : State) (k : Nat) (f : Partition → Partition) : (s.modPart k f).shapers = s.shapers := rfl
@[simp] theorem modPart_wheel (s : State) (k : Nat) (f : Partition → Partition) : (s.modPart k f).wheel = s.wheel := rfl
@[simp] theorem modPart_ports (s : State) (k : Nat) (f : Partition → Partition) : (s.modPart k f).ports = s.ports := rfl
@[simp] theorem modPart_net (s : State) (k : Nat) (f : Partition → Partition) : (s.modPart k f).net = s.net := rfl
@[simp] theorem modPart_mirror (s : State) (k : Nat) (f : Partition → Partition) : (s.modPart k f).mirror = s.mirror := rfl
@[simp] theorem modPart_fw (s : State) (k : Nat) (f : Partition → Partition) : (s.modPart k f).fw = s.fw := rfl
@[simp] theorem modPart_mpc (s : State) (k : Nat) (f : Partition → Partition) : (s.modPart k f).mpc = s.mpc := rfl
@[simp] theorem modPart_power (s : State) (k : Nat) (f : Partition → Partition) : (s.modPart k f).power = s.power := rfl
@[simp] theorem modPart_free (s : State) (k : Nat) (f : Partition → Partition) : (s.modPart k f).free = s.free := rfl
@[simp] theorem modPart_pending (s : State) (k : Nat) (f : Partition → Partition) : (s.modPart k f).pending = s.pending := rfl
/-! `State.idle`. -/
@[simp] theorem idle_fuses (s : State) : (s.idle).fuses = s.fuses := rfl
@[simp] theorem idle_flash (s : State) : (s.idle).flash = s.flash := rfl
@[simp] theorem idle_clock (s : State) : (s.idle).clock = s.clock.tick := rfl
@[simp] theorem idle_boot (s : State) : (s.idle).boot = s.boot := rfl
@[simp] theorem idle_pins (s : State) : (s.idle).pins = s.pins := rfl
@[simp] theorem idle_mbs (s : State) : (s.idle).mbs = s.mbs := rfl
@[simp] theorem idle_mbOrder (s : State) : (s.idle).mbOrder = s.mbOrder := rfl
@[simp] theorem idle_parts (s : State) : (s.idle).parts = s.parts := rfl
@[simp] theorem idle_fmEq (s : State) : (s.idle).fmEq = s.fmEq := rfl
@[simp] theorem idle_fmUnbound (s : State) : (s.idle).fmUnbound = s.fmUnbound := rfl
@[simp] theorem idle_ctxs (s : State) : (s.idle).ctxs = s.ctxs := rfl
@[simp] theorem idle_gens (s : State) : (s.idle).gens = s.gens := rfl
@[simp] theorem idle_quarantine (s : State) : (s.idle).quarantine = s.quarantine := rfl
@[simp] theorem idle_tables (s : State) : (s.idle).tables = s.tables := rfl
@[simp] theorem idle_tcache (s : State) : (s.idle).tcache = s.tcache := rfl
@[simp] theorem idle_regions (s : State) : (s.idle).regions = s.regions := rfl
@[simp] theorem idle_extents (s : State) : (s.idle).extents = s.extents := rfl
@[simp] theorem idle_chunks (s : State) : (s.idle).chunks = s.chunks := rfl
@[simp] theorem idle_pubs (s : State) : (s.idle).pubs = s.pubs := rfl
@[simp] theorem idle_queues (s : State) : (s.idle).queues = s.queues := rfl
@[simp] theorem idle_descs (s : State) : (s.idle).descs = s.descs := rfl
@[simp] theorem idle_descOrder (s : State) : (s.idle).descOrder = s.descOrder := rfl
@[simp] theorem idle_heldOrder (s : State) : (s.idle).heldOrder = s.heldOrder := rfl
@[simp] theorem idle_eqs (s : State) : (s.idle).eqs = s.eqs := rfl
@[simp] theorem idle_faults (s : State) : (s.idle).faults = s.faults := rfl
@[simp] theorem idle_coh (s : State) : (s.idle).coh = s.coh := rfl
@[simp] theorem idle_pool (s : State) : (s.idle).pool = s.pool := rfl
@[simp] theorem idle_engines (s : State) : (s.idle).engines = s.engines := rfl
@[simp] theorem idle_colls (s : State) : (s.idle).colls = s.colls := rfl
@[simp] theorem idle_ownOut (s : State) : (s.idle).ownOut = s.ownOut := rfl
@[simp] theorem idle_shapers (s : State) : (s.idle).shapers = s.shapers := rfl
@[simp] theorem idle_wheel (s : State) : (s.idle).wheel = s.wheel := rfl
@[simp] theorem idle_ports (s : State) : (s.idle).ports = s.ports := rfl
@[simp] theorem idle_net (s : State) : (s.idle).net = s.net := rfl
@[simp] theorem idle_mirror (s : State) : (s.idle).mirror = s.mirror := rfl
@[simp] theorem idle_fw (s : State) : (s.idle).fw = s.fw := rfl
@[simp] theorem idle_mpc (s : State) : (s.idle).mpc = s.mpc := rfl
@[simp] theorem idle_power (s : State) : (s.idle).power = s.power := rfl
@[simp] theorem idle_free (s : State) : (s.idle).free = s.free := rfl
@[simp] theorem idle_pending (s : State) : (s.idle).pending = s.pending := rfl

end Sys2Proof.Laws
end

