-- ==== Sys2Proof/Tests/Slice0.lean ====
section
/-! SUPPORT. The model's own tests: what the statements assume can be met, the checks of WellFormed refuse what they
should, and single commands on small states against the spec's words. -/


namespace Sys2Proof.Tests
set_option Elab.async false
open Sys2Proof Sys2Proof.Machine

/-! States that the tests start from. -/

/-- READY, nothing configured; the free choices are given. -/
def up : State := { State.reset with boot := { stage := 8, held := false }, free := { given := List.replicate 64 0 } }
/-- A configuration block of partition `p`: quotas, 16 queues and 16 event queues from 16 p on, budgets, caps, weights 1. -/
def blk (p : Nat) : BitVec 512 := BitVec.ofNat 512
  (at_ 4096 28 484 + at_ 4096 28 456 + at_ 64 20 436 + at_ (16 * p) 16 420 + at_ 16 17 403 + at_ 16 13 390
    + at_ (16 * p) 12 378 + at_ 16 13 365 + at_ 1024 28 337 + at_ 64 20 317 + at_ 12 5 288 + at_ 24 5 235
    + at_ 1 8 227 + at_ 1 8 219 + at_ p 6 0)
/-- Partition 0. -/
def p0 : Partition := Partition.inForce { cfg := blk 0 }
/-- A placement over quarter 0 of stack 0: pseudo-channels 2 to 15, since 0 and 1 are spares. -/
def pl0 : Placement := { stkMask := 1, qtrMask := 1 }
/-- Region 16: 896 KiB, one chunk on each member; chunk 18432 k is the first of pseudo-channel k. -/
def r16 : Region := { version := 1, extent := 16, size := 14, pl := pl0, policy := 0, mirror := false, part := 0, mapCount := 1 }
/-- Context 0 holds node 7, endpoint 2 as rank 0; its tables map region 16 from CVA 0 on. -/
def c0 : Context := { part := 0, root := 1600, ranks := [(0, BitVec.ofNat 32 (2 ^ 31 + at_ 7 16 8 + 2))] }
/-- Queue 0: 64 descriptors, its rings in region 16. -/
def q0 : Queue := { ctx := 0, part := 0, log2 := 6, ring := 65536, comp := 131072, eq := 0, refuse := false, st := .active }
/-- Event queue 0: 16 records, its ring at the start of region 16. -/
def e0 : EventQ := { part := 0, log2 := 4, ring := 16 * 2 ^ 44, notify := 0 }
/-- READY as node 1, with partition 0, context 0, region 16, queue 0, event queue 0, and the partner of port 0 admitted. -/
def w : State := { up with
  parts := [(0, p0)], ctxs := [(0, c0)], eqs := [(0, e0)], queues := [(0, q0)], regions := [(16, r16)],
  extents := [(16, { chunks := (List.range' 2 14).map (18432 * ·), size := 14, pl := pl0, part := 0 })],
  chunks := (List.range' 2 14).map (fun k => (18432 * k, .extent 16)),
  tables := [(1600, { part := 0, ents := [(0, ptrEntry 1601)] }), (1601, { part := 0, ents := [(0, ptrEntry 1602)] }),
             (1602, { part := 0, ents := [(0, ptrEntry 1603)] }),
             (1603, { part := 0, ents := (List.range 14).map (fun i => (i, leafEntry 16 (65536 * i) 0 true true)) })],
  net := { word := 0x0001FD0282800000 }, ports := [(0, { st := .up, admOk := true })] }
/-- A packet from rank 0 to endpoint 0x00, its address `a`, its message length `n`. -/
def pk (op a n : Nat) : Hdr := { opcode := op, addr := a, msgLen := n, srcNode := 7, srcEp := 2, dstNode := 1 }
/-- A packet of the same source to endpoint `ep`. -/
def pkTo (ep op a n : Nat) : Hdr := { pk op a n with dstEp := ep }
/-- A descriptor of type `typ` of queue 0, started; `f` its other bits. -/
def dsc (typ f : Nat) : Desc :=
  { q := 0, i := 0, tag := 0, words := BitVec.ofNat 512 (typ + f), hub := 0, phase := .started }
/-- It runs as descriptor 0. -/
def wd (typ f : Nat) : State := { w with descs := [dsc typ f] }

/-! WellFormed refuses what it should. -/

theorem test_wf_refuses_mailbox_65 : (Instr.discover 65).wf = false ∧ (Instr.discover 64).wf = true := by decide
theorem test_wf_refuses_wide_field : (Instr.queueEnable 1 65536).wf = false ∧ (Instr.pathSilent 2).wf = false := by decide
theorem test_wf_refuses_entry : (Instr.memSlotSet 0 0 0 [256]).wf = false ∧ (Instr.vsetSet 0 1 [65536]).wf = false := by decide
theorem test_wf_refuses_pair : (Instr.mbAclSet 0 0 [(0, 256)] 0).wf = false := by decide
theorem test_wf_refuses_bodies :
    (Instr.ctxCreate 1 { part := 256, mode := 0, eq := 0, mirror := 0, window := 0, timeout := 0 }).wf = false
    ∧ (Instr.mirrorPairSet 0 { set := 65536, partner := 0, ports := 0, role := 0, claim := 0, rate := 0 }).wf = false
    ∧ (Instr.bootServe 0 { handle := 0, len := 0, flock := 0, addr := 0, tc := 256, rounds := 0, rate := 0 }).wf = false := by decide
theorem test_wf_refuses_header : (Instr.rdUncached 0 { opcode := 256 }).wf = false ∧ (Instr.rdUncached 97 {}).wf = false
    ∧ (Instr.transitForward 0 { hdr := { hops := 16 }, data := [] }).wf = false := by decide
theorem test_wf_refuses_source : (Instr.mbLockRead (.func 65) 0).wf = false ∧ (Instr.mbLockRead (.fabric 97 {}) 0).wf = false := by decide
theorem test_wf_refuses_keys :
    (Instr.pinIdle 0 { srcNode := 0, srcEp := 0, dstNode := 0, tc := 8 }).wf = false
    ∧ (Instr.msgTimeout 0 { srcNode := 0, srcEp := 256, ctxTag := 0, tag := 0, opcode := 0 }).wf = false := by decide
theorem test_wf_refuses_flit : (Instr.flitReceive 0 { typ := 4 }).wf = false
    ∧ (Instr.flitReceive 0 { units := List.replicate 16 (.raw 0) }).wf = false
    ∧ (Instr.flitReceive 0 { units := [.head { hdr := { vc := 8 }, data := [] }] }).wf = false := by decide
theorem test_wf_refuses_report :
    (Instr.bringUpStageDone { dimms := [{ dc := 16, slot := 0, gib := 64, ranks := 2, bg := 8, ba := 4, cols := 10, serial := 1 }] }).wf = false
    ∧ (Instr.bringUpStageDone { serials := [(16, 0)] }).wf = false := by decide
theorem test_wf_refuses_topology : (Instr.topoExpectSet 0 0 { policy := 0, ports := List.replicate 97 0, neighbours := [] }).wf = false := by decide
theorem test_wf_refuses_steering : (Instr.timeSteer 0 (2 ^ 63) 0).wf = false ∧ (Instr.timeSteer 0 0 (-2147483649)).wf = false := by decide
theorem test_wf_refuses_long_data : (Instr.fwWrite 0 0 (List.replicate 4097 0)).wf = false := by decide +kernel
theorem test_wf_refuses_atomic_operand : (Instr.atomic 0 {} 0 (.int 128) [2 ^ 128]).wf = false := by decide
/-! The hypotheses of each statement can be met: one clause a line. -/

theorem witness_StepRunsFrontCommand : step { w with pending := [.discover 0] } = exec (.discover 0) w := rfl
theorem witness_CommandsLeaveTheQueue : ∃ t, exec (.quarantineExpiry 5) w = .next t := ⟨_, rfl⟩
theorem witness_StepKeepsFusedLimits : FusedLimits w ∧ ∃ t, step w = .next t := ⟨by unfold FusedLimits; decide +kernel, _, rfl⟩
theorem witness_MemoryReadsBackWrites : Memory.wf [(5, 1), (6, 2)] = true := by decide +kernel
theorem witness_FirstFailingCheckDecides :
    firstFail (State.reset.gate 0 {} ++ [bad true 4]) = some (.busy, 0xFFFF)
    ∧ firstFail (w.gate 0 {} ++ [bad true 4]) = some (.badArg, 36) := by decide +kernel

/-- Partition 0 in a reset whose contexts are gone. -/
def wReset : State := { w with ctxs := [], parts := [(0, { p0 with resetting := true })] }
theorem witness_PartitionCommandsComplete :
    (up.serves 0 { fm := true } = true ∧ up.blkAbsent { cfg := blk 63 } = false
      ∧ firstFail (up.blkBad { cfg := blk 63 } (bfld (blk 63) 5 0)) = none ∧ up.part? (bfld (blk 63) 5 0) = none)
    ∧ (w.serves 0 { fm := true } = true ∧ w.blkAbsent { cfg := blk 0 } = false
      ∧ firstFail (w.blkBad { cfg := blk 0 } (bfld (blk 0) 5 0)) = none ∧ w.part? (bfld (blk 0) 5 0) = some p0
      ∧ w.shrinks { cfg := blk 0 } (bfld (blk 0) 5 0) = false
      ∧ (!({ cfg := blk 0 } : Partition).strict || p0.strict || !w.strictBreaks (bfld (blk 0) 5 0)) = true)
    ∧ (w.serves 1 { own := [some 0], query := true } = true ∧ w.serves 64 { own := [some 63], query := true } = true)
    ∧ ((({ up with parts := [(63, p0)] } : State).part? 63).isSome = true
      ∧ ({ up with parts := [(63, p0)] } : State).partHolds 63 = false)
    ∧ (w.serves 1 { own := [some 0] } = true ∧ w.part? 0 = some p0 ∧ p0.resetting = false
      ∧ (w.standby && w.partMirrored 0) = false)
    ∧ (wReset.part? 0 = some { p0 with resetting := true } ∧ wReset.mpc.restarting = false
      ∧ (wReset.ctxsOf 0).any (fun c => c.2.st == .tearing) = false
      ∧ (wReset.resetObjects 0 { p0 with resetting := true }).resetWaits 0
          (((wReset.resetObjects 0 { p0 with resetting := true }).part? 0).getD { p0 with resetting := true }) = false)
    ∧ (w.eq? 0 = some { part := 0, log2 := 4, ring := 16 * 2 ^ 44, notify := 0 } ∧ w.serves 1 { own := [some 0, some 0] } = true)
    ∧ ((w.eq? 0).isSome = true ∧ w.serves 0 { fm := true } = true) := by decide +kernel
theorem witness_SlotTableAndShaperCommandsComplete :
    (w.serves 0 { fm := true } = true ∧ w.groupPresent 63 = true ∧ 1023 + [64].length ≤ 1024 ∧ [64].any w.slotBad = false)
    ∧ ((bitsOf (2 ^ 63 + 1) 64).any (fun g => w.starves w.strict g (w.group g).shadow) = false
      ∧ (bitsOf (2 ^ 63 + 1) 64).any (fun g => thirdStrict w.strict (w.group g).shadow) = false)
    ∧ (w.serves 0 { fm := true, query := true } = true ∧ w.groupPresent 0 = true) := by decide +kernel
/-- Partition 0 has shaper 7, and queue 0 waits in the wheel. -/
def wShape : State := { w with shapers := [(7, (0, {}))], wheel := [(0, 5)] }
theorem witness_SlotTableAndShaperCommandsComplete_2 :
    (w.serves 1 { own := [some 0] } = true ∧ shaperBad 0xFFFFFF4000000000 = false ∧ (w.part? 0).isSome = true
      ∧ w.shapers.length < 16384)
    ∧ (wShape.shapers.at? 7 = some (0, {}) ∧ wShape.serves 1 { own := [some 0] } = true ∧ wShape.shaperUsed 7 = false)
    ∧ (wShape.part? 0 = some p0 ∧ wShape.serves 0 { fm := true } = true)
    ∧ ((wShape.queue? 0).isSome = true ∧ ((wShape.queue? 0).map (·.part)) = some 0
      ∧ wShape.serves 1 { own := [some 0, some 0] } = true)
    ∧ (wShape.shapers.at? 0xFFFFFFFF = none ∧ wShape.serves 1 { own := [some 0, none] } = true)
    ∧ (wShape.portPresent 0 = true ∧ wShape.portPresent 95 = true)
    ∧ wShape.wheel.at? 0 = some 5 := by decide +kernel

/-- Partition 0 without event queue 0, whose ring region is not named. -/
def wBare : State := { w with eqs := [], queues := [] }
/-- Context 0 torn down, in teardown, and in quarantine. -/
def wTorn : State := { w with ctxs := [(0, { c0 with st := .tornDown })] }
/-- The same while context 0 is torn down. -/
def wTear : State := { w with ctxs := [(0, { c0 with st := .tearing, oldTag := 0 })], queues := [] }
theorem witness_ContextCommandsComplete :
    (w.part? 0 = some p0 ∧ w.eq? 0 = some e0 ∧ w.serves 1 { own := [some 0, some 0], need := 1 } = true ∧ p0.ctxQuota ≠ 0
      ∧ (w.ctxs.filter (fun c => c.2.part == 0)).length < p0.ctxQuota ∧ w.freeCtx = some 1
      ∧ (w.allocCtx 1 { part := 0, window := 64, timeout := 60000 }).isSome = true)
    ∧ (w.ctxOfTag 0 = some c0 ∧ c0.st ≠ .tearing ∧ (c0.mirror && w.standby) = false ∧ w.serves 1 { own := [some c0.part] } = true
      ∧ 16383 + [0].length ≤ 16384 ∧ [0].any rankBad = false)
    ∧ (w.anyGen 0 = some c0 ∧ w.ctxTearing 0 = false)
    ∧ (wTorn.ctxOfTag 0 = some { c0 with st := .tornDown } ∧ wTorn.quarantine.contains (tagNum 0) = false)
    ∧ (w.ctxOfTag 0 = some c0 ∧ c0.st = .active)
    ∧ (wTear.ctx? 0 = some { c0 with st := .tearing, oldTag := 0 } ∧ wTear.mpc.restarting = false ∧ wTear.tagBusy 0 = false
      ∧ wTear.descs.any (fun d => (wTear.ctxQueues 0).contains d.q) = false
      ∧ wTear.ownOut.any (fun x => x.1.1 == 0) = false) := by decide +kernel

/-- Event queue 0 notifies node 7, endpoint 2. -/
def eFab : EventQ := { e0 with notify := 2, node := 7, ep := 2 }
/-- The same with an event queue on the fabric. -/
def wEq : State := { wBare with eqs := [(0, eFab)], ctxs := [] }
theorem witness_EventQueueAndFaultCommandsComplete :
    (wBare.eqOwner 1 15 = some 0 ∧ wBare.eqOwner 0 0 = some 0 ∧ wBare.part? 0 = some p0 ∧ wBare.eq? 15 = none
      ∧ wBare.serves 1 { own := [none], need := 1 } = true ∧ p0.eqCount ≠ 0 ∧ p0.eqBase ≤ 15 ∧ 15 < p0.eqBase + p0.eqCount
      ∧ (16 * 2 ^ 44) % (32 * 2 ^ 4) = 0 ∧ wBare.handleIn (16 * 2 ^ 44) (32 * 2 ^ 4) 0 (some 0) = true
      ∧ (wBare.standby && (wBare.region? (16 * 2 ^ 44 / 2 ^ 44)).any (·.mirror)) = false)
    ∧ (wEq.eq? 0 = some eFab ∧ wEq.serves 1 { own := [some eFab.part] } = true ∧ wEq.eqNamed 0 = false)
    ∧ (wEq.regOpen (.func 1) (fun n => wEq.hostReachesEq n eFab) (fun h => eFab.target h) = true
      ∧ wEq.regOpen (.fabric 0 (pkTo 0xFD 0x02 0 8)) (fun n => wEq.hostReachesEq n eFab) (fun h => eFab.target h) = true) := by
  decide +kernel

/-- A STALL fault of context 0, open and waiting, on slot 5 of hub 0. -/
def f5 : FaultEntry := { hub := 0, slot := 5, seq := 1, tag := 0, page := 0x100000, handle := false, cause := 0, level := 3,
                         access := 0, source := 0, waiters := [(0, 0)] }
/-- A table with that fault and a waiting one. -/
def wFault : State := { w with faults := { entries := [f5], waiting := [{ f5 with hub := 1 }] } }
theorem witness_EventQueueAndFaultCommandsComplete_2 :
    (wFault.faultOf f5.id = some f5 ∧ wFault.serves 1 { own := [wFault.faultPart f5] } = true)
    ∧ wFault.serves 1 { own := [wFault.faultPart f5], query := true } = true
    ∧ (wFault.faultAt 0 5 = some f5 ∧ f5.written = false)
    ∧ (wFault.faults.waiting.find? (fun e => e.hub == 1) = some { f5 with hub := 1 }
      ∧ (wFault.faults.entries.any (fun x => x.tag == f5.tag && x.page == f5.page && x.handle == f5.handle)
        || (wFault.faults.entries.filter (fun x => x.hub == 1)).length < 1024) = true) := by decide +kernel

/-- Region 17: empty, like region 16 otherwise. -/
def r17 : Region := { r16 with extent := 0, size := 0, mapCount := 0 }
/-- Region 18: like region 16, at version 0, on the second chunks, not mapped. -/
def r18 : Region := { r16 with extent := 18, version := 0, mapCount := 0 }
/-- Regions 18 and 19 are alike, region 18 at version 0 and free to change. -/
def wPub : State := { wBare with
  regions := [(16, r16), (17, r17), (18, r18), (19, { r18 with extent := 19 })],
  extents := w.extents ++ [(18, { chunks := (List.range' 2 14).map (18432 * · + 1), size := 14, pl := pl0, part := 0 }),
                           (19, { chunks := (List.range' 2 14).map (18432 * · + 2), size := 14, pl := pl0, part := 0 })],
  pubs := [{ target := 18, staging := 19, v := 0, w := 1, asker := .mailbox 1 }] }
/-- The publication waits at the head of its target's order. -/
def bHead : Pub := { target := 18, staging := 19, v := 0, w := 1, asker := .mailbox 1, headed := true }
/-- The same regions with that publication. -/
def wHead : State := { wPub with pubs := [bHead] }
/-- A request for a region of `size` chunks. -/
def reqOf (size : Nat) : RegionReq :=
  { part := 0, tier := 0, policy := 2, mirror := 0, stkMask := 1, qtrMask := 1, dcMask := 0, grain := 3, xorHash := 1, size, version := 0 }
theorem witness_RegionCommandsComplete :
    (w.part? 0 = some p0 ∧ w.serves 1 { need := 1 } = true ∧ p0.regionQuota ≠ 0 ∧ w.placeAbsent (reqOf 0).pl = false
      ∧ (reqOf 0).pl.bad = false ∧ w.strictBad 0 (reqOf 0).pl = false ∧ (w.regionsOf 0).length < p0.regionQuota
      ∧ firstFree w.regions.has 1 1048576 w.draw.1 = some 1)
    ∧ (w.draw.2.extentFits 0 (reqOf 14).pl 14 = true ∧ (w.draw.2.newExtent (reqOf 14).pl 14 0).isSome = true)
    ∧ (w.region? 16 = some r16 ∧ w.serves 1 { own := [some r16.part], query := true } = true)
    ∧ (wPub.region? 17 = some r17 ∧ wPub.part? 0 = some p0 ∧ wPub.serves 1 { own := [some 0] } = true
      ∧ (r17.mirror && wPub.standby) = false ∧ r17.st ≠ 2 ∧ wPub.inPub 17 = false ∧ wPub.holdsRing 17 = false
      ∧ r17.mig = none ∧ wPub.served 17 = false)
    ∧ (({ wBare with regions := [(16, { r16 with st := 2 })] } : State).extentUsed 16 = false
      ∧ ({ wBare with regions := [(16, { r16 with st := 2 })] } : State).heldOn 16 = false
      ∧ ({ wBare with regions := [(16, { r16 with st := 2 })] } : State).zeroingOf 16 = false)
    ∧ (({ w with chunks := [(9, .zeroing 16)] } : State).chunks.at? 9 = some (.zeroing 16)
      ∧ (w.unitOf (9 * 65536)).any (fun u => (w.unit u).frozen.isSome) = false
      ∧ (({ w with chunks := [(9, .zeroing 16)] } : State).recallAll (({ w with chunks := [(9, .zeroing 16)] } : State).chunkCopies 9) true).1 = true)
    ∧ ({ w with queues := [], regions := [(16, { r16 with writeHold := true, holdExt := 18, holdDesc := 1 })] } : State).holdUsed
        { r16 with writeHold := true, holdExt := 18, holdDesc := 1 } = false := by decide +kernel
theorem witness_PublicationAndMigrationComplete :
    (w.serves 1 {} = true ∧ (w.standby && ((w.region? 16).any (·.mirror) || (w.region? 17).any (·.mirror))) = false)
    ∧ w.homeTakes 0 (pk 0x10 0 32) c0
    ∧ (wPub.pubs.find? (fun b => b.target == 18) = some { target := 18, staging := 19, v := 0, w := 1, asker := .mailbox 1 }
      ∧ wPub.pubs.any (fun x => x.headed && (x.target == 18 || x.staging == 18 || x.target == 19 || x.staging == 19)) = false
      ∧ wPub.pubCheck { target := 18, staging := 19, v := 0, w := 1, asker := .mailbox 1 } = .ok
      ∧ wPub.pubCheck { target := 18, staging := 19, v := 1, w := 2, asker := .mailbox 1 } = .conflictVersion)
    ∧ (wHead.pubs.find? (fun b => b.target == 18 && b.headed && !b.swapped) = some bHead ∧ wPub.region? 18 = some r18 ∧ wPub.region? 19 = some { r18 with extent := 19 }
      ∧ wHead.pubDrained bHead 19 = true ∧ (wHead.pubPaired bHead r18 && !wHead.tagsFree wHead.mirror.partner 1) = false
      ∧ (wHead.recallAll (wHead.pubCopies bHead) true).1 = true) := by
  decide +kernel

/-- MIGRATE of region `r` to quarter 1 of stack 0. -/
def dMig (r : Nat) : Nat := 11 + at_ (r * 2 ^ 44) 64 368 + at_ 1 12 338 + at_ 2 4 334
/-- A migration of region `r` at the head of queue 0. -/
def wMig (r : Nat) : State := { wPub with pubs := [], queues := [(0, q0)], descs := [dsc 0 (dMig r)] }
/-- The copy of region 18 is at its last chunk. -/
def gMig : Migration := { pl := pl0, ext := 19, cursor := 13, q := 0, i := 0 }
theorem witness_PublicationAndMigrationComplete_2 :
    ((wMig 17).running 0 0 11 (dsc 0 (dMig 17)) q0 ∧ (wMig 17).migCheck (dsc 0 (dMig 17)) 0 = some .okEmpty
      ∧ (wMig 20).migCheck (dsc 0 (dMig 20)) 0 = some .notPermitted)
    ∧ ((wMig 18).running 0 0 11 (dsc 0 (dMig 18)) q0 ∧ (wMig 18).migCheck (dsc 0 (dMig 18)) 0 = none
      ∧ (wMig 18).extentFits 0 (dsc 0 (dMig 18)).placement 14 = true
      ∧ ((wMig 18).newExtent (dsc 0 (dMig 18)).placement 14 0).isSome = true)
    ∧ (({ wPub with regions := [(18, { r18 with mig := some gMig })] } : State).extents.has 19 = true
      ∧ (({ wPub with regions := [(18, { r18 with mig := some gMig })] } : State).recallAll
          (wPub.granulesOf 18 18 (13 * 65536) 65536) true).1 = true) := by decide +kernel

theorem witness_MappingCommandsComplete :
    (w.ctxOfTag 0 = some c0 ∧ w.region? 16 = some r16 ∧ w.serves 1 { own := [some 0, some 0] } = true
      ∧ w.hasRegionLeaf c0 (2 ^ 52 - 65536) 65536 = false ∧ c0.mirror = r16.mirror ∧ w.ctxStandby 0 = false
      ∧ (w.mapRange c0 (fun o => leafEntry 16 o 0 true true) 2 (2 ^ 52 - 65536) (13 * 65536) 65536).isSome = true)
    ∧ ((gaps (2 ^ 20 + 65536) (2 ^ 20) (w.leavesIn c0 (2 ^ 20) (2 ^ 20 + 65536))).foldl (fun (r : Option State) g => match r with
          | none => none
          | some s => s.mapRange c0 (fun _ => zeroLeaf) ((g.2 - g.1) / 65536 + 1) g.1 g.1 (g.2 - g.1)) (some w)).isSome = true
    ∧ (w.ringIn (tagNum 0) 0x40000 0x50000 = false ∧ w.leavesIn c0 0x40000 0x50000 ≠ [])
    ∧ (w.covering 0 0x40000 0x50000 = [] ∧ w.fabricIn 0 0x40000 0x50000 = false
      ∧ (w.unmapRange 0 c0 0x40000 0x10000).isSome = true
      ∧ [({ cva := 0x40000, len := 0x10000, fail := false, mb := some 1 } : Unmap)].find? (fun u => u.cva == 0x40000 && u.mb.isSome
          && !u.fail) = some { cva := 0x40000, len := 0x10000, fail := false, mb := some 1 })
    ∧ (w.tableOf 0 0 0 c0.root = some 1600 ∧ w.tableOf 0 3 0 c0.root = some 1603 ∧ w.serves 1 { own := [some 0], query := true } = true)
    ∧ (wd 10 0).running 0 0 10 (dsc 10 0) q0
    ∧ (List.range w.hubs).any (fun h => decide (49152 < w.pinnedWith h
        (((w.leavesIn c0 0 (14 * 65536)).flatMap w.leafLines).dedup))) = false := by decide +kernel

/-- Queue 0 in another state; without queues; two queues of which queue 5 is free to change. -/
def wQ (st : QState) : State := { w with queues := [(5, { q0 with st })] }
/-- A request for the last queue of partition 0. -/
def q16 : QueueReq := { q := 15, tag := 0, log2 := 4, ring := 0x20000, comp := 0x30000, eq := 0, mode := 1 }
theorem witness_QueueCommandsComplete :
    (w.ctxOfTag 0 = some c0 ∧ w.queue? 15 = none ∧ w.serves 1 { own := [some 0, none] } = true ∧ p0.queueCount ≠ 0
      ∧ p0.hasQueue 15 = true ∧ q16.ring % (64 * 2 ^ 4) = 0 ∧ q16.comp % (16 * 2 ^ 4) = 0
      ∧ w.ringFault c0 (q16.toQueue 0) = false ∧ w.eq? 0 = some e0 ∧ w.standbyFor 0 = false ∧ c0.st = .active
      ∧ w.runsUsed (w.ctxHub (q16.toQueue 0).ctx) + (w.ringRuns c0 (q16.toQueue 0)).length < 65536)
    ∧ ((wQ .blocked).queue? 5 = some { q0 with st := .blocked } ∧ (wQ .blocked).serves 1 { own := [some 0] } = true
      ∧ (wQ .blocked).descsOf 5 = [])
    ∧ (wQ .disabled).queue? 5 = some { q0 with st := .disabled }
    ∧ ((wQ .active).queue? 5 = some q0 ∧ (wQ .active).serves 1 { own := [some 0], query := true } = true)
    ∧ (q0.resetMb = none ∧ (wQ .blocked).ctx? q0.ctx = some c0) := by decide +kernel
theorem witness_DoorbellsStartAndCompletion :
    (w.queue? 0 = some q0 ∧ w.hostReaches 1 0 = true ∧ q0.st ≠ .blocked)
    ∧ (w.turn 0 (pkTo 0xFD 0x12 0 4) = true ∧ w.flowOpen (pkTo 0xFD 0x12 0 4) w.coh.nextJoin = false
      ∧ (w.consume 0 (pkTo 0xFD 0x12 0 4)).regGate (pkTo 0xFD 0x12 0 4) = none
      ∧ (w.consume 0 (pkTo 0xFD 0x12 0 4)).queue? 0 = some q0 ∧ 0 = (w.consume 0 (pkTo 0xFD 0x12 0 4)).tagOf 0)
    ∧ (w.regOpen (.func 1) (fun n => w.hostReaches n 0) (fun h => h.ctxTag == w.tagOf 0) = true
      ∧ w.regOpen (.fabric 0 (pkTo 0xFD 0x12 0 4)) (fun n => w.hostReaches n 0) (fun h => h.ctxTag == w.tagOf 0) = true) := by
  decide +kernel
/-- Queue 0 with CI at the top of the index range: its ring wraps. -/
def qTop : Queue := { q0 with ci := 0xFFFFFFFF, pi := 0, next := 0 }
theorem witness_DoorbellRule :
    ({ w with queues := [(0, qTop)] } : State).queue? 0 = some qTop
    ∧ (BitVec.ofNat 32 0 - qTop.ci).toNat = (qTop.pi - qTop.ci).toNat
    ∧ ((qTop.pi - qTop.ci).toNat < (BitVec.ofNat 32 63 - qTop.ci).toNat ∧ (BitVec.ofNat 32 63 - qTop.ci).toNat ≤ 2 ^ qTop.log2)
    ∧ 2 ^ qTop.log2 < (BitVec.ofNat 32 64 - qTop.ci).toNat
    ∧ (BitVec.ofNat 32 0xFFFFFFFF - qTop.ci).toNat < (qTop.pi - qTop.ci).toNat := by decide +kernel
/-- Queue 0 with its ring translated and one slot available, which holds zeros. -/
def qAdm : Queue := { q0 with
  runs := [{ cva := 0x10000, len := 0x20000, region := 16, extent := 16, off := 0x10000, rd := true, wr := true }], pi := 1 }
/-- Queue 0 ready to admit. -/
def wAdm : State := { w with queues := [(0, qAdm)] }
theorem witness_AdmissionTakesTheNextSlot :
    wAdm.queue? 0 = some qAdm ∧ wAdm.head? 0 = none ∧ qAdm.st = .active ∧ qAdm.next ≠ qAdm.pi
    ∧ (wAdm.descsOf 0).any (fun d => d.typ == 8 || d.typ == 9) = false
    ∧ (wAdm.shapersOf qAdm).all (fun x => x.lets wAdm.clock.aon) = true ∧ wAdm.ctx? 0 = some c0
    ∧ (wAdm.keysReady qAdm.runs [(qAdm.slot qAdm.next, 64)] []).1 = true
    ∧ ((wAdm.keysReady qAdm.runs [(qAdm.slot qAdm.next, 64)] []).2.readKey qAdm.runs (qAdm.slot qAdm.next) 64
        { tag := 0, part := 0 }).2.1 = .ok
    ∧ (c0.mirror && wAdm.mirrorIdle) = false := by decide +kernel
/-- A COPY of `n` bytes that waits for its budget; partition 0 with a budget of 1 KiB and one descriptor. -/
def dHeld (n : Nat) : Desc := { dsc 1 (at_ n 32 320) with phase := .held }
/-- Partition 0 with little budget left. -/
def pTight (bytes : Nat) : Partition :=
  { p0 with cfg := BitVec.ofNat 512 (setFld (setFld (blk 0).toNat 364 337 1) 336 317 1), bytes }
/-- A queue head against that budget. -/
def wTight (n bytes : Nat) : State := { w with parts := [(0, pTight bytes)], descs := [dHeld n] }
theorem witness_AdmissionTakesTheNextSlot_2 :
    ((wTight 1025 0).desc? 0 0 = some (dHeld 1025) ∧ (pTight 0).budgetBytes < (dHeld 1025).chargeBytes)
    ∧ ((wTight 1024 1).desc? 0 0 = some (dHeld 1024) ∧ (dHeld 1024).chargeBytes ≤ (pTight 1).budgetBytes
      ∧ (pTight 1).budgetBytes < (pTight 1).bytes + (dHeld 1024).chargeBytes)
    ∧ ((wTight 1024 0).part? 0 = some (pTight 0) ∧ (pTight 0).bytes + (dHeld 1024).chargeBytes ≤ (pTight 0).budgetBytes
      ∧ (pTight 0).descs + 1 ≤ (pTight 0).budgetDesc ∧ (wTight 1024 0).heldAhead 0 0 = false) := by decide +kernel
/-- A descriptor of type `typ` in a phase. -/
def dAt (typ f : Nat) (phase : Phase) : Desc := { dsc typ f with phase }
/-- Queue 0 with that descriptor. -/
def wAt (typ f : Nat) (phase : Phase) : State := { wAdm with descs := [dAt typ f phase] }
theorem witness_DoorbellsStartAndCompletion_2 :
    ((wAt 8 0 .ready).desc? 0 0 = some (dAt 8 0 .ready) ∧ (wAt 8 0 .ready).mayStart (dAt 8 0 .ready) = true
      ∧ (dAt 8 0 .ready).needsEngine = false)
    ∧ ((wAt 1 0 .ready).mayStart (dAt 1 0 .ready) = true ∧ (dAt 1 0 .ready).needsEngine = true
      ∧ (wAt 1 0 .ready).takers (dAt 1 0 .ready) 0 ≠ [])
    ∧ ((wAt 1 (at_ 0x200001 32 320) .started).desc? 0 0 = some (dAt 1 (at_ 0x200001 32 320) .started)
      ∧ (dAt 1 (at_ 0x200001 32 320) .started).transfers = true ∧ { dAt 1 (at_ 0x200001 32 320) .started with nextSeg := 1 }.nextSeg
          < (dAt 1 (at_ 0x200001 32 320) .started).segTotal
      ∧ (wAt 1 (at_ 0x200001 32 320) .started).takers (dAt 1 (at_ 0x200001 32 320) .started) 0 ≠ [])
    ∧ ((wAt 1 0 .finished).mayComplete (dAt 1 0 .finished) = true
      ∧ ((wAt 1 0 .finished).keysReady qAdm.runs [] [(qAdm.comSlot 0, 16)]).1 = true) := by decide +kernel

/-- COPY and tile fields: 64 bytes from CVA 0x40000 to CVA 0x50000, with the runs of both. -/
def fMove : Nat := at_ 0x40000 64 448 + at_ 0x50000 64 368
/-- The run that a transfer reads and writes. -/
def rMove : List Run := [{ cva := 0x40000, len := 0x20000, region := 16, extent := 16, off := 0x40000, rd := true, wr := true }]
/-- Its one segment, whose reads are asked for. -/
def seg0 : SegRun := { engine := 0, seg := 0, asked := true }
/-- A running descriptor. -/
def dRun (typ f : Nat) : Desc := { dsc typ f with runs := rMove, segs := 1, nextSeg := 1, segRuns := [seg0], asked := true }
/-- Whether the segment's granules are clear, its reads are served and its bytes have a way. -/
def moves (s : State) (d : Desc) (ms : List Move) : Bool :=
  let r := s.keysReady d.runs (moveKeys (seg0.cut ms)).1 (moveKeys (seg0.cut ms)).2
  let v := r.2.ask d 0 seg0 (moveKeys (seg0.cut ms)).1
  r.1 && !v.readsQueued d && (v.moveAll d 0 (seg0.cut ms)).1
/-- A state with a running descriptor. -/
def wRun (typ f : Nat) : State := { w with descs := [dRun typ f] }
theorem witness_TransfersAndOrderingComplete :
    ((wRun 1 (fMove + at_ 64 32 320)).running 0 0 1 (dRun 1 (fMove + at_ 64 32 320)) q0
      ∧ (dRun 1 (fMove + at_ 64 32 320)).segRuns.find? (fun y => !y.landed) = some seg0
      ∧ moves (wRun 1 (fMove + at_ 64 32 320)) (dRun 1 (fMove + at_ 64 32 320)) (dRun 1 (fMove + at_ 64 32 320)).moveList = true)
    ∧ ((wRun 2 fMove).running 0 0 2 (dRun 2 fMove) q0 ∧ moves (wRun 2 fMove) (dRun 2 fMove) (dRun 2 fMove).moveList = true)
    ∧ ((wRun 3 fMove).running 0 0 3 (dRun 3 fMove) q0 ∧ moves (wRun 3 fMove) (dRun 3 fMove) (dRun 3 fMove).moveList = true)
    ∧ ((wRun 6 (at_ 0x50000 64 368 + at_ 64 32 320)).running 0 0 6 (dRun 6 (at_ 0x50000 64 368 + at_ 64 32 320)) q0
      ∧ moves (wRun 6 (at_ 0x50000 64 368 + at_ 64 32 320)) (dRun 6 (at_ 0x50000 64 368 + at_ 64 32 320))
          [(.pattern (dRun 6 (at_ 0x50000 64 368 + at_ 64 32 320)).pattern, (dRun 6 (at_ 0x50000 64 368)).dst.target 0, 64)] = true)
    ∧ ((wRun 4 fMove).running 0 0 4 (dRun 4 fMove) q0 ∧ ((wRun 4 fMove).streamsReady rMove (dRun 4 fMove).streams).1 = true
      ∧ moves ((wRun 4 fMove).bounded (dRun 4 fMove) [(some 1, false, false), (none, true, true)] .ok) (dRun 4 fMove)
          ((dRun 4 fMove).gatherMoves [(some 1, false, false), (none, true, true)]) = true)
    ∧ ((wRun 5 fMove).running 0 0 5 (dRun 5 fMove) q0 ∧ ((wRun 5 fMove).streamsReady rMove (dRun 5 fMove).streams).1 = true
      ∧ moves ((wRun 5 fMove).bounded (dRun 5 fMove) [(some 1, false, false), (none, true, true)] .ok) (dRun 5 fMove)
          ((dRun 5 fMove).scatterMoves [(some 1, false, false), (none, true, true)]) = true) := by decide +kernel
theorem witness_TransfersAndOrderingComplete_2 :
    ((wd 8 (2 ^ 351)).running 0 0 8 (dsc 8 (2 ^ 351)) q0 ∧ (wd 8 (2 ^ 351)).fenced (dsc 8 (2 ^ 351)) q0 true = [])
    ∧ ((wd 9 0).running 0 0 9 (dsc 9 0) q0 ∧ (wd 9 0).fenced (dsc 9 0) q0 false = [])
    ∧ ((wAt 13 0 .ready).desc? 0 0 = some (dAt 13 0 .ready) ∧ (dAt 13 0 .ready).typ = 13
      ∧ ((dAt 13 0 .ready).orderAfter && (wAt 13 0 .ready).earlier (dAt 13 0 .ready)) = false)
    ∧ ((wd 1 0).queue? 0 = some q0 ∧ { dRun 1 0 with segRuns := [{ seg0 with landed := true }] }.segRuns.find? (fun y => y.landed)
        = some { seg0 with landed := true }
      ∧ (dRun 1 0).phase = .started ∧ (dRun 1 0).segs ≠ 0 ∧ (wRun 1 0).descQueued 0 0 = false) := by decide +kernel
/-- A message of descriptor 0 with tag 3 to node 7, opcode `op`, 16 bytes left; its answer `hAns`. -/
def mOut : OutMsg := { tag := 3, left := 16, addr := 0x1000, loc := 0x50000, n := 16 }
/-- A message of our own that waits for its answer. -/
def oOut (op : Nat) : OwnMsg := { node := 7, tag := 3, opcode := op, desc := some (0, 0) }
/-- The header of an answer. -/
def hAns (op a : Nat) : Hdr := { pk op a 0 with tag := 3 }
/-- A descriptor whose writes are out. -/
def dOut (typ : Nat) : Desc := { dRun typ fMove with out := [mOut] }
/-- A state that waits for the answer of a descriptor. -/
def wOut (typ op : Nat) : State := { w with descs := [dOut typ], net := { w.net with own := [oOut op] } }
theorem witness_RemoteAnswersComplete :
    ((wOut 1 1).turn 0 (hAns 0x12 0) = true
      ∧ ((wOut 1 1).consume 0 (hAns 0x12 0)).ownOf (hAns 0x12 0) = some (oOut 1) ∧ (oOut 1).snoop = none
      ∧ (((wOut 1 1).consume 0 (hAns 0x12 0)).dropOwn (oOut 1)).outOf (oOut 1) = some (dOut 1, mOut)
      ∧ (Status.ofCode 0).good = true ∧ (Status.ofCode 0x500).good = false ∧ (Status.ofCode 0xFFFF).good = false)
    ∧ ((wOut 12 2).turn 0 (hAns 3 0x1000) = true ∧ (wOut 12 2).ownOf (hAns 3 0x1000) = some (oOut 2)
      ∧ (wOut 12 2).outOf (oOut 2) = some (dOut 12, mOut)
      ∧ ((wOut 12 2).landing (dOut 12) (mOut.loc + (0x1000 - mOut.addr)) 16).1 = true ∧ (dOut 12).typ = 12)
    ∧ ((wOut 1 2).outOf (oOut 2) = some (dOut 1, mOut) ∧ ((wOut 1 2).landing (dOut 1) (mOut.loc + (0x1000 - mOut.addr)) 16).1 = true
      ∧ (dOut 1).typ ≠ 12) := by decide +kernel
/-- Stock operator `k` (0 the user's own) over an OCB of zeros. -/
def fOp (k : Nat) : Nat := at_ k 8 314
/-- A running operator descriptor. -/
def dOp (k : Nat) : Desc := { dsc 7 (fOp k) with ocb := List.replicate 512 0 }
/-- A configuration whose store 0 is enabled and REMOTE. -/
def oFar : Ocb := ⟨List.replicate 0x20 0 ++ leBytes 0xA0 (2 ^ 213) ++ leBytes 32 (at_ 0x8000 16 176)⟩
/-- A state with a running operator. -/
def wOp (k : Nat) : State := { w with descs := [dOp k] }
theorem witness_OperatorsComplete :
    ((wOp 0).running 0 0 7 (dOp 0) q0 ∧ (dOp 0).stock = 0 ∧ ((wOp 0).opReady (dOp 0) 0 (Ocb.streams ⟨(dOp 0).ocb⟩ (dOp 0).shape)).1 = true)
    ∧ ((dOp 1).stock = 1 ∧ ((wOp 1).opReady (dOp 1) 0 (Ocb.stockStreams ⟨(dOp 1).ocb⟩ 1 (dOp 1).shape (dOp 1).inputs)).1 = true)
    ∧ (∀ k ∈ [2, 3, 4, 5, 6, 7, 8, 9, 10], (wOp k).running 0 0 7 (dOp k) q0 ∧ (dOp k).stock = k
        ∧ ((wOp k).opReady (dOp k) 0 (Ocb.stockStreams ⟨(dOp k).ocb⟩ k (dOp k).shape [])).1 = true)
    ∧ (((wOp 0).putOut (dOp 0) 0 oFar 0 [{ bits := 1, poison := false, rnd := .rne }] .ok).1 = false
      ∧ ((wOp 0).putOut (dOp 0) 0 ⟨(dOp 0).ocb⟩ 0 [] .ok).1 = true)
    ∧ (oFar.stockStores 3).contains 1 = false ∧ ((⟨List.replicate 0xE0 0 ++ [1]⟩ : Ocb).stockStores 3).contains 1 = true
    ∧ ((wOp 3).scatterAll (dOp 3) 0 ⟨(dOp 3).ocb⟩ [] [] [] .ok).1 = true
    ∧ ((⟨(dOp 6).ocb⟩ : Ocb).headerBad 0 0 64 .ok = some (.badArg, true)
      ∧ (⟨List.replicate 0x118 0 ++ leBytes 8 128⟩ : Ocb).headerBad (0x4B444C47 + at_ 1 16 32) 0 64 .ok = none) := by
  decide +kernel
/-- A collective of two ranks and one chunk of 64 FP32 elements, summed, its results delivered by event. -/
def rColl (cid : Nat) : CollReq :=
  { tag := 0, cid, n := 2, op := 0, inFmt := 0, inScaled := 0, outFmt := 0, outScaled := 0, round := 0, ovf := 0, seed := 0,
    chunkElems := 64, chunks := 1, accum := 0, result := 16 * 2 ^ 44 + 0x60000, status := 16 * 2 ^ 44 + 0x70000, deliver := 0,
    flock := 0, tc := 0, addr := 0, eq := 0, timeout := 60000 }
/-- The collective itself. -/
def xColl : Coll := { req := rColl 9, ctx := 0, part := 0, area := [], timer := true }
/-- COLL_CONTRIB to collective 9, step 0, rank `r`, chunk 0, `n` bytes from CVA 0x40000. -/
def fColl (r n : Nat) : Nat := at_ 0x40000 64 448 + at_ n 32 320 + at_ 9 32 288 + at_ r 14 242
/-- A contribution to a collective at another node. -/
def fFar : Nat := fColl 1 256 + at_ 0x8000 16 432
/-- A state with the collective and a contribution. -/
def wColl (f : Nat) : State := { w with colls := [xColl], descs := [dRun 12 f] }
theorem witness_CollectiveCommandsComplete :
    (w.region? ((rColl 0xFFFFFFFF).result / 2 ^ 44) = some r16
      ∧ w.serves 1 { own := [some 0, some 0, some 0, some 0], need := 1 } = true
      ∧ firstFail (w.collBad (rColl 0xFFFFFFFF) 0) = none ∧ w.standbyFor 0 = false ∧ w.colls.length < 1024
      ∧ w.hotFits 0 (65536 * cdiv (rColl 0xFFFFFFFF).areaBytes 65536) = true
      ∧ (w.takeArea (.coll 0 0xFFFFFFFF) (cdiv (rColl 0xFFFFFFFF).areaBytes 65536)).isSome = true)
    ∧ ((wColl 0).coll? 0 9 = some xColl ∧ xColl.timer = true)
    ∧ (wColl 0).serves 1 { own := [some 0], query := true } = true
    ∧ ((wColl (fColl 2 256)).running 0 0 12 (dRun 12 (fColl 2 256)) q0 ∧ xColl.judge 0 2 0 256 ≠ none ∧ xColl.judge 0 1 0 0 = none)
    ∧ ((wColl (fColl 1 256)).running 0 0 12 (dRun 12 (fColl 1 256)) q0 ∧ xColl.judge 0 1 0 256 = none
      ∧ (dRun 12 (fColl 1 256)).src.kind ≠ 2
      ∧ ((wColl (fColl 1 256)).keysReady rMove [((dRun 12 (fColl 1 256)).src.key, 256)] []).1 = true
      ∧ ((wColl (fColl 1 256)).fetched (dRun 12 (fColl 1 256)) 0 [((dRun 12 (fColl 1 256)).src.key, 256)]).1 = true
      ∧ ((wColl (fColl 1 256)).readKey rMove (dRun 12 (fColl 1 256)).src.key 256 {}).2.1 = .ok)
    ∧ ({ dRun 12 fFar with buf := [(0, List.replicate 256 (0, false))] }.src.kind = 2
      ∧ { dRun 12 fFar with buf := [(0, List.replicate 256 (0, false))] }.pulled.length = 256)
    ∧ (wColl 0).homeTakes 0 (pk 0x11 (9 * 2 ^ 32) 0) c0
    ∧ (wColl 0).homeTakes 0 (pk 0x11 (9 * 2 ^ 32) 256) c0
    ∧ ((wColl 0).classed (pk 0x11 (9 * 2 ^ 32) 256)).collWaits (pk 0x11 (9 * 2 ^ 32) 256) 0 0 0 256 = false
    ∧ (((wColl 0).classed (pk 0x11 (9 * 2 ^ 32) 256)).msgTake 0 (pk 0x11 (9 * 2 ^ 32) 256) 256 (.queueSampleTick)).1 = .taken := by
  decide +kernel

/-- Agent 5 is rank 0. -/
def a5 : Agent := { node := 7, ep := 2 }
/-- A state with one caching agent. -/
def wCoh : State := { w with coh := { w.coh with agents := [(5, a5)] } }
/-- The same with a ZERO page after the pages of region 16. -/
def wZero : State := { wCoh with tables := wCoh.tables.map (fun t =>
  if t.1 = 1603 then (t.1, { t.2 with ents := t.2.ents ++ [(14, zeroLeaf)] }) else t) }
/-- The state after the walk for a range, and whether every page of it translates. -/
def walked (s : State) (h : Hdr) (len : Nat) : State := ((s.classed h).walkPages c0 h.ctxTag (rangePages h.addr len)).2
/-- Whether every page of the range translates for access `acc`. -/
def trans (s : State) (h : Hdr) (len acc : Nat) : Bool :=
  ((s.classed h).walkPages c0 h.ctxTag (rangePages h.addr len)).1 == .ok
    && (firstFault ((walked s h len).pagesOf c0 h.addr len acc)).isNone
/-- Whether one granule's request of a caching agent may begin (`none`: no page; else whether it reads a ZERO page). -/
def oneGran (s : State) (h : Hdr) (op : HomeOp) (acc : Nat) : Option Bool :=
  ((walked s h 1).granReq 0 h c0 5 op [] ((walked s h 1).pagesOf c0 h.addr 1 acc)).bind (fun r =>
    if ((walked s h 1).shortHub [r.2]).isNone then some r.1 else none)
/-- Whether the requests of a range may begin. -/
def allGrans (s : State) (h : Hdr) (op : HomeOp) (len acc : Nat) (data : List Byte) : Bool :=
  ((walked s h len).shortHub (pieceReqs 0 h 0 op 0xFFFF 0 data false
    ((walked s h len).piecesOf h.addr ((walked s h len).pagesOf c0 h.addr len acc)) (walked s h len).coh.nextJoin)).isNone
theorem witness_CoherentReadsComplete :
    (wCoh.homeTakes 0 (pk 0x48 0x12380 0) c0 ∧ (wCoh.classed (pk 0x48 0x12380 0)).fromAgent (pk 0x48 0x12380 0) 5 = true
      ∧ trans wCoh (pk 0x48 0x12380 0) 1 0 = true ∧ trans wCoh (pk 0x48 0x12380 0) 1 1 = true
      ∧ oneGran wCoh (pk 0x48 0x12380 0) .rdShared 0 = some false ∧ oneGran wCoh (pk 0x48 0x12380 0) .rdOwn 1 = some false
      ∧ oneGran wCoh (pk 0x48 0x12380 0) .upgrade 1 = some false)
    ∧ (trans wZero (pk 0x48 (14 * 65536) 0) 1 0 = true ∧ oneGran wZero (pk 0x48 (14 * 65536) 0) .rdShared 0 = some true)
    ∧ (wCoh.homeTakes 0 (pk 0x41 0xFFFF 4096) c0 ∧ trans wCoh (pk 0x41 0xFFFF 4096) 4096 0 = true
      ∧ allGrans wCoh (pk 0x41 0xFFFF 4096) .rdUnc 4096 0 [] = true)
    ∧ wCoh.homeTakes 0 (pk 0x41 0xFFFF 0) c0 := by decide +kernel
theorem witness_CoherentWritesComplete :
    (wCoh.homeTakes 0 (pk 0x4C 0x12380 128) c0 ∧ (wCoh.classed (pk 0x4C 0x12380 128)).fromAgent (pk 0x4C 0x12380 128) 5 = true
      ∧ trans wCoh (pk 0x4C 0x12380 128) 1 0 = true ∧ trans wCoh (pk 0x4C 0x12380 128) 1 1 = true
      ∧ oneGran wCoh (pk 0x4C 0x12380 128) .cleanEvict 0 = some false ∧ oneGran wCoh (pk 0x4C 0x12380 128) .wrBack 1 = some false)
    ∧ (trans wCoh (pk 0x4C (0x12390 / 128 * 128) 128) 128 1 = true
      ∧ allGrans wCoh (pk 0x4C (0x12390 / 128 * 128) 128) .wrThru 128 1 (List.replicate 128 1) = true)
    ∧ (wCoh.homeTakes 0 (pk 0x01 0x1234F 16) c0 ∧ trans wCoh (pk 0x01 0x1234F 16) 16 1 = true
      ∧ (((wCoh.classed (pk 0x01 0x1234F 16)).msg? (pk 0x01 0x1234F 16).key).isNone
        && (wCoh.classed (pk 0x01 0x1234F 16)).net.closed.any (fun x => x.1 == (pk 0x01 0x1234F 16).key)) = false
      ∧ allGrans wCoh (pk 0x01 0x1234F 16) .wrUnc 16 1 (List.replicate 16 1) = true
      ∧ allGrans wCoh (pk 0x01 0x1234F 16) (.wrStash 5 1) 16 1 (List.replicate 16 1) = true
      ∧ ((walked wCoh (pk 0x01 0x1234F 16) 16).msgTake 0 (pk 0x01 0x1234F 16) 16
          (.wrUncached 0 (pk 0x01 0x1234F 16) (List.replicate 16 1))).1 = .taken)
    ∧ wCoh.homeTakes 0 (pk 0x01 0 0) c0
    ∧ (0x12388 % widthBytes (.int 64) = 0 ∧ (atomicOp 0 (.int 64) 0 [1]).isSome = true
      ∧ trans wCoh (pk 0x10 0x12388 0) (widthBytes (.int 64)) 2 = true
      ∧ allGrans wCoh (pk 0x10 0x12388 0) (.atomic 0 (.int 64) [1]) (widthBytes (.int 64)) 2 [] = true) := by decide +kernel
/-- An open transaction that awaits agent 5 in way `k`, and the snoop that asked, of opcode `o`. -/
def tTxn (op : HomeOp) (k : AwaitKind) : Txn :=
  { id := 3, hub := 0, gran := 0x4800400, req := { op, ppa := 0x240020000, len := 128, region := 16, roff := 0x10000, tag := 0 },
    await := [(5, k)] }
/-- The snoop that asked, of opcode `o`. -/
def oSnoop (o : Nat) : OwnMsg := { node := 7, tag := 4, opcode := o, snoop := some (3, 5) }
/-- The home waiting in a transaction. -/
def wTxn (op : HomeOp) (k : AwaitKind) (o : Nat) : State := { wCoh with
  coh := { wCoh.coh with txns := [tTxn op k] }, net := { wCoh.net with own := [oSnoop o] } }
/-- Its answer. -/
def hSnoop (op n : Nat) : Hdr := { pk op 0 n with tag := 4 }
/-- An uncached read waits for a transaction of hub 0. -/
def wStall : State := { wCoh with coh := { wCoh.coh with stalled := [(0, .rdUncached 0 (pk 0x41 0xFFFF 4096))] } }
theorem witness_CoherentAnswersAndLeasesComplete :
    ((wTxn .rdOwn .inv 0x50).answersSnoop 0 (hSnoop 0x5B 0) 3 [.inv] (oSnoop 0x50) (tTxn .rdOwn .inv)
      ∧ (wTxn .rdOwn .snp 0x53).answersSnoop 0 (hSnoop 0x5C 128) 3 [.snp, .fwd] (oSnoop 0x53) (tTxn .rdOwn .snp)
      ∧ (wTxn .rdOwn .fwd 0x52).answersSnoop 0 (hSnoop 0x5D 0) 3 [.fwd] (oSnoop 0x52) (tTxn .rdOwn .fwd)
      ∧ (wTxn (.wrStash 5 0) .stash 0x54).answersSnoop 0 (hSnoop 0x5F 0) 3 [.stash] (oSnoop 0x54) (tTxn (.wrStash 5 0) .stash))
    ∧ ({ tTxn .rdOwn .inv with offered := true }.offered = true ∧ (tTxn .rdOwn .inv).taken = none)
    ∧ ((wStall.coh.stalled.filter (fun x => x.1 == 0)).map (·.2) = [.rdUncached 0 (pk 0x41 0xFFFF 4096)]
      ∧ ((wStall.updCoh (fun c => { c with stalled := c.stalled.erase (0, .rdUncached 0 (pk 0x41 0xFFFF 4096)) })).rerun
          (.rdUncached 0 (pk 0x41 0xFFFF 4096))).coh.stalled.any (fun x => x.2 == .rdUncached 0 (pk 0x41 0xFFFF 4096)) = false)
    ∧ (({ wCoh with coh := { wCoh.coh with held := [(tTxn .wrUnc .inv).req] } } : State).releasable 0x4800400).isSome = true
    ∧ (wCoh.regionPpa 16 (((wCoh.region? 16).map (·.extent)).getD 0) 0x10000).isSome = true := by decide +kernel
/-- An agent with a given lease. -/
def wLease (l : Lease) : State := { wCoh with coh := { wCoh.coh with agents := [(5, { a5 with lease := l })] } }
theorem witness_CoherentAnswersAndLeasesComplete_2 :
    (wCoh.turn 0 (pk 0x60 0 0) = true ∧ (wCoh.consume 0 (pk 0x60 0 0)).agent? 5 = some a5
      ∧ (pk 0x60 0 0).incClaim = (wCoh.consume 0 (pk 0x60 0 0)).inc)
    ∧ (wCoh.agent? 5 = some a5 ∧ a5.lease = .current)
    ∧ (∀ x ∈ (wLease .reclaimed).coh.agents, x.2.lease = .current ∨ x.2.lease = .void ∨ x.2.lease = .reclaimed)
    ∧ (wLease (.reclaiming [(0, 0)])).coh.agents = [(5, { a5 with lease := .reclaiming [(0, 0)] })] := by decide +kernel
theorem witness_CoherenceCommandsComplete :
    (w.serves 0 { fm := true, need := 1 } = true ∧ w.agent? 4095 = none)
    ∧ (wCoh.serves 0 { fm := true, need := 1 } = true ∧ wCoh.agent? 5 = some a5
      ∧ (wLease .reclaimed).agent? 5 = some { a5 with lease := .reclaimed })
    ∧ (w.serves 0 { fm := true } = true ∧ 20 * 50 ≤ 1000 ∧ 20 * 10000 ≤ 1000000)
    ∧ (w.serves 0 { fm := true, query := true, need := 1 } = true ∧ 0 < w.hubs ∧ 1 < w.hubs ∧ w.buckets 0 - 1 < w.buckets 0) := by
  decide +kernel

/-- Port 95 in training at step `k`; port 0 up in a power state. -/
def wTrain (k : Nat) : State := { w with ports := [(95, { st := .training, train := { step := k } })] }
/-- Port 95 tries its saved record against a partner that has all four lanes. -/
def bLanes : BitVec 512 := BitVec.ofNat 512 (at_ 15 4 326)
/-- Port 95 with that partner's block. -/
def wKnown : State := { w with ports := [(95, { st := .training, train := { step := 4, saved := true, mode := 1, lanes := 15, blk := some bLanes } })] }
theorem witness_TrainingAndLinkEventsComplete :
    95 < (wTrain 1).variant.ports
    ∧ (∀ k ∈ [1, 2, 4], ((wTrain k).port 95).trains = true ∧ ((wTrain k).port 95).train.step = k)
    ∧ (blkValid 0 = false ∧ ((wTrain 5).port 95).trains = true ∧ 2 ≤ ((wTrain 5).port 95).train.step)
    ∧ ((wTrain 4).port 95).train.saved = false
    ∧ ((wKnown.port 95).train.saved = true ∧ (wKnown.port 95).train.needs 1 bLanes = 15 ∧ Nat.land (7 % 16) 15 ≠ 15 ∧ Nat.land (15 % 16) 15 = 15)
    ∧ (blkValid (BitVec.ofNat 512 (blkCrc 0 * 2 ^ 480)) = true ∧ 2 ≤ ((wTrain 2).port 95).train.step)
    ∧ ((w.port 95).st = .down ∧ w.portsLive = true) := by decide +kernel
/-- Port 0 degraded with a given link. -/
def wLink (q : Port) : State := { w with ports := [(0, { q with st := .degraded, admOk := true })] }
/-- LPM is in use and PL2 is enabled. -/
def qLow : Port := { feat := 255, pl2En := true, mode := 1, lanes := 15 }
theorem witness_TrainingAndLinkEventsComplete_2 :
    (((wLink qLow).port 0).isUp = true ∧ ((wLink qLow).port 0).pstate ≠ 2 ∧ ((wLink qLow).port 0).activeLanes ≠ []
      ∧ ((wLink qLow).port 0).lpm = true ∧ ((wLink qLow).port 0).pstate = 0 ∧ ((wLink qLow).port 0).link.egressEmpty = true
      ∧ ((wLink qLow).port 0).pl2En = true ∧ ((wLink qLow).port 0).lp = 0)
    ∧ ((wLink { qLow with lp := 1 }).port 0).lp = 1
    ∧ (((wLink { qLow with pstate := 2 }).port 0).pstate = 2 ∧ ((wLink { qLow with pstate := 2 }).port 0).lp ≠ 2)
    ∧ ((wLink { qLow with pstate := 2, lp := 2 }).port 0).lp = 2 := by decide +kernel
theorem witness_PortCommandsComplete :
    (2 ^ 95 + 1 < 2 ^ 96 ∧ w.serves 0 { fm := true, query := true } = true ∧ w.serves 0 { fm := true } = true)
    ∧ (maskPorts (2 ^ 95 + 1)).length ≤ 48 ∧ (∀ p ∈ maskPorts (2 ^ 95 + 1), w.portPresent p = true) ∧ w.portsLive = true
    ∧ linkWordBad 0x08B6C68877777777 = false := by decide +kernel

/-- Port 95 in a given state of training. -/
def wInit (l : Link) (st : PState) : State := { w with ports := [(95, { st, train := { step := 6 }, link := l })] }
/-- A flit that its sender sealed is taken; one whose CRC field is one more is not. -/
theorem witness_flit_crc (f : Flit) : f.sealed.crcBad = false ∧ (f.crc = f.sum + 1 → f.crcBad = true) := by
  have h (g : List Byte → Nat) (c : BitVec 64) :
      BitVec.ofNat 64 (g ({ f with crc := c } : Flit).body) = BitVec.ofNat 64 (g f.body) := rfl
  constructor
  · simp only [Flit.crcBad, Flit.sealed, Flit.sum, h, bne_self_eq_false]
  · intro e
    simp [Flit.crcBad, e]
theorem witness_LinkLayerCompletes :
    (95 < (wInit {} .training).variant.ports ∧ ((wInit {} .training).port 95).trains = true
      ∧ ((wInit {} .training).port 95).isUp = false ∧ ((wInit {} .training).port 95).train.step = 6
      ∧ (∀ v < 8, maxUnits v ≤ [258, 258, 258, 258, 258, 258, 258, 4].getD v 0)
      ∧ ((wInit {} .training).port 95).link.ready = false)
    ∧ (((wInit { live := true } .up).port 95).isUp = true ∧ ((wInit { live := true } .up).port 95).lp ≠ 2
      ∧ ((wInit { live := true } .up).port 95).pstate ≠ 2 ∧ ((wInit { live := true } .up).port 95).link.live = true)
    ∧ ((wInit { ackTimer := true } .up).port 95).link.ackTimer = true
    ∧ (((wInit { replay := [{}], expiries := 15 } .up).port 95).link.replay ≠ []
      ∧ 15 ≤ ((wInit { replay := [{}], expiries := 15 } .up).port 95).link.expiries)
    ∧ (((wInit { ready := true, owed := [(0, 600)] } .up).port 95).link.ready = true
      ∧ ((wInit { ready := true, owed := [(0, 600)] } .up).port 95).link.owes = true
      ∧ ({ typ := 3 } : Flit).bad = true ∧ ({ typ := 1 } : Flit).bad = false ∧ ({ typ := 1, seq := 4095 } : Flit).bad = false)
    ∧ (w.serves 0 { fm := true } = true ∧ w.portPresent 95 = true ∧ (w.port 95).link.inject = none) := by decide +kernel
theorem witness_RoutingAndMessagesComplete :
    (w.serves 0 { fm := true } = true ∧ 1 ≤ bfld (0x0001FD0282800000 : BitVec 64) 39 30 ∧ bfld (0x0001FD0282800000 : BitVec 64) 39 30 ≤ 1000
      ∧ bfld (0x0001FD0282800000 : BitVec 64) 29 22 ≠ 0 ∧ bfld (0x0001FD0282800000 : BitVec 64) 21 0 = 0)
    ∧ ((∀ p ∈ [2 ^ 63 + 95 * 2 ^ 54].flatMap entryPorts, p ≤ 95 ∧ w.portPresent p = true)
      ∧ (∀ e ∈ [0, 1], fld e 53 32 = 0 ∧ e < 2 ^ 64) ∧ (∀ p ∈ [0].flatMap entryPorts, p ≤ 95 ∧ w.portPresent p = true)
      ∧ 65535 + [0].length ≤ 65536)
    ∧ (∀ n ∈ [0, 0xFFFF], n ≤ 0xFFFF)
    ∧ (bfld (BitVec.ofNat 128 (2 ^ 127 + 2 ^ 95 + 1)) 125 112 = 0
      ∧ ∀ p ∈ bitsOf (bfld (BitVec.ofNat 128 (2 ^ 127 + 2 ^ 95 + 1)) 95 0) 96, w.portPresent p = true)
    ∧ w.serves 0 { fm := true, query := true } = true := by decide +kernel
theorem witness_RoutingAndMessagesComplete_2 :
    w.turn 0 (pk 0x13 0 0) = true
    ∧ (({ w with net := { w.net with msgs := [{ iod := 3, key := (pk 1 0 9).key, hdr := pk 1 0 9, port := 95 }] } } : State).msg?
        (pk 1 0 9).key).any (fun x => x.iod == 3 && x.got == 0 && x.hdr.msgLen == 9) = true := by decide +kernel

/-- Unit `u` frozen by an uncorrectable error at its first sector. -/
def snap : Snapshot := { cause := 1, failPpa := 0x90000000, time := 0 }
/-- The same unit with its contents lost. -/
def wLost : State := { w with pool := { w.pool with units := [(2, { frozen := some { snap with contentsLost := true } })] } }
/-- A state with that unit. -/
def wIce : State := { w with pool := { w.pool with units := [(2, { frozen := some snap })] } }
theorem witness_MemoryUnitCommandsComplete :
    (w.serves 0 { fm := true, query := true, need := 1 } = true ∧ w.groupPresent 63 = true ∧ w.unitOf 0 = some 0
      ∧ (wIce.unitGone 2).1 = false ∧ (wIce.unit 2).frozen = some snap)
    ∧ (w.serves 0 { fm := true, need := 1 } = true ∧ schedBad 0x00FA60403E800000 = false ∧ (wIce.unit 2).sparing = none
      ∧ snap.contentsLost = false ∧ (wLost.unitGone 2).1 = false ∧ (wLost.unit 2).sparing = none
      ∧ (wLost.unit 2).frozen.any (·.contentsLost) = true
      ∧ wIce.freeSpares 2 ≠ [])
    ∧ ((markTargets 3 767).any (fun u => 768 ≤ u) = false ∧ (markTargets 1 11).any (fun u => 768 ≤ u) = false
      ∧ (markTargets 3 767).all (w.markedAlready 3 3) = false ∧ (markTargets 2 15).all (w.markedAlready 2 0) = false)
    ∧ (({ wIce with pool := { wIce.pool with units := [(2, { frozen := some snap, sparing := some (1, true, 0) })] } } : State).unit 2).sparing
        = some (1, true, 0) := by decide +kernel
/-- A group with a slot of a strict partition. -/
def wGuard : State := { w with
  parts := [(0, { p0 with mode := 1 })], clock := { aon := 16 * 88 },
  pool := { w.pool with groups := [(63, { active := [(100, 64)] })] } }
/-- One DIMM in channel 15. -/
def wDimm : State := { w with boot := { w.boot with dimms := [{ dc := 15, slot := 0, gib := 64, ranks := 2, bg := 4, ba := 4, cols := 10, serial := 1 }] } }
theorem witness_MemoryScheduleCompletes :
    (w.boot.held = false ∧ w.boot.stopped = false ∧ wGuard.guardSlot 63 wGuard.slotNow = true ∧ wGuard.guardSlot 63 100 = false
      ∧ w.guardSlot 0 w.slotNow = false)
    ∧ w.refreshing 767 = true
    ∧ ((wDimm.ranksOf 15)[0]? = some (0, 0) ∧ (wDimm.ranksOf 15)[1]? = some (0, 1) ∧ wDimm.refreshing (0x8000 + 15) = true)
    ∧ w.assembled 767 = true ∧ ((w.unit 767).hot ≠ (1 == 1))
    ∧ w.unitOf (0x12345 / 64 * 64) = some 0
    ∧ (w.unitPresent 5 = true ∧ (w.unit 5).frozen = none)
    ∧ (wIce.unitPresent 2 = true ∧ ((wIce.freeze 2 2 0 [0, 0, 0] (wIce.inFlight 2 0) none).unit 2).frozen.isSome = true) := by decide +kernel

theorem witness_ScrubbingCompletes :
    (w.unitPresent 2 = true ∧ (w.unit 2).frozen = none ∧ (w.unit 2).power ≠ 2 ∧ bfld w.pool.scrubWord 53 53 ≠ 0
      ∧ w.boot.held = false ∧ passSector (w.unitSectors 2) (w.unit 2).scrub = some 0x90000000
      ∧ w.absentAt 2 0x90000000 = false ∧ (w.unit 2).wq.any (fun e => e.sector == 0x90000000) = false
      ∧ ((w.makeRoom 2 false 65).unit 2).frozen = none)
    ∧ (w.serves 0 { fm := true, need := 1 } = true ∧ scrubBad 0x0620810000000000 = false)
    ∧ (wDimm.unitOf (slotBase 15 0 / 65536 * 65536) = some (0x8000 + 15) ∧ wDimm.boot.stage = 8
      ∧ wDimm.denied (0x8000 + 15) (slotBase 15 0) = none) := by decide +kernel
/-- Chunk 5 of stack 0 is free, chunk 36864 belongs to region 16; moves, spare copies and retired pages are in progress. -/
def wRet : State := { w with pool := { w.pool with
  retired := [.page 7], moves := [(36864, 36865, 0), (5, 6, 0)], units := [(3, { bankMove := some (1, 0) })] } }
/-- Two symbols of unit 3's first sector are wrong. -/
def wFlip : State := { wRet with pool := { wRet.pool with smeta := [(sliceBase 3, { flip := 2 ^ 80 + 2 ^ 487 })] } }
theorem witness_RetirementCommandsComplete :
    (w.serves 0 { fm := true, need := 1 } = true ∧ w.unitPresent 767 = true ∧ (2 ^ 575) % 2 ^ 576 ≠ 0 ∧ w.pool.flip = none)
    ∧ (w.serves 0 { fm := true } = true ∧ wRet.pool.retired[0]? = some (.page 7))
    ∧ (w.serves 0 { fm := true, query := true } = true ∧ 1 < w.hubs)
    ∧ (w.unitOf (36864 * 65536) = some 2 ∧ w.unitPresent 2 = true ∧ w.inCaddy (36864 * 65536) = false ∧ w.inDir (36864 * 65536) = false
      ∧ w.isSpare 2 = false ∧ (w.unit 2).frozen = none ∧ w.chunkMigrates 36864 = false ∧ w.pool.retired.contains (.page 36864) = false
      ∧ w.retiredOn (unitHub 2) < 16384 ∧ w.chunkHeld 36865 = false ∧ w.chunkHeld 36864 = true
      ∧ w.chunks.at? 36864 = some (.extent 16)
      ∧ ((w.nearChunks 2 36864).findSome? (fun r => firstFree (fun x => !w.chunkFree x || x == 36864) r.1 r.2 w.draw.1)).isSome = true)
    ∧ (wRet.pool.moves.find? (fun x => x.1 == 36864) = some (36864, 36865, 0) ∧ wRet.chunkHeld 36864 = true
      ∧ (wRet.recallAll (wRet.chunkCopies 36864) true).1 = true ∧ wRet.pool.moves.find? (fun x => x.1 == 5) = some (5, 6, 0)
      ∧ wRet.chunkHeld 5 = false ∧ (wRet.recallAll (wRet.chunkCopies 36864) true).2.chunkOpen 36864 = false)
    ∧ (w.bankThere 767 3 3 3 = true ∧ w.bankThere 767 0 0 0 = true ∧ w.variant.spares = true ∧ w.freeSpares 767 ≠ []
      ∧ wDimm.bankThere (0x8000 + 15) 1 3 3 = true)
    ∧ ((wRet.unit 3).bankMove = some (1, 0) ∧ ((wRet.drainUnit 3).copySlice 3 false).1 = none
      ∧ ((wFlip.drainUnit 3).copySlice 3 false).1.isSome = true) := by decide +kernel

/-- A pair over port 0 with node 9, in role `r`; region 16 is mirrored. -/
def mir (r : Role) : Mirror :=
  { role := r, setId := 5, partner := 9, ports := [0], claim := 2, highest := 2, partnerRole := 1, hbxOk := true, ppOk := true }
/-- A state in a mirror pair. -/
def wPair (r : Role) : State := { w with
  mirror := mir r, regions := [(16, { r16 with mirror := true, policy := 1 })],
  ports := [(0, { st := .up, admOk := true, feat := 4, partner := some { serial := 2, node := 9, port := 0 } })] }
/-- A pair packet from node 9. -/
def pkPair (op a n : Nat) : Hdr := { pk op a n with srcNode := 9, srcEp := 0, incClaim := 2, tag := 4 }
/-- The payload of a beat of node 9, role SOLO, claim 3. -/
def beat9 : BitVec 256 := BitVec.ofNat 256 (at_ 5 16 144 + at_ 9 16 128 + at_ 3 32 96 + at_ 2 4 92)
theorem witness_MirrorCommandsComplete :
    (({ wPair .unpaired with mirror := {} } : State).serves 0 { fm := true, need := 2 } = true ∧ w.noMirror = false
      ∧ (∀ p ∈ bitsOf 1 96, (wPair .unpaired).portPresent p = true ∧ (wPair .unpaired).pairBad 9 p = false) ∧ bitsOf 1 96 ≠ []
      ∧ (bitsOf 1 96).length ≤ 4)
    ∧ (w.serves 0 { fm := true } = true ∧ w.ctxs.any (fun c => c.2.mirror) = false)
    ∧ w.serves 0 { fm := true, query := true } = true
    ∧ ((wPair .fenced).mirror.role = .fenced ∧ (wPair .fenced).mirror.highest + 2 < 2 ^ 32)
    ∧ (wPair .active).mirror.role = .active ∧ ((wPair .standby).mirror.role = .standby ∧ (wPair .standby).mirror.highest + 1 < 2 ^ 32)
    ∧ (wPair .solo).mirror.role ≠ .unpaired := by decide +kernel
/-- The active with one forward out. -/
def wFwd (f : Forward) : State := { wPair .active with mirror := { mir .active with forwards := [f] } }
/-- The partner's beat waits in port 0; the copy to a returning partner has come to `(r, o)`. -/
def wBeat : State := { wPair .active with ports := [(0, { (wPair .active).port 0 with
  link := { inbox := [{ hdr := pkPair 0x74 0 32, data := leBytes 32 beat9.toNat }] } })] }
/-- The copy to a returning partner has come to `(r, o)`. -/
def wSync (r o : Nat) : State := { wPair .solo with mirror := { mir .solo with syncing := true, curRegion := r, curOff := o } }
theorem witness_MirrorPacketsComplete :
    (wPair .active).beats = true ∧ (wPair .active).beatOk beat9 = true
    ∧ ((wBeat.port 0).link.inbox.find? (fun q => q.hdr.opcode == 0x74 && leNat q.data == beat9.toNat)
          = some { hdr := pkPair 0x74 0 32, data := leBytes 32 beat9.toNat }
      ∧ wBeat.turn 0 (pkPair 0x74 0 32) = true ∧ (wBeat.consume 0 (pkPair 0x74 0 32)).pairPorts.contains 0 = true
      ∧ (wBeat.consume 0 (pkPair 0x74 0 32)).beatOk beat9 = true)
    ∧ ((wPair .standby).fromPair 0 (pkPair 0x76 (16 * 2 ^ 44) 64)
      ∧ ((wPair .standby).consume 0 (pkPair 0x76 (16 * 2 ^ 44) 64)).standby = true
      ∧ ((wPair .standby).consume 0 (pkPair 0x76 (16 * 2 ^ 44) 64)).mirror.highest ≤ (pkPair 0x76 (16 * 2 ^ 44) 64).incClaim)
    ∧ ((wPair .standby).region? (leNat ((leBytes 8 (16 * 2 ^ 44)).take 8) / 2 ^ 44)).any (·.mirror) = true
    ∧ ((wFwd { tag := 4, join := 0, pub := 0 }).fromPair 0 (pkPair 0x77 0 0)
      ∧ (wFwd { tag := 4, join := 0, pub := 0 }).mirror.forwards.find? (fun f => f.tag == (pkPair 0x77 0 0).tag)
          = some { tag := 4, join := 0, pub := 0 }
      ∧ (wFwd { tag := 4, join := 0, pub := 0, desc := some (0, 0) }).mirror.forwards.find? (fun f => f.tag == (pkPair 0x77 0 0).tag)
          = some { tag := 4, join := 0, pub := 0, desc := some (0, 0) })
    ∧ ((wPair .standbySync).fromPair 0 (pkPair 0x78 (16 * 2 ^ 44) 64)
      ∧ ((wPair .standbySync).consume 0 (pkPair 0x78 (16 * 2 ^ 44) 64)).mirror.role = .standbySync
      ∧ ((wPair .standbySync).consume 0 (pkPair 0x78 (16 * 2 ^ 44) 64)).mirror.highest ≤ (pkPair 0x78 (16 * 2 ^ 44) 64).incClaim)
    ∧ ((wSync 0 0).mirror.syncing = true ∧ (wSync 0 0).pairPorts ≠ [] ∧ (wSync 0 0).syncNext = some (16, 0)
      ∧ ((wSync 16 0).recallAll ((wSync 16 0).granulesOf 16 16 0 65536) false).1 = true)
    ∧ (wSync 16 (14 * 65536)).syncNext = none
    ∧ (wPair .standbySync).mirror.partnerRole = 1 := by decide +kernel

theorem witness_WatchdogCommandsComplete :
    ((wd 1 0).queue? 0 = some q0 ∧ (wd 1 0).oldest 0 = some (dsc 1 0) ∧ (wd 1 0).dogRuns 0 q0 = true
      ∧ ((wd 1 0).ctx? 0).any (fun c => c.st == .active) = true)
    ∧ (w.serves 0 { fm := true } = true ∧ (∀ e ∈ maskEngines (2 ^ 79 + 1), w.enginePresent e = true) ∧ maskBad (2 ^ 79 + 1) = false)
    ∧ (w.enginePresent 23 = true ∧ w.enginePresent (0x100 + 47) = true)
    ∧ (({ w with engines := [(23, { job := some (0, 0) })] } : State).engine 23).job.isSome = true
    ∧ (({ w with engines := [(0x12F, { resetting := true })] } : State).engine 0x12F).resetting = true
    ∧ (({ w with mpc := { dump := some [1, 2] } } : State).mpc.dump = some [1, 2] ∧ 1 < [1, 2].length)
    ∧ (({ w with mpc := { armed := true } } : State).restartedLately = false
      ∧ ({ w with mpc := { armed := true, lastRestart := some 0 } } : State).restartedLately = true) := by decide +kernel
theorem witness_ResetsComplete :
    (State.reset.boot.held = true ∧ State.reset.boot.stopped = false)
    ∧ (w.serves 0 { fm := true } = true ∧ w.boot.scheduled = none)
    ∧ ({ w.boot with scheduled := some 0 }.scheduled = some 0 ∧ { w.boot with scheduled := some 1 }.scheduled = some 1)
    ∧ ((State.endSessions { w.dropHolder 1 with clock := { w.clock with latch := w.clock.latch.del 1 } } 1).part? (1 - 1)).isSome = true := by
  decide +kernel

/-- READY, slot A booted and its copy running, a version above the fused one. -/
def wFw : State := { w with boot := { w.boot with readyOnce := true }, fw := { w.fw with fromA := true, svnRun := 3 } }
theorem witness_ImagesAndBootServeComplete :
    w.serves 0 { query := true, rom := true } = true ∧ (w.serves 0 { fm := true, rom := true } = true ∧ 0x3000000 - 1 + [(0 : Byte)].length ≤ 0x3000000)
    ∧ (wFw.serves 0 { fm := true } = true ∧ wFw.runsSlotA = true) := by decide +kernel
/-- An expected topology that demands nothing. -/
def topo0 : TopoExpect :=
  { policy := BitVec.ofNat 64 (at_ 10 14 50 + at_ 10 14 36), ports := List.replicate 96 0, neighbours := [] }
/-- The wait for the expected topology. -/
def wTopo : State := { w with boot := { w.boot with stage := 7, topoUse := some topo0, topo := some topo0 },
                              ports := [(0, { st := .up, window := some (0, 0, 0) })] }
theorem witness_BringUpCommandsComplete :
    (wTopo.boot.held = false ∧ wTopo.boot.stopped = false ∧ wTopo.mpc.restarting = false)
    ∧ (wTopo.boot.stage = 7 ∧ wTopo.boot.topoUse = some topo0)
    ∧ (wTopo.port 0).window = some (0, 0, 0)
    ∧ w.serves 0 { fm := true, query := true, rom := true } = true
    ∧ (w.serves 0 { fm := true } = true ∧ (∀ p < 96, (topo0.entry p).isSome = true → w.portPresent p = true)
      ∧ firstFail (topoBad topo0) = none)
    ∧ (wTopo.serves 0 { fm := true, query := true } = true ∧ wTopo.boot.topo = some topo0 ∧ w.boot.topo = none) := by decide +kernel
/-- Flock 4095 exists; image 3 of region 16 is being served to it. -/
def rServe : ServeReq := { handle := 16 * 2 ^ 44, len := 65536, flock := 4095, addr := 0, tc := 7, rounds := 16, rate := 90 }
/-- A state that serves boot images. -/
def wServe (live : Bool) : State := { w with
  net := { w.net with flocks := [(4095, BitVec.ofNat 128 (2 ^ 127 + 1))] },
  fw := { w.fw with serves := [(3, { req := rServe, extent := 16, pos := 64, live })] } }
theorem witness_ImagesAndBootServeComplete_2 :
    (w.serves 0 { fm := true } = true ∧ w.region? (rServe.handle / 2 ^ 44) = some r16 ∧ r16.st = 1
      ∧ rServe.handle % 2 ^ 44 + rServe.len ≤ r16.size * 65536 ∧ bfld ((wServe false).flockEnt 4095) 127 127 ≠ 0
      ∧ (wServe false).serving.any (fun v => v.2.req.flock == 4095) = false ∧ (wServe false).serving.length < 4
      ∧ (wServe false).boot.stage = 8 ∧ firstFree (wServe false).fw.serves.has 0 65536 (wServe false).draw.1 = some 0)
    ∧ ((wServe true).serving.find? (fun v => v.1 == 3) = some (3, { req := rServe, extent := 16, pos := 64 })
      ∧ ((wServe true).serveBytes 3 { req := rServe, extent := 16, pos := 64 }).1 = true)
    ∧ ((wServe false).serves 0 { fm := true, query := true } = true
      ∧ (wServe false).fw.serves.at? 3 = some { req := rServe, extent := 16, pos := 64, live := false }) := by decide +kernel
/-- Mailbox 0 in state `st`, held by the PF with ticket 9. -/
def mb0 (st : MbState) : Mailbox := { st, holder := some (.func 0), ticket := 9, direct := true }
/-- A captured DISCOVER request. -/
def cap0 : Captured := { opcode := 1, bodyLen := 0, seq := 4, cookie := 5, notify := false, vec := 0, rsvd := 0, body := [], order := 0 }
/-- A state with one mailbox. -/
def wMb (b : Mailbox) : State := { w with mbs := [(0, b)] }
theorem witness_MailboxAccessesComplete :
    (hostSized 8 8 = true ∧ (pkTo 0xFE 0x01 0 8).msgLen ≤ (List.replicate 8 (0 : Byte)).length ∧ w.mbOpen (.func 0) 0 = true ∧ w.mbOpen (.func 64) 64 = true
      ∧ ({ w with mbs := [(0, { direct := true, acl := [(7, 2)] })] } : State).mbOpen (.fabric 0 (pkTo 0xFE 0x02 0 8)) 0 = true)
    ∧ (((wMb (mb0 .held)).mb 0).st = .held ∧ ((wMb (mb0 .done)).mb 0).st = .done)
    ∧ (((wMb { mb0 .running with cap := some cap0 }).mb 0).st = .running
      ∧ (wMb { mb0 .running with cap := some cap0 }).cmdMayStart 0 { mb0 .running with cap := some cap0 } = true)
    ∧ ((wMb { mb0 .running with cap := some cap0, result := some okResp }).mb 0).result = some okResp := by decide +kernel
theorem witness_MailboxProtocol :
    (w.mbClosed 0 = false ∧ (w.mb 0).st = .free)
    ∧ ((wMb (mb0 .held)).mbClosed 0 = false ∧ ((wMb (mb0 .held)).mb 0).holder ≠ some (srcOwner (.func 5))
      ∧ ((wMb (mb0 .held)).mb 0).holder = some (srcOwner (.func 0)) ∧ (wMb (mb0 .held)).holds (.func 0) 0 = true
      ∧ 65545 % 65536 = ((wMb (mb0 .held)).mb 0).ticket)
    ∧ ((wMb (mb0 .held)).holds (.func 5) 0 = false ∧ 10 % 65536 ≠ ((wMb (mb0 .held)).mb 0).ticket
      ∧ (wMb (mb0 .held)).buffersHidden (.func 5) 0 = false) := by decide +kernel
theorem witness_TransportAndTimeComplete :
    w.serves 0 { fm := true } = true ∧ (∀ x ∈ [(0xFFFF, 0xFF)], x.1 ≤ 0xFFFF ∧ x.2 ≤ 0xFF)
    ∧ w.serves 64 { query := true } = true ∧ w.serves 1 { query := true } = true
    ∧ (-100000 : Int) ≤ -100000 ∧ (100000 : Int) ≤ 100000 := by decide +kernel

/-- Function 64 in phase `k` of SPDM; function 1 has session 6. -/
def wSpdm (k : Nat) : State := { w with fw := { w.fw with spdm := [(64, k)] } }
/-- A session of function 1. -/
def ses (f : Bool) : Session := { fn := 1, id := 6, keyIn := 1, keyOut := 2, seqIn := 5, finished := f }
/-- A state with that session. -/
def wSes (f : Bool) : State := { w with fw := { w.fw with sessions := [ses f] } }
/-- A free number at the place drawn is the one found. -/
theorem firstFree_drawn (used : Nat → Bool) (lo hi v : Nat) (h : lo < hi) (hu : used (lo + v % (hi - lo)) = false) :
    firstFree used lo hi v = some (lo + v % (hi - lo)) := by
  have hv := Nat.mod_lt v (Nat.sub_pos_of_lt h)
  obtain ⟨n, hn⟩ : ∃ n, hi - (lo + v % (hi - lo)) = n + 1 := ⟨_, (Nat.succ_pred_eq_of_pos (by omega)).symm⟩
  simp [firstFree, Nat.not_le.mpr h, hn, scanFree, hu]
theorem witness_session_id :
    (firstFree (fun i => ((wSpdm 3).session? 64 i).isSome) 0 (2 ^ 32) (wSpdm 3).draw.1).isSome = true := by
  rw [firstFree_drawn _ _ _ _ (by decide) rfl]; rfl
theorem witness_SecurityAndBounceCommandsComplete :
    (w.boot.held = false ∧ w.boot.stopped = false)
    ∧ (∀ k ∈ [1, 2, 3], (wSpdm k).spdmPhase 64 = k)
    ∧ ((wSpdm 3).sessionsOf 64).length < 4
    ∧ ((wSes false).session? 1 6 = some (ses false) ∧ (ses false).finished = false)
    ∧ ((wSes true).session? 1 6 = some (ses true) ∧ (ses true).finished = true) := by decide +kernel
theorem witness_SecurityAndBounceCommandsComplete_2 :
    ((wSes true).partSession 0 = some (ses true) ∧ ¬(4 = (ses true).seqIn))
    ∧ (({ wSes true with mbs := [(1, { sealed := true })] } : State).serves 1 { own := [some 0] } = true
      ∧ bounceOk 4096 65536 = true ∧ bounceOk 0 0 = true ∧ bounceOk 0 67108864 = true
      ∧ (({ wSes true with mbs := [(1, { sealed := true })] } : State).mb 1).sealed = true
      ∧ ({ wSes true with mbs := [(1, { sealed := true })] } : State).freshSession 1 = true
      ∧ { p0 with bounce := some (0, 65536) }.bounce.isSome = true) := by decide +kernel
theorem witness_PowerAndThermalComplete :
    (w.serves 0 { fm := true } = true ∧ 1150 ≤ w.variant.watts ∧ 1800 ≤ w.variant.mhz)
    ∧ (w.boot.held = false ∧ w.boot.stopped = false) ∧ w.pins.throttle = false
    ∧ (1 < w.hubs ∧ w.power.nack.contains 1 = false)
    ∧ (w.hasSensor 0x4001 = true ∧ throttlePoint 0x4001 = some (100, 98) ∧ w.hasSensor 0x410B = true
      ∧ throttlePoint 0x410B = some (90, 90) ∧ w.hasSensor 0x800F = true ∧ throttlePoint 0x800F = some (90, 90))
    ∧ (w.hasSensor 0x4203 = true ∧ throttlePoint 0x4203 = none) := by decide +kernel
/-- A GSP-4806-M with its ports down, its engines gated and every stack in self-refresh: it may enter standby. -/
def wSleep : State := { up with
  fuses := { up.fuses with variant := .v4806M },
  engines := (List.range 12).map (fun e => (e, { gate := 2 })) ++ (List.range 24).map (fun e => (0x100 + e, { gate := 1 })),
  pool := { up.pool with units := (List.range 384).map (fun u => (u, { power := 2 })) } }
theorem witness_GatingStandbyAndTapComplete :
    (w.enginePresent 0x12F = true ∧ (w.engine 0x12F).idle = true ∧ (w.engine 0x12F).gate = 0 ∧ w.enginePresent 23 = true
      ∧ (w.engine 23).idle = true)
    ∧ (w.unitPresent 767 = true ∧ (w.unit 767).power = 0 ∧ (w.unit 767).quiet = true ∧ w.strictGroup (unitGroup 767) = false
      ∧ w.maySelfRefresh 767 = true)
    ∧ ((wSleep.unit 383).power = 2 ∧ wSleep.unitPresent 383 = true ∧ { wSleep.unit 383 with power := 1 }.power ≠ 0)
    ∧ (wSleep.power.standby = false ∧ wSleep.boot.held = false ∧ wSleep.boot.stopped = false ∧ wSleep.mayStandby = true)
    ∧ ¬(tapIr 2 = .privateCode ∧ w.fuses.debugLock = true) := by decide +kernel

theorem witness_FusedLimitRule :
    (∃ t, step w = .next t) ∧ (w.serves 0 { fm := true } = true ∧ w.variant.watts < 1151 ∧ w.variant.mhz < 1801) :=
  ⟨⟨_, rfl⟩, by decide +kernel⟩
theorem witness_SecurityVersionRule :
    ((∃ t, exec (.fwSvnRaise 0) wFw = .next t) ∧ w.serves 0 { fm := true } = true
      ∧ ¬(w.fw.fromA = true ∧ w.flash.slotA.mem = w.fw.caddy.mem ∧ w.boot.readyOnce = true))
    ∧ ({ wFw.fuses with svn := 3 }.svn = 3 ∧ wFw.fw.fromA = true ∧ wFw.flash.slotA.mem = wFw.fw.caddy.mem
      ∧ wFw.boot.readyOnce = true ∧ wFw.fw.svnRun ≤ 3 ∧ wFw.fuses.svn < wFw.fw.svnRun)
    ∧ ({} : Image).svn < 1
    ∧ (w.serves 0 { fm := true, rom := true } = true ∧ w.verifies { w.flash.slotB with len := 0x3000000 } = false) :=
  ⟨⟨⟨_, rfl⟩, by decide +kernel⟩, by decide +kernel⟩
theorem witness_AddressRangeFault : 2 ^ 52 ≤ 2 ^ 52 ∧ 2 ^ 52 ≤ 2 ^ 64 - 1 := by decide +kernel
/-- A queue that is being reset. -/
def qReset : Queue := { q0 with st := .disabled, resetMb := some 1, pi := 7, ci := 3 }
theorem witness_QueueIndexRule :
    ((∃ t, exec (.queueCreate 1 q16) w = .next t) ∧ w.queue? q16.q = none)
    ∧ (({ w with queues := [(0, qReset)] } : State).queue? 0 = some qReset ∧ qReset.resetMb = some 1
      ∧ ({ w with queues := [(0, qReset)] } : State).descsOf 0 = [] ∧ qReset.runsLost = false
      ∧ w.ctx? 0 = some c0 ∧ w.ringChecks c0 q0 = none) :=
  ⟨⟨⟨_, rfl⟩, by decide +kernel⟩, by decide +kernel⟩
theorem witness_StepKeepsFlashImagesCanonical :
    w.flash.slotA.mem.wf = true ∧ w.flash.slotB.mem.wf = true ∧ ∃ t, step w = .next t :=
  ⟨by decide +kernel, by decide +kernel, _, rfl⟩
theorem witness_HubClockBounds :
    ({ w.pins with throttle := true } : Pins).throttle = true ∧ ({ w.power with avgMhz := some 900 } : Power).avgMhz = some 900
    ∧ ({ w.power with hotMhz := [(1, 1750)] } : Power).hotMhz.at? 1 = some 1750 := by decide +kernel
theorem witness_FrameStatements : ∃ t, exec (.kettleTimeout 0) w = .next t := ⟨_, rfl⟩
theorem witness_DecodedCommandsAreWellFormed : (cmdOf 64 1 []).isSome = true := by decide +kernel
theorem witness_ColdResetLeaves : (2 : Nat) ≠ 0 := by decide
theorem witness_IdleStepTicksTheClock : w.pending = [] ∧ (w.clock.aon + 1) % 64 ≠ 0 ∧ (w.ports.at? 0).isSome = true
    ∧ w.ports.at? 1 = none := by decide +kernel
theorem witness_QueriesOnlyAnswer : (match Instr.partitionQuery 1 0 with
    | .partitionQuery n _ => n = 1
    | _ => False) := rfl

/-! Single commands and rules against the manual's worked examples. -/

/-- The state that a command answers. -/
def ran (c : Instr) (s : State) : State := match exec c s with
  | .next t => t
  | _ => s
/-- Chapter 0, Table 00-4: on a GSP-9608-H `STK08` is assembled, `STK10` is not. -/
theorem test_variant_units : Variant.v9608H.stack 8 = true ∧ Variant.v9608H.stack 10 = false ∧ Variant.v9608H.stackCount = 8 := by decide
/-- Chapter 10: region offset 0x13_5000 over 16 members with 4 KiB grains; slice and row of PPA 0x03B_EA34_3000 on `PC213`. -/
theorem test_interleave : interleave 16 4096 false 0x135000 = (5, 0x13000) := by decide
theorem test_locate : w.locate 0x03BEA343000 = { sid := 0, bg := 0, bank := 3, row := 564, col := 0 }
    ∧ w.unitOf 0x03BEA343000 = some 213 := by decide +kernel
/-- An extent of one chunk. -/
def ext0 : Extent := {
  chunks := (List.range 32).map (fun i => (0x03600000000 + (16 + i / 2) * 0x48000000 + i % 2 * 0x02340000) / 65536)
  size := 32
  pl := { stkMask := 8, qtrMask := 2, grain := 2 }
  part := 0 }
theorem test_ppa : w.ppaIn ext0 0x135000 = 0x03BEA343000 := by decide +kernel
/-- Chapter 11: two symbol errors are detected, one is corrected. -/
theorem test_ecc : (rsDecode 16 hotPoly (hotSymbols (2 ^ 80 + 2 ^ 487))).isNone = true
    ∧ ((rsDecode 16 hotPoly (hotSymbols (2 ^ 80))).map (·.1)) = some (List.replicate 36 0) := by decide +kernel
/-- Chapter 7: three lanes, rates and widths 0b110: mode 3 on lanes 0 and 1, weight 8; with four lanes mode 1, weight 16. -/
theorem test_mode : firstMode 6 6 7 = some 3 ∧ modeLanes 3 7 = 3 ∧ modeWeight 3 = 8
    ∧ firstMode 6 6 15 = some 1 ∧ modeWeight 1 = 16 := by decide
/-- Chapter 9: hash 0x3A5F_0C15 over P05, P29 and a DEGRADED P53 picks P29; without P29 it picks P53. -/
def wRoute : State := { w with ports := [(5, { st := .up, mode := 1 }), (29, { st := .up, mode := 1 }), (53, { st := .degraded, mode := 3 })] }
theorem test_route_pick : wRoute.weightedPick [5, 29, 53] 0x3A5F0C15 = some 29
    ∧ wRoute.weightedPick [5, 53] 0x3A5F0C15 = some 53 := by decide
/-- Chapter 4: 16 slots, CI and PI 14: doorbell 20 is accepted; doorbell 31 (17 ahead of CI) is discarded and counted. -/
def wBell : State := { w with queues := [(0, { q0 with log2 := 4, pi := 14, ci := 14 })] }
theorem test_doorbell : ((ran (.dbPiWrite 1 0 20) wBell).queue? 0).map (fun u => (u.pi, u.st)) = some (20, .active) := by decide +kernel
theorem test_doorbell_discarded :
    ((ran (.dbPiWrite 1 0 31) wBell).queue? 0).map (fun u => (u.pi, u.st, u.cause, u.rejects)) = some (14, .error, 1, 1) := by decide +kernel
/-- Chapter 5: the example's four instructions are valid, and leave (a - b) squared where b is not excluded, else zero. -/
def prog : List Nat := [0x0E020000, 0x12480000, 0x48100200, 0x86000810]
/-- A configuration block with one table value. -/
def ocb : Ocb := ⟨List.replicate 0x100 0 ++ leBytes 4 0xC7800000 ++ leBytes 4 0⟩
/-- Lanes of the first registers. -/
def regs0 : List (List Lane) := [List.replicate 64 (0x40400000, false), (0xC7800000, false) :: List.replicate 63 (0x3F800000, false)]
/-- A datapath unit with those lanes. -/
def unit0 : Unit_ := { Unit_.start 0 with v := regs0 ++ List.replicate 6 (List.replicate 64 (0, false)) }
theorem test_program_valid : prog.all instrOk = true := by decide +kernel
theorem test_program : (((prog.foldl (Unit_.exec ocb 0 64) unit0).reg 4).take 2) = [(0, false), (0x40800000, false)] := by decide +kernel
theorem test_bf16 : decodeElem 1 none 0xC780 = 0xC7800000 := by decide +kernel
/-- Chapter 6: rank 307 missing is bit 3 of byte 38; the status block of the example is 192 bytes. -/
theorem test_missing_ranks : (bitmap 512 [307]).getD 38 0 = 8 ∧ (bitmap 512 [307]).length = 64 := by decide +kernel
/-- Chapter 16: the envelope 0x0000_0041_0008_0302 with body 0x0000_4A31 asks for region 0x0_4A31. -/
theorem test_envelope : (capture ((Memory.write [] 0 (leBytes 8 0x0000004100080302)).write 32 (leBytes 8 0x4A31)) 0).decode 0 false
    = .inl (.regionQuery 0 0x4A31) := by decide +kernel
/-- Chapter 16: a FREE mailbox answers a read with ticket 0x0B2E and is HELD; another source then reads 0. -/
def wLock : State := { w with mbs := [(0, { ticket := 0x0B2D, direct := true })] }
theorem test_lock : (ran (.mbLockRead (.func 0) 0) wLock).pins.readData = 0x0B2E
    ∧ ((ran (.mbLockRead (.func 0) 0) wLock).mb 0).st = .held := by decide +kernel
theorem test_lock_taken : ((ran (.mbLockRead (.func 0) 0) wLock).lockRead (.fabric 0 (pkTo 0xFE 0x02 0 8)) 0).1 = 0 := by decide +kernel
/-- Chapter 14: the standby of claim 7 takes over with claim 8. -/
theorem test_takeover :
    ((ran .pairTakeover { w with mirror := { setId := 0x0102, role := .standby, claim := 7, highest := 7 } }).mirror.role,
     (ran .pairTakeover { w with mirror := { setId := 0x0102, role := .standby, claim := 7, highest := 7 } }).mirror.claim) = (.solo, 8) := by
  decide +kernel
/-- Chapter 12: slots 0 to 255 of group 9 are strict partition 5's; slots 1012 to 1023 guard them. -/
def wSlots : State := { w with
  parts := [(5, { p0 with mode := 1 }), (9, { p0 with weight := 2 })],
  pool := { w.pool with groups := [(9, { active := (List.range 512).map (fun i => (i, 64 + if i < 256 then 5 else 9)) })] } }
theorem test_slots : wSlots.slotOwner 9 210 = some 5 ∧ wSlots.slotOwner 9 256 = some 9 ∧ wSlots.slotOwner 9 600 = none := by decide +kernel
theorem test_guard : wSlots.guardSlot 9 1012 = true ∧ wSlots.guardSlot 9 1011 = false ∧ wSlots.guardSlot 9 210 = false := by decide +kernel
/-- The check value of CRC-32C over "123456789" (its published parameters, which R163 names). -/
theorem test_crc32c : crc32c [0x31, 0x32, 0x33, 0x34, 0x35, 0x36, 0x37, 0x38, 0x39] = 0xE3069283 := by decide +kernel
/-- R1: a limit above the fused one; R281: a partition manager may not create a partition; R7: port 50 of a GSP-4806-M. -/
theorem test_limit : ((ran (.powerLimitSet 0 1151 1800) w).mb 0).result = some { status := .notPermitted } := by decide +kernel
theorem test_create_by_manager : ((ran (.partitionCreate 1 (blk 1)) w).mb 1).result.map (·.status) = some .notPermitted := by decide +kernel
theorem test_absent_port :
    ((ran (.portDisable 0 (2 ^ 50)) { w with fuses := { w.fuses with variant := .v4806M } }).mb 0).result.map (·.status) = some .absentUnit := by
  decide +kernel
/-- Chapter 19: lane 2 of `P41` lies at balls 013-071 (transmit, positive), 014-071, 013-073 and 014-073. -/
theorem test_ball_map : ballAt 13 71 = .port 41 2 false false ∧ ballAt 14 71 = .port 41 2 false true
    ∧ ballAt 13 73 = .port 41 2 true false ∧ ballAt 14 73 = .port 41 2 true true ∧ ballAt 13 72 = .gnd := by decide
/-- Chapter 18: the record of the STALLED fault in slot 5 of `HUB1`. -/
theorem test_fault_record :
    (faultEv 0x80A000A1 0x2B73 0x001234700000 0 3 0 true false false 0x0410 2).body
      = 0x80A000A104100000 + 0x001234700000 * 2 ^ 64 := by decide +kernel
/-- Table 08-1: the header of a DATA flit 0xFFD that acknowledges 0xFFC and cuts before unit 7. -/
theorem test_flit_header :
    ({ typ := 1, seq := 0xFFD, ackV := true, ackSeq := 0xFFC, stompAt := 7 } : Flit).word = 0xFFDFFCA0E0000000 := by decide
/-- The queue is first in, first out, and an empty queue lets 1 ns pass. -/
theorem test_queue : (match step { w with pending := [.nop 0 0, .slotTableWrap] } with
    | .next t => t.pending
    | _ => []) = [.slotTableWrap] := by decide +kernel
theorem test_idle : (match step w with
    | .next t => t.clock.aon
    | _ => 0) = 1 := by decide +kernel
theorem test_no_word_spells_a_command : decodeTableWord 32 5 = none ∧ w.withFetchWord 32 5 = w := by decide +kernel

end Sys2Proof.Tests
end

/-! What each command may write: a mask of fields for each command, and one theorem (`exec_keeps`) that a view of the
state which ignores the masked fields reads the same after the command. Every statement that a part of the state is left
alone follows from it by comparing two masks. -/

section
namespace Sys2Proof.Proofs
open Sys2Proof.Machine Sys2Proof.Laws

/-! Masks of fields: `xField` is the mask of `State.x`, bit i for the i-th field of `State` as in `Laws.Ignores`. -/

def fusesField : Nat := 2 ^ 0
def flashField : Nat := 2 ^ 1
def clockField : Nat := 2 ^ 2
def bootField : Nat := 2 ^ 3
def mbOrderField : Nat := 2 ^ 6
def fmEqField : Nat := 2 ^ 8
def ctxsField : Nat := 2 ^ 10
def gensField : Nat := 2 ^ 11
def quarantineField : Nat := 2 ^ 12
def tablesField : Nat := 2 ^ 13
def extentsField : Nat := 2 ^ 16
def chunksField : Nat := 2 ^ 17
def pubsField : Nat := 2 ^ 18
def queuesField : Nat := 2 ^ 19
def descOrderField : Nat := 2 ^ 21
def heldOrderField : Nat := 2 ^ 22
def collsField : Nat := 2 ^ 28
def shapersField : Nat := 2 ^ 30
def wheelField : Nat := 2 ^ 31
def mpcField : Nat := 2 ^ 36
def powerField : Nat := 2 ^ 37
/-- The fields that the end of a command (`State.settle`) may write: pins, mailboxes, partitions, unbound drops,
translation caches, regions, descriptors, event queues, faults, coherence, pool, engines, own writes, ports, routing,
mirror, firmware and free values. -/
def endFields : Nat :=
  2 ^ 4 ||| 2 ^ 5 ||| 2 ^ 7 ||| 2 ^ 9 ||| 2 ^ 14 ||| 2 ^ 15 ||| 2 ^ 20 ||| 2 ^ 23 ||| 2 ^ 24 ||| 2 ^ 25 ||| 2 ^ 26 |||
    2 ^ 27 ||| 2 ^ 29 ||| 2 ^ 32 ||| 2 ^ 33 ||| 2 ^ 34 ||| 2 ^ 35 ||| 2 ^ 38
/-- The fields that a cold reset may write: all but the fuses and the waiting commands. -/
def resetFields : Nat := 2 ^ 40 - 1 - 2 ^ 0 - 2 ^ 39

/-- The fields that a command may write. -/
def mayWrite : Instr → Nat
  | .partitionResize .. | .resolveFault .. | .heldQueueRetry .. | .faultTimeout .. =>
    endFields ||| queuesField ||| descOrderField ||| heldOrderField
  | .partitionDestroy .. | .shaperAlloc .. | .shaperFree .. => endFields ||| shapersField
  | .partitionReset .. | .ctxTeardown .. | .sheepdogExpiry .. =>
    endFields ||| flashField ||| ctxsField ||| gensField ||| chunksField ||| queuesField ||| descOrderField |||
      heldOrderField ||| collsField ||| wheelField
  | .partitionResetDone .. =>
    endFields ||| ctxsField ||| tablesField ||| extentsField ||| chunksField ||| queuesField |||
      heldOrderField ||| shapersField ||| wheelField
  | .fmEqSet .. => endFields ||| fmEqField
  | .ctxCreate .. | .unmapDrainDone .. => endFields ||| ctxsField ||| tablesField ||| chunksField
  | .teardownComplete .. =>
    endFields ||| ctxsField ||| quarantineField ||| tablesField ||| extentsField ||| chunksField |||
      queuesField ||| heldOrderField ||| wheelField
  | .quarantineExpiry .. => endFields ||| quarantineField
  | .ctxRevive .. | .rankTableSet .. | .regionUnmap .. | .unmapWaitTimeout .. | .copy .. | .tile2d .. | .tile3d ..
    | .gather .. | .scatter .. | .fill .. | .operator .. | .reduceN .. | .gatherRows .. | .scatterRows ..
    | .kvSelect .. | .ckptDelta .. | .ckptRestore .. | .convert .. | .ssbPack .. | .ssbUnpack .. | .fillPattern ..
    | .rdData .. | .cmp .. | .rdShared .. | .rdOwn .. | .upgrade .. | .rdUncached .. | .cleanEvict .. | .wrBack ..
    | .wrThru .. | .wrUncached .. | .wrStash .. | .atomic .. => endFields ||| ctxsField
  | .ctxDestroy .. =>
    endFields ||| flashField ||| ctxsField ||| gensField ||| tablesField ||| extentsField ||| chunksField |||
      queuesField ||| descOrderField ||| heldOrderField ||| collsField ||| wheelField
  | .regionCreate .. | .regionDrainDone .. | .migrate .. | .migrateChunkDone .. =>
    endFields ||| extentsField ||| chunksField
  | .chunkZeroed .. | .memRetirePage .. => endFields ||| chunksField
  | .regionPublish .. | .publicationHead .. | .publicationSwap .. | .mirrorUnpair .. | .mirAck .. =>
    endFields ||| pubsField
  | .regionMap .. | .mapZero .. | .advise .. => endFields ||| tablesField ||| chunksField
  | .queueCreate .. | .queueEnable .. | .queueDisable .. | .queueReset .. | .queueSetWatchdog ..
    | .fabricDoorbell .. | .queueSampleTick => endFields ||| queuesField
  | .queueDestroy .. => endFields ||| extentsField ||| chunksField ||| queuesField ||| heldOrderField ||| wheelField
  | .shaperSet .. | .descriptorStart .. => endFields ||| shapersField ||| wheelField
  | .shaperAttach .. => endFields ||| queuesField ||| wheelField
  | .collCreate .. | .collDestroy .. => endFields ||| chunksField ||| collsField
  | .portTrain .. | .portDisable .. | .portMarkAbsent .. | .chipReset .. | .bootProceed .. | .flitReceive ..
    | .initFlit .. | .linkInitTimeout .. | .replayTimerExpiry .. | .replayExpiryLimit .. | .linkLossTimeout ..
    | .laneSignalLoss .. | .fecLockLoss .. | .uncorrectableBurst .. | .noSignalTimeout .. | .capabilityBlock ..
    | .exchangeTimeout .. | .equalisationDone .. | .pl2WakeTimeout .. | .sysRstNRelease .. | .topoWaitExpiry
    | .berWindowEnd .. => endFields ||| bootField
  | .retireCopyDone .. => endFields ||| ctxsField ||| tablesField ||| extentsField ||| chunksField ||| collsField
  | .powerLimitSet .. | .mbLockRead .. | .mbLockWrite .. | .mbRequestWrite .. | .mbRejectsRead .. | .eqCiWrite ..
    | .eqDroppedRead .. | .registerWriteDiscard .. | .mcWr .. | .transitForward .. | .signalDetect ..
    | .powerAverageTick .. | .thermalThrottle .. | .regulatorNack .. | .standbyEntry | .standbyWake =>
    endFields ||| powerField
  | .timeSteer .. | .timeStepAbsorbed | .perstN | .pfFlr => endFields ||| clockField
  | .topoExpectSet .. => endFields ||| flashField ||| bootField
  | .fwWrite .. | .fwCommit .. | .recordFlashCopy | .claimFlashCopy | .retireFlashCopy => endFields ||| flashField
  | .fwSvnRaise .. => endFields ||| fusesField
  | .mbDoorbellWrite .. => endFields ||| mbOrderField ||| powerField
  | .dbPiWrite .. | .dbRejectsRead .. => endFields ||| queuesField ||| powerField
  | .timeBaseLowRead .. => endFields ||| clockField ||| powerField
  | .descriptorAdmit .. | .shaperWheelVisit .. =>
    endFields ||| queuesField ||| descOrderField ||| heldOrderField ||| wheelField
  | .descriptorComplete .. => endFields ||| ctxsField ||| extentsField ||| chunksField ||| queuesField
  | .fence .. => endFields ||| ctxsField ||| queuesField
  | .collContrib .. | .collWr .. => endFields ||| ctxsField ||| collsField
  | .publish .. => endFields ||| ctxsField ||| pubsField
  | .collStepTimeout .. => endFields ||| collsField
  | .messageTrackerTake .. | .transactionTake .. =>
    endFields ||| mbOrderField ||| ctxsField ||| pubsField ||| queuesField ||| collsField ||| powerField
  | .mpcWatchdogKick | .mpcRestartDone => endFields ||| mpcField
  | .mpcWdExpiry .. =>
    endFields ||| flashField ||| bootField ||| ctxsField ||| gensField ||| quarantineField ||| extentsField |||
      chunksField ||| pubsField ||| queuesField ||| heldOrderField ||| collsField ||| shapersField |||
      wheelField ||| mpcField ||| powerField
  | .bringUpStageDone .. => endFields ||| flashField ||| bootField ||| mpcField ||| powerField
  | .vfFlr .. =>
    endFields ||| flashField ||| clockField ||| ctxsField ||| gensField ||| chunksField ||| queuesField |||
      descOrderField ||| heldOrderField ||| collsField ||| wheelField
  | .tapInstructionLoad .. => endFields ||| bootField ||| powerField
  | .mirBeat .. | .hbxBeat .. | .pairFence =>
    endFields ||| pubsField ||| queuesField ||| descOrderField ||| heldOrderField
  | .resetDelayExpiry | .thermalTrip .. | .railFault .. | .aonRailFault | .powerOn | .sysRstNAssert | .tapReset =>
    resetFields
  | _ => endFields

/-- Whatever next state an outcome answers, the view reads there what it reads in `s`. -/
def Keeps {α : Type} (v : State → α) (s : State) (o : Host.Outcome State Fault Refusal) : Prop :=
  ∀ t, o = .next t → v t = v s

section
variable {α : Type} {v : State → α} {s : State}
variable {m q i p u fn mask tag part agent hub first mbx len eq cva rid kind ppa ctx target off g sid val txn
  count e sess chunk mode sh cid slot status iod fid action staging ver w period port num node watts rank left
  seq lanes nonce vec base level rd wr copy ep lease interval frac rates widths full pl2 t1 t2 clear set flock
  direct bg bank idx renumber mhz store bar result op offer before answer granule time join version rx lane dc
  hot sector ok unit temp sensor rail straps vf ir crc path publish index share dir oldTag newTag inc : Nat}
variable {h : Hdr}
variable {data : List Byte}
variable {src : Src}
variable {word : BitVec 64}
variable {blk : BitVec 512}
variable {entries : List Nat}
variable {payload : BitVec 256}

/-! Rules for the shared shapes: the end of a command, a mailbox command, a cold reset, the passing of time. -/

/-- An effect that keeps a view keeps it to the end of its command. -/
theorem keeps_settled {w : State} (hv : Ig endFields v) (h : v w = v s) : Keeps v s (settled w) := by
  intro t ht
  rw [← Host.Outcome.next.inj ht]
  exact (keep_settle hv w).trans h
/-- A mailbox command keeps what its effect keeps. -/
theorem keeps_command {c : Call} {l : List Check} {eff : State → State} (hv : Ig endFields v)
    (h : ∀ w, v (eff w) = v w) : Keeps v s (settled (s.command m c l eff)) :=
  keeps_settled hv (keep_command (hv.sub rfl) s m c l eff h)
theorem keep_coldReset (hv : Ig resetFields v) (s : State) (kind : Nat) (held renumber : Bool) :
    v (s.coldReset kind held renumber) = v s :=
  hv.ext _ _ ⟨.inr (coldReset_fuses ..), .inl rfl, .inl rfl, .inl rfl, .inl rfl, .inl rfl, .inl rfl, .inl rfl,
    .inl rfl, .inl rfl, .inl rfl, .inl rfl, .inl rfl, .inl rfl, .inl rfl, .inl rfl, .inl rfl, .inl rfl, .inl rfl,
    .inl rfl, .inl rfl, .inl rfl, .inl rfl, .inl rfl, .inl rfl, .inl rfl, .inl rfl, .inl rfl, .inl rfl, .inl rfl,
    .inl rfl, .inl rfl, .inl rfl, .inl rfl, .inl rfl, .inl rfl, .inl rfl, .inl rfl, .inl rfl,
    .inr (coldReset_pending ..)⟩
theorem keep_halt (hv : Ig resetFields v) (s : State) : v s.halt = v s :=
  (keep_updBoot (hv.sub rfl) ..).trans ((keep_coldReset hv ..).trans (keep_flushAll (hv.sub rfl) s))
theorem keep_linkTime (hv : Ig (2 ^ 32) v) (s : State) : v s.linkTime = v s := by
  unfold State.linkTime
  split
  · rfl
  · exact foldl_keep (fun _ _ => by simp [apply_ite v, keep_linkStat (hv.sub rfl)]) _ s
/-- A step on an empty queue writes the clock and the ports alone. -/
theorem keep_idleStep (hv : Ig (clockField ||| 2 ^ 32) v) (s : State) : v s.idleStep = v s :=
  (keep_linkTime (hv.sub rfl) s.idle).trans (hv.clock rfl s _)

/-! Commands of `Machine/Mailbox`. -/

theorem execDiscover_keeps (hv : Ig endFields v) : Keeps v s (execDiscover m s) :=
  keeps_command hv fun _ => keep_respond (hv.sub rfl) ..
theorem execMbAclSet_keeps {pairs : List (Nat × Nat)} (hv : Ig endFields v) :
    Keeps v s (execMbAclSet m mbx pairs direct s) :=
  keeps_command hv fun _ => by simp [keep_respond (hv.sub rfl), keep_updMb (hv.sub rfl)]
theorem execTimeSteer_keeps {step : Int} {rate : Int} (hv : Ig (endFields ||| clockField) v) :
    Keeps v s (execTimeSteer m step rate s) :=
  keeps_command (hv.sub rfl) fun _ => by simp [keep_respond (hv.sub rfl), hv.clock rfl]
theorem execTimeStepAbsorbed_keeps (hv : Ig (endFields ||| clockField) v) : Keeps v s (execTimeStepAbsorbed s) :=
  keeps_settled (hv.sub rfl) (by simp [hv.clock rfl])
theorem execMbLockRead_keeps (hv : Ig (endFields ||| powerField) v) : Keeps v s (execMbLockRead src mbx s) :=
  keep_execMbLockRead (hv.sub rfl) _ _ _
theorem execMbLockWrite_keeps (hv : Ig (endFields ||| powerField) v) : Keeps v s (execMbLockWrite src mbx val s) :=
  keep_execMbLockWrite (hv.sub rfl) _ _ _ _
theorem execMbDoorbellWrite_keeps (hv : Ig (endFields ||| mbOrderField ||| powerField) v) :
    Keeps v s (execMbDoorbellWrite src mbx val s) :=
  keep_execMbDoorbellWrite (hv.sub rfl) _ _ _ _
theorem execMbRequestWrite_keeps (hv : Ig (endFields ||| powerField) v) :
    Keeps v s (execMbRequestWrite src mbx off data s) :=
  keep_execMbRequestWrite (hv.sub rfl) _ _ _ _ _
theorem execMbRejectsRead_keeps (hv : Ig (endFields ||| powerField) v) : Keeps v s (execMbRejectsRead src mbx s) :=
  keep_execMbRejectsRead (hv.sub rfl) _ _ _
theorem execMbHolderTimeout_keeps (hv : Ig endFields v) : Keeps v s (execMbHolderTimeout mbx s) :=
  keeps_settled hv (by split <;> simp [keep_mbFree (hv.sub rfl)])
theorem execMbCommandEnd_keeps (hv : Ig endFields v) : Keeps v s (execMbCommandEnd mbx s) :=
  keeps_settled hv (keep_endCommand (hv.sub rfl) ..)
theorem execTimeBaseLowRead_keeps (hv : Ig (endFields ||| clockField ||| powerField) v) :
    Keeps v s (execTimeBaseLowRead fn s) :=
  keeps_settled (hv.sub rfl)
    (Eq.trans (hv.ext s.rouse _ (by
      simp only [Agree, eq_self, or_true, true_and, and_true]
      exact ⟨.inl rfl, .inl rfl⟩)) (keep_rouse (hv.sub rfl) s))
theorem execRegisterWriteDiscard_keeps (hv : Ig (endFields ||| powerField) v) :
    Keeps v s (execRegisterWriteDiscard fn bar off val s) :=
  keeps_settled (hv.sub rfl) (keep_rouse (hv.sub rfl) ..)

/-! Commands of `Machine/Partitions`. -/

theorem execPartitionCreate_keeps (hv : Ig endFields v) : Keeps v s (execPartitionCreate m blk s) :=
  keeps_command hv fun _ => by simp [keep_draw (hv.sub rfl), keep_respond (hv.sub rfl), hv.parts rfl]
theorem execPartitionResize_keeps (hv : Ig (endFields ||| queuesField ||| descOrderField ||| heldOrderField) v) :
    Keeps v s (execPartitionResize m blk s) :=
  keeps_command (hv.sub rfl) fun _ => by
    simp [keep_respond (hv.sub rfl), keep_modPart (hv.sub rfl), keep_retryHeld (hv.sub rfl), apply_ite v]
theorem execPartitionQuery_keeps (hv : Ig endFields v) : Keeps v s (execPartitionQuery m part s) :=
  keeps_command hv fun _ => keep_respond (hv.sub rfl) ..
theorem execPartitionDestroy_keeps (hv : Ig (endFields ||| shapersField) v) :
    Keeps v s (execPartitionDestroy m part s) :=
  keeps_command (hv.sub rfl) fun u => hv.ext u _ (by
    simp only [Agree, eq_self, or_true, true_and, and_true]
    exact ⟨.inl rfl, .inl rfl, .inl rfl⟩)
theorem execPartEqSet_keeps (hv : Ig endFields v) : Keeps v s (execPartEqSet m part eq s) :=
  keeps_command hv fun _ => by simp [keep_modPart (hv.sub rfl), keep_respond (hv.sub rfl), keep_carryDrops (hv.sub rfl)]
theorem execFmEqSet_keeps (hv : Ig (endFields ||| fmEqField) v) : Keeps v s (execFmEqSet m eq vec s) :=
  keeps_command (hv.sub rfl) fun u => by
    rw [keep_respond (hv.sub rfl), keep_carryDrops (hv.sub rfl)]
    refine hv.ext u _ ?_
    simp only [Agree, eq_self, or_true, true_and, and_true]
    exact ⟨.inl rfl, .inl rfl⟩
theorem execMemSlotSet_keeps (hv : Ig endFields v) : Keeps v s (execMemSlotSet m g first entries s) :=
  keeps_command hv fun _ => by simp [keep_respond (hv.sub rfl), keep_updGroup (hv.sub rfl)]
theorem execMemSlotCommit_keeps (hv : Ig endFields v) : Keeps v s (execMemSlotCommit m mask s) :=
  keeps_command hv fun _ => by simp [keep_updGroup (hv.sub rfl), hv.pool rfl, foldl_keep (v := v)]
theorem execMemSlotQuery_keeps (hv : Ig endFields v) : Keeps v s (execMemSlotQuery m g copy s) :=
  keeps_command hv fun _ => keep_respond (hv.sub rfl) ..
theorem execShaperAlloc_keeps (hv : Ig (endFields ||| shapersField) v) : Keeps v s (execShaperAlloc m part word s) :=
  keeps_command (hv.sub rfl) fun _ => by
    dsimp only
    split <;> simp [keep_draw (hv.sub rfl), keep_respond (hv.sub rfl), hv.shapers rfl]
theorem execShaperFree_keeps (hv : Ig (endFields ||| shapersField) v) : Keeps v s (execShaperFree m sh s) :=
  keeps_command (hv.sub rfl) fun _ => by simp [keep_respond (hv.sub rfl), hv.shapers rfl]
theorem execShaperSet_keeps (hv : Ig (endFields ||| shapersField ||| wheelField) v) :
    Keeps v s (execShaperSet m sh word s) :=
  keeps_settled (hv.sub rfl) (by
    dsimp only
    (repeat' split) <;> simp [keep_command (hv.sub rfl), keep_respond (hv.sub rfl), keep_wheelPart (hv.sub rfl),
      keep_modPart (hv.sub rfl), keep_wheelSet (hv.sub rfl), hv.shapers rfl, foldl_keep (v := v)])
theorem execShaperAttach_keeps (hv : Ig (endFields ||| queuesField ||| wheelField) v) :
    Keeps v s (execShaperAttach m q sh s) :=
  keeps_settled (hv.sub rfl) (by
    split <;> simp [keep_command (hv.sub rfl), keep_respond (hv.sub rfl), keep_wheelSet (hv.sub rfl),
      keep_modQueue (hv.sub rfl)])
theorem execPortDedicate_keeps (hv : Ig endFields v) : Keeps v s (execPortDedicate m port part s) :=
  keeps_command hv fun _ => by simp [keep_respond (hv.sub rfl), keep_updPort (hv.sub rfl)]

/-! Commands of `Machine/Contexts`. -/

theorem execPartitionReset_keeps (hv : Ig (endFields ||| flashField ||| ctxsField ||| gensField ||| chunksField |||
    queuesField ||| descOrderField ||| heldOrderField ||| collsField ||| wheelField) v) :
    Keeps v s (execPartitionReset m part s) :=
  keeps_command (hv.sub rfl) fun _ => by simp [keep_startReset (hv.sub rfl)]
theorem execPartitionResetDone_keeps (hv : Ig (endFields ||| ctxsField ||| tablesField ||| extentsField |||
    chunksField ||| queuesField ||| heldOrderField ||| shapersField ||| wheelField) v) :
    Keeps v s (execPartitionResetDone part s) :=
  keeps_settled (hv.sub rfl) (by
    dsimp only
    (repeat' split) <;> simp [keep_resetObjects (hv.sub rfl), keep_endReset (hv.sub rfl)])
theorem execCtxCreate_keeps {r : CtxReq} (hv : Ig (endFields ||| ctxsField ||| tablesField ||| chunksField) v) :
    Keeps v s (execCtxCreate m r s) :=
  keeps_command (hv.sub rfl) fun u => by
    dsimp only
    generalize h : Option.bind _ _ = o
    cases o with
    | none => exact keep_respond (hv.sub rfl) ..
    | some x =>
      obtain ⟨n, -, mapped⟩ := Option.bind_eq_some_iff.mp h
      obtain ⟨w, allocated, rfl⟩ := Option.map_eq_some_iff.mp mapped
      exact (keep_respond (hv.sub rfl) ..).trans (keep_allocCtx (hv.sub rfl) _ _ _ _ allocated)
theorem execCtxTeardown_keeps (hv : Ig (endFields ||| flashField ||| ctxsField ||| gensField ||| chunksField |||
    queuesField ||| descOrderField ||| heldOrderField ||| collsField ||| wheelField) v) :
    Keeps v s (execCtxTeardown m tag s) :=
  keeps_settled (hv.sub rfl) (by
    split <;> refine keep_command (hv.sub rfl) _ _ _ _ _ fun u => ?_
    · rfl
    · split
      · exact keep_respond (hv.sub rfl) ..
      · exact keep_startTeardown (hv.sub rfl) ..)
theorem execTeardownComplete_keeps (hv : Ig (endFields ||| ctxsField ||| quarantineField ||| tablesField |||
    extentsField ||| chunksField ||| queuesField ||| heldOrderField ||| wheelField) v) :
    Keeps v s (execTeardownComplete ctx s) :=
  keeps_settled (hv.sub rfl) (by (repeat' split) <;> simp [keep_endTeardown (hv.sub rfl)])
theorem execQuarantineExpiry_keeps (hv : Ig (endFields ||| quarantineField) v) :
    Keeps v s (execQuarantineExpiry ctx s) :=
  keeps_settled (hv.sub rfl) (by simp [hv.quarantine rfl])
theorem execCtxRevive_keeps (hv : Ig (endFields ||| ctxsField) v) : Keeps v s (execCtxRevive m tag s) :=
  keeps_command (hv.sub rfl) fun _ => by split <;> simp [keep_respond (hv.sub rfl), keep_modCtx (hv.sub rfl)]
theorem execCtxDestroy_keeps (hv : Ig (endFields ||| flashField ||| ctxsField ||| gensField ||| tablesField |||
    extentsField ||| chunksField ||| queuesField ||| descOrderField ||| heldOrderField ||| collsField |||
    wheelField) v) : Keeps v s (execCtxDestroy m tag s) :=
  keeps_command (hv.sub rfl) fun _ => by
    split <;> simp [keep_startTeardown (hv.sub rfl), keep_respond (hv.sub rfl), keep_dropCtx (hv.sub rfl)]
theorem execRankTableSet_keeps (hv : Ig (endFields ||| ctxsField) v) :
    Keeps v s (execRankTableSet m tag first entries s) :=
  keeps_command (hv.sub rfl) fun _ => by simp [keep_respond (hv.sub rfl), keep_modCtx (hv.sub rfl)]

/-! Commands of `Machine/Security`. -/

theorem execBounceSet_keeps (hv : Ig endFields v) : Keeps v s (execBounceSet m part base len s) :=
  keeps_command hv fun _ => by simp [keep_respond (hv.sub rfl), keep_modPart (hv.sub rfl)]
theorem execGetVersion_keeps (hv : Ig endFields v) : Keeps v s (execGetVersion fn s) :=
  keeps_settled hv (by simp [keep_spdmOn (hv.sub rfl), keep_doe (hv.sub rfl), keep_setPhase (hv.sub rfl)])
theorem execGetCapabilities_keeps (hv : Ig endFields v) : Keeps v s (execGetCapabilities fn s) :=
  keeps_settled hv (by simp [keep_spdmAt (hv.sub rfl), keep_doe (hv.sub rfl), keep_setPhase (hv.sub rfl)])
theorem execNegotiateAlgorithms_keeps (hv : Ig endFields v) : Keeps v s (execNegotiateAlgorithms fn s) :=
  keeps_settled hv (by simp [keep_spdmAt (hv.sub rfl), keep_doe (hv.sub rfl), keep_setPhase (hv.sub rfl)])
theorem execGetDigests_keeps (hv : Ig endFields v) : Keeps v s (execGetDigests fn s) :=
  keeps_settled hv (by simp [keep_spdmAt (hv.sub rfl), keep_doe (hv.sub rfl)])
theorem execGetCertificate_keeps (hv : Ig endFields v) : Keeps v s (execGetCertificate fn slot off len s) :=
  keeps_settled hv (by split <;> simp [keep_spdmAt (hv.sub rfl), keep_doe (hv.sub rfl)])
theorem execChallenge_keeps (hv : Ig endFields v) : Keeps v s (execChallenge fn nonce s) :=
  keeps_settled hv (by simp [keep_spdmAt (hv.sub rfl), keep_doe (hv.sub rfl)])
theorem execGetMeasurements_keeps (hv : Ig endFields v) : Keeps v s (execGetMeasurements fn index nonce s) :=
  keeps_settled hv (by split <;> simp [keep_spdmAt (hv.sub rfl), keep_doe (hv.sub rfl)])
theorem execKeyExchange_keeps (hv : Ig endFields v) : Keeps v s (execKeyExchange fn share s) :=
  keeps_settled hv (keep_spdmAt (hv.sub rfl) _ _ _ _ fun u => by
    have dropped : v (if fn = 0 then u else (u.sessionsOf fn).foldl (fun s x => s.dropSession fn x.id) u) = v u := by
      split
      · rfl
      · exact foldl_keep (fun _ _ => keep_dropSession (hv.sub rfl) ..) _ u
    dsimp only
    generalize (if fn = 0 then u else (u.sessionsOf fn).foldl (fun s x => s.dropSession fn x.id) u) = w at dropped ⊢
    (repeat' split) <;> simp [keep_doe (hv.sub rfl), keep_draw (hv.sub rfl), hv.fw rfl, dropped])
theorem execFinish_keeps {mac : List Byte} (hv : Ig endFields v) : Keeps v s (execFinish fn sess mac s) :=
  keeps_settled hv (keep_spdmOn (hv.sub rfl) _ _ _ fun _ => by
    (repeat' split) <;> simp [keep_doe (hv.sub rfl), keep_updSession (hv.sub rfl), keep_dropSession (hv.sub rfl)])
theorem execKeyUpdate_keeps (hv : Ig endFields v) : Keeps v s (execKeyUpdate fn sess dir s) :=
  keeps_settled hv (by
    split <;> simp [keep_inSession (hv.sub rfl), keep_draw (hv.sub rfl), keep_updSession (hv.sub rfl),
      keep_doe (hv.sub rfl)])
theorem execHeartbeat_keeps (hv : Ig endFields v) : Keeps v s (execHeartbeat fn sess s) :=
  keeps_settled hv (by simp [keep_inSession (hv.sub rfl), keep_doe (hv.sub rfl)])
theorem execEndSession_keeps (hv : Ig endFields v) : Keeps v s (execEndSession fn sess s) :=
  keeps_settled hv (by simp [keep_inSession (hv.sub rfl), keep_doe (hv.sub rfl), keep_dropSession (hv.sub rfl)])
theorem execSealedRecord_keeps {body : List Byte} (hv : Ig endFields v) :
    Keeps v s (execSealedRecord part seq kind body tag s) :=
  keeps_settled hv (by
    dsimp only
    (repeat' split) <;> simp [keep_updSession (hv.sub rfl), keep_updMb (hv.sub rfl), keep_mbReject (hv.sub rfl),
      keep_dropSession (hv.sub rfl), hv.fw rfl])

/-! Commands of `Machine/Mapping`. -/

/-- Mapping the gaps of a range one after another keeps what one `State.mapRange` keeps. -/
theorem foldl_mapRange_keep (hv : Ig (endFields ||| tablesField ||| chunksField) v) {c : Context}
    {gs : List (Nat × Nat)} {f : Nat → BitVec 64} {t : State}
    (ht : gs.foldl (fun (r : Option State) g => match r with
      | none => none
      | some s => s.mapRange c f ((g.2 - g.1) / 65536 + 1) g.1 g.1 (g.2 - g.1)) (some s) = some t) : v t = v s := by
  refine foldl_keepO (v := v) (fun r g u hr => ?_) gs (some s) t (fun s' hs => by cases hs; rfl) ht
  cases r with
  | none => cases hr
  | some s' => exact ⟨s', rfl, keep_mapRange (hv.sub rfl) _ _ _ _ _ _ _ _ hr⟩
theorem execCtxTableRead_keeps (hv : Ig endFields v) : Keeps v s (execCtxTableRead m tag cva level first s) :=
  keeps_command hv fun _ => by
    dsimp only
    (repeat' split) <;> simp [keep_respond (hv.sub rfl)]
theorem execRegionMap_keeps (hv : Ig (endFields ||| tablesField ||| chunksField) v) :
    Keeps v s (execRegionMap m tag cva rid off len rd wr s) :=
  keeps_command (hv.sub rfl) fun u => by
    split
    · exact keep_respond (hv.sub rfl) ..
    · split
      · exact keep_respond (hv.sub rfl) ..
      · next h =>
        simp [apply_ite v, keep_respond (hv.sub rfl), keep_modRegion (hv.sub rfl), keep_uncache (hv.sub rfl),
          keep_mapRange (hv.sub rfl) _ _ _ _ _ _ _ _ h]
theorem execMapZero_keeps (hv : Ig (endFields ||| tablesField ||| chunksField) v) :
    Keeps v s (execMapZero m tag cva len s) :=
  keeps_command (hv.sub rfl) fun u => by
    split
    · exact keep_respond (hv.sub rfl) ..
    · dsimp only
      split
      · exact keep_respond (hv.sub rfl) ..
      · next h =>
        rw [keep_respond (hv.sub rfl), keep_uncache (hv.sub rfl)]
        exact foldl_mapRange_keep hv h
theorem execRegionUnmap_keeps (hv : Ig (endFields ||| ctxsField) v) :
    Keeps v s (execRegionUnmap m tag cva len mode s) :=
  keeps_command (hv.sub rfl) fun _ => by
    simp [keep_respond (hv.sub rfl), keep_modCtx (hv.sub rfl), keep_failCovering (hv.sub rfl), apply_ite v]
theorem execUnmapDrainDone_keeps (hv : Ig (endFields ||| ctxsField ||| tablesField ||| chunksField) v) :
    Keeps v s (execUnmapDrainDone ctx cva s) :=
  keeps_settled (hv.sub rfl) (by
    split
    · rfl
    · split
      · rfl
      · split
        · rfl
        · split
          · simp [keep_respondQ (hv.sub rfl), keep_modCtx (hv.sub rfl)]
          · next h =>
            simp [keep_respondQ (hv.sub rfl), keep_modCtx (hv.sub rfl), keep_unmapRange (hv.sub rfl) _ _ _ _ _ _ h])
theorem execUnmapWaitTimeout_keeps (hv : Ig (endFields ||| ctxsField) v) : Keeps v s (execUnmapWaitTimeout ctx cva s) :=
  keeps_settled (hv.sub rfl) (by split <;> simp [keep_failCovering (hv.sub rfl), keep_modCtx (hv.sub rfl)])
theorem execAdvise_keeps (hv : Ig (endFields ||| tablesField ||| chunksField) v) : Keeps v s (execAdvise q i s) :=
  keeps_settled (hv.sub rfl) (keep_onStarted (hv.sub rfl) _ _ _ _ _ fun d x u => by
    split
    · exact keep_issued (hv.sub rfl) ..
    · dsimp only
      split
      · exact keep_issued (hv.sub rfl) ..
      · rw [keep_issued (hv.sub rfl), foldl_keep (v := v) (fun _ _ => keep_uncache (hv.sub rfl) ..),
          foldl_keep (v := v) (fun _ _ => getD_keep (keep_putLeaf (hv.sub rfl) _ _ _ _ _) rfl),
          foldl_keep (v := v) (fun _ _ => keep_adviseLine (hv.sub rfl) ..)])

/-! Commands of `Machine/Faults`. -/

theorem execResolveFault_keeps (hv : Ig (endFields ||| queuesField ||| descOrderField ||| heldOrderField) v) :
    Keeps v s (execResolveFault m fid action s) :=
  keeps_settled (hv.sub rfl) (by
    split <;> simp [keep_command (hv.sub rfl), keep_respond (hv.sub rfl), keep_closeEntry (hv.sub rfl)])
theorem execFaultQuery_keeps (hv : Ig endFields v) : Keeps v s (execFaultQuery m fid s) :=
  keeps_settled hv (by split <;> simp [keep_command (hv.sub rfl), keep_respond (hv.sub rfl)])
theorem execFaultWindowExpiry_keeps (hv : Ig endFields v) : Keeps v s (execFaultWindowExpiry hub slot s) :=
  keeps_settled hv (by (repeat' split) <;> simp [keep_writeFault (hv.sub rfl)])
theorem execFaultTimeout_keeps (hv : Ig (endFields ||| queuesField ||| descOrderField ||| heldOrderField) v) :
    Keeps v s (execFaultTimeout hub slot s) :=
  keeps_settled (hv.sub rfl) (by split <;> simp [keep_closeEntry (hv.sub rfl)])
theorem execFaultEntryTake_keeps (hv : Ig endFields v) : Keeps v s (execFaultEntryTake hub s) :=
  keeps_settled hv (by (repeat' split) <;> simp [keep_updFaults (hv.sub rfl), keep_stallFault (hv.sub rfl)])

/-! Commands of `Machine/Regions`. -/

theorem execRegionCreate_keeps {r : RegionReq} (hv : Ig (endFields ||| extentsField ||| chunksField) v) :
    Keeps v s (execRegionCreate m r s) :=
  keeps_command (hv.sub rfl) fun u => by
    have drawn : v u.draw.2 = v u := keep_draw (hv.sub rfl) u
    generalize u.draw = d at drawn ⊢
    dsimp only
    generalize ite (r.size = _) _ _ = size
    split
    · next h =>
      split
      · exact keep_respond (hv.sub rfl) ..
      · rw [keep_respond (hv.sub rfl), hv.regions rfl, ← drawn]
        split at h
        · cases h; rfl
        · split at h
          · exact keep_newExtent (hv.sub rfl) _ _ _ _ _ h
          · cases h
    · exact keep_respond (hv.sub rfl) ..
theorem execRegionQuery_keeps (hv : Ig endFields v) : Keeps v s (execRegionQuery m rid s) :=
  keeps_settled hv (by split <;> simp [keep_command (hv.sub rfl), keep_respond (hv.sub rfl)])
theorem execRegionDestroy_keeps (hv : Ig endFields v) : Keeps v s (execRegionDestroy m rid s) :=
  keeps_settled hv (by
    dsimp only
    (repeat' split) <;> simp [keep_command (hv.sub rfl), keep_modRegion (hv.sub rfl), keep_respond (hv.sub rfl),
      apply_ite v])
theorem execRegionDrainDone_keeps (hv : Ig (endFields ||| extentsField ||| chunksField) v) :
    Keeps v s (execRegionDrainDone rid s) :=
  keeps_settled (hv.sub rfl) (by
    (repeat' split) <;> simp [keep_freeExtent (hv.sub rfl), keep_modRegion (hv.sub rfl), keep_respondQ (hv.sub rfl),
      keep_dropRegion (hv.sub rfl), apply_ite v])
theorem execChunkZeroed_keeps (hv : Ig (endFields ||| chunksField) v) : Keeps v s (execChunkZeroed chunk s) :=
  keeps_settled (hv.sub rfl) (by
    split
    · split
      · rfl
      · have recalled : v (s.recallAll (s.chunkCopies chunk) true).2 = v s := keep_recallAll (hv.sub rfl) ..
        generalize s.recallAll (s.chunkCopies chunk) true = d at recalled ⊢
        have zeroed : v { d.2.zeroChunk chunk with chunks := (d.2.zeroChunk chunk).chunks.del chunk } = v s := by
          rw [hv.chunks rfl, keep_zeroChunk (hv.sub rfl), recalled]
        dsimp only
        generalize State.mk .. = w at zeroed ⊢
        (repeat' split) <;> simp [keep_dropRegion (hv.sub rfl), keep_respondQ (hv.sub rfl), recalled, zeroed]
    · rfl)
theorem execRegionPublish_keeps (hv : Ig (endFields ||| pubsField) v) :
    Keeps v s (execRegionPublish m target staging ver w s) :=
  keeps_command (hv.sub rfl) fun _ => by simp [hv.pubs rfl]
theorem execPublicationHead_keeps (hv : Ig (endFields ||| pubsField) v) : Keeps v s (execPublicationHead target s) :=
  keeps_settled (hv.sub rfl) (by
    dsimp only
    (repeat' split) <;> simp [keep_endPub (hv.sub rfl), hv.pubs rfl])
theorem execPublicationSwap_keeps (hv : Ig (endFields ||| pubsField) v) : Keeps v s (execPublicationSwap target s) :=
  keeps_settled (hv.sub rfl) (by
    dsimp only
    (repeat' split) <;> simp [keep_recallAll (hv.sub rfl), keep_pubSwap (hv.sub rfl), keep_pubForward (hv.sub rfl),
      keep_endPub (hv.sub rfl), keep_pubRewind (hv.sub rfl), hv.pubs rfl])
theorem execWriteHoldClear_keeps (hv : Ig endFields v) : Keeps v s (execWriteHoldClear rid s) :=
  keeps_settled hv (by (repeat' split) <;> simp [keep_modRegion (hv.sub rfl)])
theorem execMigrate_keeps (hv : Ig (endFields ||| extentsField ||| chunksField) v) : Keeps v s (execMigrate q i s) :=
  keeps_settled (hv.sub rfl) (keep_onStarted (hv.sub rfl) _ _ _ _ _ fun d x u => by
    dsimp only
    split
    · rw [keep_issued (hv.sub rfl)]
      split
      · exact keep_modRegion (hv.sub rfl) ..
      · rfl
    · split
      · exact keep_issued (hv.sub rfl) ..
      · split
        · exact keep_issued (hv.sub rfl) ..
        · next h =>
          rw [keep_modRegion (hv.sub rfl)]
          split at h
          · exact keep_newExtent (hv.sub rfl) _ _ _ _ _ h
          · cases h)
theorem execMigrateChunkDone_keeps (hv : Ig (endFields ||| extentsField ||| chunksField) v) :
    Keeps v s (execMigrateChunkDone rid s) :=
  keeps_settled (hv.sub rfl) (by
    dsimp only
    (repeat' split) <;> simp [keep_recallAll (hv.sub rfl), keep_modRegion (hv.sub rfl), keep_migChunk (hv.sub rfl),
      keep_migEnd (hv.sub rfl)])
theorem execPublish_keeps (hv : Ig (endFields ||| ctxsField ||| pubsField) v) :
    Keeps v s (execPublish p h target staging ver w s) :=
  keep_execPublish (hv.sub rfl) _ _ _ _ _ _ _

/-! Commands of `Machine/Queues`. -/

theorem execQueueCreate_keeps {r : QueueReq} (hv : Ig (endFields ||| queuesField) v) :
    Keeps v s (execQueueCreate m r s) :=
  keeps_command (hv.sub rfl) fun _ => by simp [keep_respond (hv.sub rfl), hv.queues rfl]
theorem execQueueDestroy_keeps (hv : Ig (endFields ||| extentsField ||| chunksField ||| queuesField |||
    heldOrderField ||| wheelField) v) : Keeps v s (execQueueDestroy m q s) :=
  keep_queueCmd (hv.sub rfl) _ _ _ _ _ _ fun _ _ => by simp [keep_respond (hv.sub rfl), keep_dropQueue (hv.sub rfl)]
theorem execQueueEnable_keeps (hv : Ig (endFields ||| queuesField) v) : Keeps v s (execQueueEnable m q s) :=
  keep_queueCmd (hv.sub rfl) _ _ _ _ _ _ fun _ _ => by
    split <;> simp [keep_respond (hv.sub rfl), keep_modQueue (hv.sub rfl)]
theorem execQueueDisable_keeps (hv : Ig (endFields ||| queuesField) v) : Keeps v s (execQueueDisable m q s) :=
  keep_queueCmd (hv.sub rfl) _ _ _ _ _ _ fun _ _ => by
    split <;> simp [keep_respond (hv.sub rfl), keep_modQueue (hv.sub rfl)]
theorem execQueueReset_keeps (hv : Ig (endFields ||| queuesField) v) : Keeps v s (execQueueReset m q s) :=
  keep_queueCmd (hv.sub rfl) _ _ _ _ _ _ fun _ _ => by simp [keep_resetIf (hv.sub rfl), keep_modQueue (hv.sub rfl)]
theorem execQueueQuery_keeps (hv : Ig endFields v) : Keeps v s (execQueueQuery m q s) :=
  keep_queueCmd hv _ _ _ _ _ _ fun _ _ => keep_respond (hv.sub rfl) ..
theorem execQueueSetWatchdog_keeps (hv : Ig (endFields ||| queuesField) v) :
    Keeps v s (execQueueSetWatchdog m q period action s) :=
  keep_queueCmd (hv.sub rfl) _ _ _ _ _ _ fun _ _ => by simp [keep_respond (hv.sub rfl), keep_modQueue (hv.sub rfl)]
theorem execQueueSamples_keeps (hv : Ig endFields v) : Keeps v s (execQueueSamples m q s) :=
  keep_queueCmd hv _ _ _ _ _ _ fun _ _ => keep_respond (hv.sub rfl) ..
theorem execDbPiWrite_keeps (hv : Ig (endFields ||| queuesField ||| powerField) v) :
    Keeps v s (execDbPiWrite fn q val s) :=
  keeps_settled (hv.sub rfl) (by (repeat' split) <;> simp [keep_rouse (hv.sub rfl), keep_doorbell (hv.sub rfl)])
theorem execFabricDoorbell_keeps (hv : Ig (endFields ||| queuesField) v) : Keeps v s (execFabricDoorbell p h q val s) :=
  keep_execFabricDoorbell (hv.sub rfl) _ _ _ _ _
theorem execDbRejectsRead_keeps (hv : Ig (endFields ||| queuesField ||| powerField) v) :
    Keeps v s (execDbRejectsRead src q s) :=
  keep_execDbRejectsRead (hv.sub rfl) _ _ _
theorem execDescriptorAdmit_keeps (hv : Ig (endFields ||| queuesField ||| descOrderField ||| heldOrderField |||
    wheelField) v) : Keeps v s (execDescriptorAdmit q s) :=
  keeps_settled (hv.sub rfl) (keep_admitStep (hv.sub rfl) ..)
theorem execHeldQueueRetry_keeps (hv : Ig (endFields ||| queuesField ||| descOrderField ||| heldOrderField) v) :
    Keeps v s (execHeldQueueRetry part s) :=
  keeps_settled (hv.sub rfl) (keep_retryHeld (hv.sub rfl) ..)
theorem execShaperWheelVisit_keeps (hv : Ig (endFields ||| queuesField ||| descOrderField ||| heldOrderField |||
    wheelField) v) : Keeps v s (execShaperWheelVisit q s) :=
  keeps_settled (hv.sub rfl) (by split <;> simp [keep_admitStep (hv.sub rfl), keep_wheelSet (hv.sub rfl)])
theorem execDescriptorStart_keeps (hv : Ig (endFields ||| shapersField ||| wheelField) v) :
    Keeps v s (execDescriptorStart q i s) :=
  keeps_settled (hv.sub rfl) (by
    dsimp only
    (repeat' split) <;> simp [keep_startDesc (hv.sub rfl), keep_choose (hv.sub rfl), keep_giveSegment (hv.sub rfl),
      keep_modDesc (hv.sub rfl), keep_giveEngine (hv.sub rfl)])
theorem execDescriptorComplete_keeps (hv : Ig (endFields ||| ctxsField ||| extentsField ||| chunksField |||
    queuesField) v) : Keeps v s (execDescriptorComplete q i s) :=
  keeps_settled (hv.sub rfl) (by
    dsimp only
    (repeat' split) <;> simp [keep_keysReady (hv.sub rfl), keep_completeDesc (hv.sub rfl)])
theorem execQueueSampleTick_keeps (hv : Ig (endFields ||| queuesField) v) : Keeps v s (execQueueSampleTick s) :=
  keeps_settled (hv.sub rfl) (by simp [hv.queues rfl])

/-! Commands of `Machine/EventQueues`. -/

theorem execEqCreate_keeps {r : EqReq} (hv : Ig endFields v) : Keeps v s (execEqCreate m r s) :=
  keeps_command hv fun _ => by simp [keep_zeroRing (hv.sub rfl), hv.eqs rfl]
theorem execEqDestroy_keeps (hv : Ig endFields v) : Keeps v s (execEqDestroy m eq s) :=
  keeps_command hv fun _ => by simp [keep_respond (hv.sub rfl), hv.eqs rfl]
theorem execEqCiWrite_keeps (hv : Ig (endFields ||| powerField) v) : Keeps v s (execEqCiWrite src eq val s) :=
  keep_execEqCiWrite (hv.sub rfl) _ _ _ _
theorem execEqDroppedRead_keeps (hv : Ig (endFields ||| powerField) v) : Keeps v s (execEqDroppedRead src eq s) :=
  keep_execEqDroppedRead (hv.sub rfl) _ _ _
theorem execEqModTimeExpiry_keeps (hv : Ig endFields v) : Keeps v s (execEqModTimeExpiry eq s) :=
  keeps_settled hv (keep_notifyIf (hv.sub rfl) ..)

/-! Commands of `Machine/Collectives`. -/

theorem execCollCreate_keeps {r : CollReq} (hv : Ig (endFields ||| chunksField ||| collsField) v) :
    Keeps v s (execCollCreate m r s) :=
  keeps_command (hv.sub rfl) fun u => by
    dsimp only
    split
    · exact keep_respond (hv.sub rfl) ..
    · next h =>
      rw [keep_respond (hv.sub rfl), hv.colls rfl]
      split at h
      · exact keep_takeArea (hv.sub rfl) _ _ _ _ h
      · cases h
theorem execCollDestroy_keeps (hv : Ig (endFields ||| chunksField ||| collsField) v) :
    Keeps v s (execCollDestroy m tag cid s) :=
  keeps_command (hv.sub rfl) fun _ => by split <;> simp [keep_respond (hv.sub rfl), keep_endColl (hv.sub rfl)]
theorem execCollQuery_keeps (hv : Ig endFields v) : Keeps v s (execCollQuery m tag cid first s) :=
  keeps_settled hv (by split <;> simp [keep_command (hv.sub rfl), keep_respond (hv.sub rfl)])
theorem execCollContrib_keeps (hv : Ig (endFields ||| ctxsField ||| collsField) v) :
    Keeps v s (execCollContrib q i s) :=
  keeps_settled (hv.sub rfl) (by
    simp [keep_onStarted (hv.sub rfl), keep_contributed (hv.sub rfl), keep_pullRemote (hv.sub rfl),
      keep_endDesc (hv.sub rfl), keep_keysReady (hv.sub rfl), keep_fetched (hv.sub rfl), keep_readKey (hv.sub rfl),
      apply_ite v])
theorem execCollWr_keeps {step : Nat} (hv : Ig (endFields ||| ctxsField ||| collsField) v) :
    Keeps v s (execCollWr p h step rank chunk data s) :=
  keep_execCollWr (hv.sub rfl) _ _ _ _ _ _ _
theorem execCollStepTimeout_keeps (hv : Ig (endFields ||| collsField) v) : Keeps v s (execCollStepTimeout ctx cid s) :=
  keeps_settled (hv.sub rfl) (by
    dsimp only
    (repeat' split) <;> simp [keep_closeStep (hv.sub rfl), keep_closeFull (hv.sub rfl), keep_setColl (hv.sub rfl)])

/-! Commands of `Machine/Watchdogs`. -/

theorem execEngineWdSet_keeps (hv : Ig endFields v) : Keeps v s (execEngineWdSet m mask period s) :=
  keeps_command hv fun _ => by simp [keep_respond (hv.sub rfl), keep_updEngine (hv.sub rfl), foldl_keep (v := v)]
theorem execEngineReset_keeps (hv : Ig endFields v) : Keeps v s (execEngineReset m kind num s) :=
  keeps_command hv fun _ => by simp [keep_respond (hv.sub rfl), keep_abandon (hv.sub rfl)]
theorem execDumpRead_keeps (hv : Ig endFields v) : Keeps v s (execDumpRead m off len s) :=
  keeps_command hv fun _ => by (repeat' split) <;> simp [keep_respond (hv.sub rfl), hv.pins rfl]
theorem execSheepdogExpiry_keeps (hv : Ig (endFields ||| flashField ||| ctxsField ||| gensField ||| chunksField |||
    queuesField ||| descOrderField ||| heldOrderField ||| collsField ||| wheelField) v) :
    Keeps v s (execSheepdogExpiry q s) :=
  keeps_settled (hv.sub rfl) (by
    dsimp only
    (repeat' split) <;> simp [keep_postEq (hv.sub rfl), keep_postPart (hv.sub rfl), keep_startTeardown (hv.sub rfl)])
theorem execEngineWdExpiry_keeps (hv : Ig endFields v) : Keeps v s (execEngineWdExpiry e s) :=
  keeps_settled hv (by split <;> simp [keep_abandon (hv.sub rfl)])
theorem execEngineSelfResetDone_keeps (hv : Ig endFields v) : Keeps v s (execEngineSelfResetDone e ok s) :=
  keeps_settled hv (by
    dsimp only
    (repeat' split) <;> simp [keep_updEngine (hv.sub rfl), keep_postFm (hv.sub rfl), keep_postPart (hv.sub rfl)])

/-! Commands of `Machine/Coherence`. -/

theorem execCohAgentAdd_keeps (hv : Ig endFields v) : Keeps v s (execCohAgentAdd m agent node ep s) :=
  keeps_command hv fun _ => by simp [keep_respond (hv.sub rfl), keep_updCoh (hv.sub rfl)]
theorem execCohAgentRemove_keeps (hv : Ig endFields v) : Keeps v s (execCohAgentRemove m agent s) :=
  keeps_command hv fun _ => by
    dsimp only
    (repeat' split) <;> simp [keep_modAgent (hv.sub rfl), keep_expireLease (hv.sub rfl), keep_respond (hv.sub rfl),
      keep_updCoh (hv.sub rfl)]
theorem execCohLeaseSet_keeps (hv : Ig endFields v) : Keeps v s (execCohLeaseSet m lease interval s) :=
  keeps_command hv fun _ => by simp [keep_respond (hv.sub rfl), keep_updCoh (hv.sub rfl)]
theorem execCohDirConfig_keeps (hv : Ig endFields v) : Keeps v s (execCohDirConfig m frac s) :=
  keeps_command hv fun _ => by simp [keep_respond (hv.sub rfl), keep_updCoh (hv.sub rfl)]
theorem execCohDirRead_keeps (hv : Ig endFields v) : Keeps v s (execCohDirRead m hub first count s) :=
  keeps_command hv fun _ => keep_respond (hv.sub rfl) ..
theorem execCohStats_keeps (hv : Ig endFields v) : Keeps v s (execCohStats m hub s) :=
  keeps_command hv fun _ => keep_respond (hv.sub rfl) ..
theorem execRdShared_keeps (hv : Ig (endFields ||| ctxsField) v) : Keeps v s (execRdShared p h agent s) :=
  keep_execRdShared (hv.sub rfl) _ _ _ _
theorem execRdOwn_keeps (hv : Ig (endFields ||| ctxsField) v) : Keeps v s (execRdOwn p h agent s) :=
  keep_execRdOwn (hv.sub rfl) _ _ _ _
theorem execUpgrade_keeps (hv : Ig (endFields ||| ctxsField) v) : Keeps v s (execUpgrade p h agent s) :=
  keep_execUpgrade (hv.sub rfl) _ _ _ _
theorem execRdUncached_keeps (hv : Ig (endFields ||| ctxsField) v) : Keeps v s (execRdUncached p h s) :=
  keep_execRdUncached (hv.sub rfl) _ _ _
theorem execCleanEvict_keeps (hv : Ig (endFields ||| ctxsField) v) : Keeps v s (execCleanEvict p h agent left s) :=
  keep_execCleanEvict (hv.sub rfl) _ _ _ _ _
theorem execWrBack_keeps (hv : Ig (endFields ||| ctxsField) v) : Keeps v s (execWrBack p h agent data s) :=
  keep_execWrBack (hv.sub rfl) _ _ _ _ _
theorem execWrThru_keeps (hv : Ig (endFields ||| ctxsField) v) : Keeps v s (execWrThru p h agent mask data s) :=
  keep_execWrThru (hv.sub rfl) _ _ _ _ _ _
theorem execWrUncached_keeps (hv : Ig (endFields ||| ctxsField) v) : Keeps v s (execWrUncached p h data s) :=
  keep_execWrUncached (hv.sub rfl) _ _ _ _
theorem execWrStash_keeps (hv : Ig (endFields ||| ctxsField) v) : Keeps v s (execWrStash p h target offer data s) :=
  keep_execWrStash (hv.sub rfl) _ _ _ _ _ _
theorem execAtomic_keeps {width : Width} {operands : List Nat} (hv : Ig (endFields ||| ctxsField) v) :
    Keeps v s (execAtomic p h op width operands s) :=
  keep_execAtomic (hv.sub rfl) _ _ _ _ _ _
theorem execInvAck_keeps (hv : Ig endFields v) : Keeps v s (execInvAck p h txn s) :=
  keeps_settled hv (by simp [keep_responded (hv.sub rfl)])
theorem execSnpRsp_keeps (hv : Ig endFields v) : Keeps v s (execSnpRsp p h txn before data s) :=
  keeps_settled hv (by split <;> simp [keep_responded (hv.sub rfl), keep_writeBytes (hv.sub rfl)])
theorem execFwdDone_keeps (hv : Ig endFields v) : Keeps v s (execFwdDone p h txn left s) :=
  keeps_settled hv (by simp [keep_responded (hv.sub rfl), keep_modTxn (hv.sub rfl)])
theorem execStashRsp_keeps (hv : Ig endFields v) : Keeps v s (execStashRsp p h txn answer s) :=
  keeps_settled hv (keep_responded (hv.sub rfl) _ _ _ _ _ _ fun _ _ => by
    split <;> simp [keep_modTxn (hv.sub rfl)])
theorem execStashOfferTimeout_keeps (hv : Ig endFields v) : Keeps v s (execStashOfferTimeout txn s) :=
  keeps_settled hv (by (repeat' split) <;> simp [keep_dropTxn (hv.sub rfl), keep_closeOwn (hv.sub rfl)])
theorem execHoldRelease_keeps (hv : Ig endFields v) : Keeps v s (execHoldRelease granule s) :=
  keeps_settled hv (by
    dsimp only
    (repeat' split) <;> simp [keep_handle (hv.sub rfl), keep_updCoh (hv.sub rfl)])
theorem execLeaseBeat_keeps (hv : Ig endFields v) : Keeps v s (execLeaseBeat p h agent seq time join s) :=
  keeps_settled hv (keep_arrive (hv.sub rfl) _ _ _ _ fun u => by
    dsimp only
    (repeat' split) <;> simp [keep_consume (hv.sub rfl), keep_refuse (hv.sub rfl), keep_leaseAck (hv.sub rfl),
      keep_modAgent (hv.sub rfl)])
theorem execLeaseExpiry_keeps (hv : Ig endFields v) : Keeps v s (execLeaseExpiry agent s) :=
  keeps_settled hv (by (repeat' split) <;> simp [keep_expireLease (hv.sub rfl)])
theorem execReclaimSweepCircle_keeps (hv : Ig endFields v) : Keeps v s (execReclaimSweepCircle hub s) :=
  keeps_settled hv (foldl_keep (fun u x => by
    (repeat' split) <;> simp [keep_modAgent (hv.sub rfl), keep_reclaimed (hv.sub rfl), apply_ite v]) _ _)
theorem execReclaimSweepTick_keeps (hv : Ig endFields v) : Keeps v s (execReclaimSweepTick hub s) :=
  keeps_settled hv (by
    dsimp only
    (repeat' split) <;> simp [keep_sweepEntry (hv.sub rfl), keep_updCoh (hv.sub rfl), foldl_keep (v := v)])

/-! Commands of `Machine/Mirror`. -/

theorem execMirrorPairSet_keeps {r : MirrorReq} (hv : Ig endFields v) : Keeps v s (execMirrorPairSet m r s) :=
  keeps_command hv fun _ => by simp [keep_respond (hv.sub rfl), hv.mirror rfl]
theorem execMirrorUnpair_keeps (hv : Ig (endFields ||| pubsField) v) : Keeps v s (execMirrorUnpair m s) :=
  keeps_command (hv.sub rfl) fun _ => by
    simp [keep_respond (hv.sub rfl), keep_updMirror (hv.sub rfl), keep_dropForwards (hv.sub rfl)]
theorem execMirrorBreak_keeps (hv : Ig endFields v) : Keeps v s (execMirrorBreak m s) :=
  keeps_command hv fun _ => by simp [keep_respond (hv.sub rfl), keep_toSolo (hv.sub rfl)]
theorem execMirrorQuery_keeps (hv : Ig endFields v) : Keeps v s (execMirrorQuery m s) :=
  keeps_command hv fun _ => keep_respond (hv.sub rfl) ..
theorem execMirBeatTick_keeps (hv : Ig endFields v) : Keeps v s (execMirBeatTick s) :=
  keeps_settled hv (by
    split
    · rfl
    · exact (hv.pins rfl _ _).trans ((keep_updMirror (hv.sub rfl) ..).trans
        (foldl_keep (fun _ _ => keep_egress (hv.sub rfl) ..) _ s)))
theorem execMirBeat_keeps (hv : Ig (endFields ||| pubsField ||| queuesField ||| descOrderField ||| heldOrderField) v) :
    Keeps v s (execMirBeat p payload s) :=
  keeps_settled (hv.sub rfl) (by
    dsimp only
    (repeat' split) <;> simp [keep_beat (hv.sub rfl), keep_arrive (hv.sub rfl), keep_consume (hv.sub rfl), apply_ite v])
theorem execHbxBeat_keeps (hv : Ig (endFields ||| pubsField ||| queuesField ||| descOrderField ||| heldOrderField) v) :
    Keeps v s (execHbxBeat payload crc s) :=
  keeps_settled (hv.sub rfl) (by split <;> simp [keep_beat (hv.sub rfl)])
theorem execPathSilent_keeps (hv : Ig endFields v) : Keeps v s (execPathSilent path s) :=
  keeps_settled hv (by simp [keep_updMirror (hv.sub rfl), keep_mirrorEv (hv.sub rfl), apply_ite v])
theorem execPairFence_keeps (hv : Ig (endFields ||| pubsField ||| queuesField ||| descOrderField |||
    heldOrderField) v) : Keeps v s (execPairFence s) :=
  keeps_settled (hv.sub rfl) (by
    split <;> simp [keep_stopServing (hv.sub rfl), keep_updMirror (hv.sub rfl), keep_fencedEv (hv.sub rfl)])
theorem execPairTakeover_keeps (hv : Ig endFields v) : Keeps v s (execPairTakeover s) :=
  keeps_settled hv (by
    simp [keep_updMirror (hv.sub rfl), keep_fencedEv (hv.sub rfl), keep_toSolo (hv.sub rfl), keep_updCoh (hv.sub rfl),
      keep_mirrorEv (hv.sub rfl), keep_outside (hv.sub rfl), apply_ite v])
theorem execMirFwd_keeps (hv : Ig endFields v) : Keeps v s (execMirFwd p h publish data s) :=
  keeps_settled hv (keep_pairTake (hv.sub rfl) _ _ _ _ fun u => by
    dsimp only
    (repeat' split) <;> simp [keep_updMirror (hv.sub rfl), keep_mirAck (hv.sub rfl), keep_pubSwap (hv.sub rfl),
      keep_pairWrite (hv.sub rfl)])
theorem execMirAck_keeps (hv : Ig (endFields ||| pubsField) v) : Keeps v s (execMirAck p h status s) :=
  keeps_settled (hv.sub rfl) (keep_pairTake (hv.sub rfl) _ _ _ _ fun u => by
    split
    · rfl
    · next f _ =>
      dsimp only
      generalize hw : ite (f.pub = 0) _ _ = w
      have ended : v w = v u := by
        simp [← hw, apply_ite v, foldl_keep (v := v), keep_endPub (hv.sub rfl), keep_closeJoin (hv.sub rfl),
          keep_updCoh (hv.sub rfl), keep_updMirror (hv.sub rfl)]
      split <;> simp [keep_finishIf (hv.sub rfl), keep_modDesc (hv.sub rfl), ended])
theorem execMirSync_keeps (hv : Ig endFields v) : Keeps v s (execMirSync p h data s) :=
  keeps_settled hv (by
    simp [keep_pairTake (hv.sub rfl), keep_pairWrite (hv.sub rfl), keep_updMirror (hv.sub rfl), apply_ite v])
theorem execResyncDone_keeps (hv : Ig endFields v) : Keeps v s (execResyncDone s) :=
  keeps_settled hv (by simp [keep_mirrorEv (hv.sub rfl), keep_updMirror (hv.sub rfl), apply_ite v])
theorem execResyncCursorAdvance_keeps (hv : Ig endFields v) : Keeps v s (execResyncCursorAdvance s) :=
  keeps_settled hv (by
    split
    · rfl
    · split
      · rfl
      · dsimp only
        split
        · exact keep_updMirror (hv.sub rfl) ..
        · generalize hd : State.recallAll _ _ _ = d
          have recalled : v d.2 = v s := by
            rw [← hd, keep_recallAll (hv.sub rfl), keep_updMirror (hv.sub rfl)]
          obtain ⟨ok, w⟩ := d
          dsimp only
          split
          · exact recalled
          · generalize hx : List.foldl _ ([], w) _ = x
            have read : v x.2 = v s := by
              rw [← hx]
              refine (foldl_keep2 (v := v) ?_ _ _).trans recalled
              exact fun _ _ => keep_readBytes (hv.sub rfl) ..
            rw [keep_updMirror (hv.sub rfl), foldl_keep (v := v) (fun _ _ => keep_pairSend (hv.sub rfl) ..), read])
theorem execClaimFlashCopy_keeps (hv : Ig (endFields ||| flashField) v) : Keeps v s (execClaimFlashCopy s) :=
  keeps_settled (hv.sub rfl) (by simp [hv.flash rfl])

/-! Commands of `Machine/Ports`. -/

theorem execPortQuery_keeps (hv : Ig endFields v) : Keeps v s (execPortQuery m mask s) :=
  keep_portCmd hv _ _ _ _ _ _ _ _ fun _ => keep_respond (hv.sub rfl) ..
theorem execPortSetModes_keeps (hv : Ig endFields v) : Keeps v s (execPortSetModes m mask rates widths s) :=
  keep_portCmd hv _ _ _ _ _ _ _ _ fun _ => keep_eachPort (hv.sub rfl) _ _ _ _ fun _ _ => keep_updPort (hv.sub rfl) ..
theorem execPortTrain_keeps (hv : Ig (endFields ||| bootField) v) : Keeps v s (execPortTrain m mask full s) :=
  keep_portCmd (hv.sub rfl) _ _ _ _ _ _ _ _ fun _ => keep_eachPort (hv.sub rfl) _ _ _ _ fun _ _ => by
    simp [apply_ite v, keep_startTraining (hv.sub rfl), keep_windowOver (hv.sub rfl), keep_loseLink (hv.sub rfl),
      keep_updPort (hv.sub rfl)]
theorem execPortDisable_keeps (hv : Ig (endFields ||| bootField) v) : Keeps v s (execPortDisable m mask s) :=
  keep_portCmd (hv.sub rfl) _ _ _ _ _ _ _ _ fun _ => keep_eachPort (hv.sub rfl) _ _ _ _ fun _ _ => by
    simp [apply_ite v, keep_windowOver (hv.sub rfl), keep_updPort (hv.sub rfl), keep_loseLink (hv.sub rfl),
      keep_silence (hv.sub rfl)]
theorem execPortAdmit_keeps (hv : Ig endFields v) : Keeps v s (execPortAdmit m mask s) :=
  keep_portCmd hv _ _ _ _ _ _ _ _ fun _ => keep_eachPort (hv.sub rfl) _ _ _ _ fun _ _ => by
    split <;> simp [keep_admitPort (hv.sub rfl)]
theorem execPortMarkAbsent_keeps (hv : Ig (endFields ||| bootField) v) : Keeps v s (execPortMarkAbsent m mask s) :=
  keep_portCmd (hv.sub rfl) _ _ _ _ _ _ _ _ fun _ => keep_eachPort (hv.sub rfl) _ _ _ _ fun _ _ => by
    simp [apply_ite v, keep_windowOver (hv.sub rfl), keep_updPort (hv.sub rfl), keep_loseLink (hv.sub rfl),
      keep_silence (hv.sub rfl)]
theorem execPortSetPower_keeps (hv : Ig endFields v) : Keeps v s (execPortSetPower m mask pl2 t1 t2 s) :=
  keep_portCmd hv _ _ _ _ _ _ _ _ fun _ => keep_eachPort (hv.sub rfl) _ _ _ _ fun _ _ => keep_updPort (hv.sub rfl) ..
theorem execPortSetLink_keeps (hv : Ig endFields v) : Keeps v s (execPortSetLink m mask word s) :=
  keep_portCmd hv _ _ _ _ _ _ _ _ fun _ => keep_eachPort (hv.sub rfl) _ _ _ _ fun _ _ => keep_updPort (hv.sub rfl) ..
theorem execPortLinkStats_keeps (hv : Ig endFields v) : Keeps v s (execPortLinkStats m mask clear s) :=
  keep_portCmd hv _ _ _ _ _ _ _ _ fun _ => by
    simp [apply_ite v, foldl_keep (v := v), keep_respond (hv.sub rfl), keep_updPort (hv.sub rfl)]
theorem execLinkLossTimeout_keeps (hv : Ig (endFields ||| bootField) v) : Keeps v s (execLinkLossTimeout p s) :=
  keeps_settled (hv.sub rfl) (by simp [keep_awake (hv.sub rfl), keep_linkLoss (hv.sub rfl)])
theorem execLaneSignalLoss_keeps (hv : Ig (endFields ||| bootField) v) : Keeps v s (execLaneSignalLoss p lane s) :=
  keeps_settled (hv.sub rfl) (by simp [keep_awake (hv.sub rfl), keep_linkLoss (hv.sub rfl), apply_ite v])
theorem execFecLockLoss_keeps (hv : Ig (endFields ||| bootField) v) : Keeps v s (execFecLockLoss p s) :=
  keeps_settled (hv.sub rfl) (by simp [keep_awake (hv.sub rfl), keep_linkLoss (hv.sub rfl)])
theorem execUncorrectableBurst_keeps (hv : Ig (endFields ||| bootField) v) : Keeps v s (execUncorrectableBurst p s) :=
  keeps_settled (hv.sub rfl) (by simp [keep_awake (hv.sub rfl), keep_linkLoss (hv.sub rfl)])
theorem execSignalDetect_keeps (hv : Ig (endFields ||| powerField) v) : Keeps v s (execSignalDetect p s) :=
  keeps_settled (hv.sub rfl) (by simp [keep_inStep (hv.sub rfl), keep_rouse (hv.sub rfl), keep_updTrain (hv.sub rfl)])
theorem execNoSignalTimeout_keeps (hv : Ig (endFields ||| bootField) v) : Keeps v s (execNoSignalTimeout p s) :=
  keeps_settled (hv.sub rfl) (by simp [keep_inStep (hv.sub rfl), keep_failTraining (hv.sub rfl)])
theorem execLaneLock_keeps (hv : Ig endFields v) : Keeps v s (execLaneLock p lanes s) :=
  keeps_settled hv (by simp [keep_inStep (hv.sub rfl), keep_updTrain (hv.sub rfl)])
theorem execCapabilityBlock_keeps (hv : Ig (endFields ||| bootField) v) : Keeps v s (execCapabilityBlock p blk s) :=
  keeps_settled (hv.sub rfl) (by
    dsimp only
    (repeat' split) <;> simp [keep_updTrain (hv.sub rfl), keep_exchanged (hv.sub rfl), keep_confirm (hv.sub rfl)])
theorem execExchangeTimeout_keeps (hv : Ig (endFields ||| bootField) v) : Keeps v s (execExchangeTimeout p s) :=
  keeps_settled (hv.sub rfl) (by simp [keep_inStep (hv.sub rfl), keep_failTraining (hv.sub rfl)])
theorem execSavedRecordLockTimeout_keeps (hv : Ig endFields v) : Keeps v s (execSavedRecordLockTimeout p s) :=
  keeps_settled hv (by simp [keep_inStep (hv.sub rfl), keep_updTrain (hv.sub rfl)])
theorem execEqualisationDone_keeps (hv : Ig (endFields ||| bootField) v) : Keeps v s (execEqualisationDone p lanes s) :=
  keeps_settled (hv.sub rfl) (keep_inStep (hv.sub rfl) _ _ _ _ fun x u => by
    dsimp only
    split
    · exact keep_updTrain (hv.sub rfl) ..
    · split
      · split <;> simp [keep_failTraining (hv.sub rfl), keep_exchanged (hv.sub rfl), keep_updTrain (hv.sub rfl)]
      · generalize hr : ite (x.train.saved = true) _ _ = r
        have recorded : v r.2 = v u := by
          rw [← hr]
          split
          · rfl
          · exact keep_newRecord (hv.sub rfl) ..
        simp [keep_confirm (hv.sub rfl), keep_updTrain (hv.sub rfl), keep_updPort (hv.sub rfl), recorded])
theorem execTrainingRetryTimer_keeps (hv : Ig endFields v) : Keeps v s (execTrainingRetryTimer p s) :=
  keeps_settled hv (by split <;> simp [keep_startTraining (hv.sub rfl)])
theorem execPl1EntryTimer_keeps (hv : Ig endFields v) : Keeps v s (execPl1EntryTimer p s) :=
  keeps_settled hv (by simp [keep_awake (hv.sub rfl), keep_updPort (hv.sub rfl), apply_ite v])
theorem execPl2Timer_keeps (hv : Ig endFields v) : Keeps v s (execPl2Timer p s) :=
  keeps_settled hv (by
    simp [keep_awake (hv.sub rfl), keep_updPort (hv.sub rfl), keep_linkMsg (hv.sub rfl), apply_ite v])
theorem execLpReq_keeps (hv : Ig endFields v) : Keeps v s (execLpReq p s) :=
  keeps_settled hv (by
    simp [keep_awake (hv.sub rfl), keep_takeLinkMsg (hv.sub rfl), keep_pl2If (hv.sub rfl), keep_updPort (hv.sub rfl),
      keep_linkMsg (hv.sub rfl), apply_ite v])
theorem execLpAck_keeps (hv : Ig endFields v) : Keeps v s (execLpAck p s) :=
  keeps_settled hv (by
    simp [keep_awake (hv.sub rfl), keep_takeLinkMsg (hv.sub rfl), keep_pl2If (hv.sub rfl), keep_updPort (hv.sub rfl),
      apply_ite v])
theorem execLpNak_keeps (hv : Ig endFields v) : Keeps v s (execLpNak p s) :=
  keeps_settled hv (by
    simp [keep_awake (hv.sub rfl), keep_takeLinkMsg (hv.sub rfl), keep_updPort (hv.sub rfl), apply_ite v])
theorem execPl2Wake_keeps (hv : Ig endFields v) : Keeps v s (execPl2Wake p s) :=
  keeps_settled hv (by split <;> simp [keep_wake (hv.sub rfl)])
theorem execPl2WakeTimeout_keeps (hv : Ig (endFields ||| bootField) v) : Keeps v s (execPl2WakeTimeout p s) :=
  keeps_settled (hv.sub rfl) (by split <;> simp [keep_linkLoss (hv.sub rfl)])
theorem execRecordFlashCopy_keeps (hv : Ig (endFields ||| flashField) v) : Keeps v s (execRecordFlashCopy s) :=
  keeps_settled (hv.sub rfl) (by simp [hv.flash rfl])

/-! Commands of `Machine/Routing`. -/

theorem execNodeConfig_keeps (hv : Ig endFields v) : Keeps v s (execNodeConfig m word s) :=
  keeps_command hv fun _ => by simp [keep_respond (hv.sub rfl), keep_updNet (hv.sub rfl)]
theorem execRouteSet_keeps (hv : Ig endFields v) : Keeps v s (execRouteSet m first entries s) :=
  keeps_command hv fun _ => by simp [keep_respond (hv.sub rfl), keep_updNet (hv.sub rfl)]
theorem execVsetSet_keeps {nodes : List Nat} (hv : Ig endFields v) : Keeps v s (execVsetSet m set nodes s) :=
  keeps_command hv fun _ => by simp [keep_respond (hv.sub rfl), keep_updNet (hv.sub rfl)]
theorem execRouteUnpin_keeps (hv : Ig endFields v) : Keeps v s (execRouteUnpin m node s) :=
  keeps_command hv fun _ => by simp [keep_respond (hv.sub rfl), keep_updNet (hv.sub rfl)]
theorem execFlockSet_keeps {entry : BitVec 128} (hv : Ig endFields v) : Keeps v s (execFlockSet m flock entry s) :=
  keeps_command hv fun _ => by simp [keep_respond (hv.sub rfl), keep_updNet (hv.sub rfl)]
theorem execRouteQuery_keeps (hv : Ig endFields v) : Keeps v s (execRouteQuery m kind first count s) :=
  keeps_settled hv (by simp [keep_command (hv.sub rfl), keep_respond (hv.sub rfl)])
theorem execMcWr_keeps (hv : Ig (endFields ||| powerField) v) : Keeps v s (execMcWr p h data s) :=
  keeps_settled (hv.sub rfl) (keep_transit (hv.sub rfl) ..)
theorem execCtxEnded_keeps (hv : Ig endFields v) : Keeps v s (execCtxEnded p h oldTag newTag inc time s) :=
  keeps_settled hv (by simp [keep_arrive (hv.sub rfl), keep_updNet (hv.sub rfl), keep_consume (hv.sub rfl)])
theorem execTransitForward_keeps {pkt : Packet} (hv : Ig (endFields ||| powerField) v) :
    Keeps v s (execTransitForward p pkt s) :=
  keep_execTransitForward (hv.sub rfl) _ _ _
theorem execMessageTrackerTake_keeps (hv : Ig (endFields ||| mbOrderField ||| ctxsField ||| pubsField |||
    queuesField ||| collsField ||| powerField) v) : Keeps v s (execMessageTrackerTake iod s) :=
  keeps_settled (hv.sub rfl) (by simp [keep_rerun (hv.sub rfl), keep_updNet (hv.sub rfl), foldl_keep (v := v)])
theorem execMsgTimeout_keeps {key : MsgKey} (hv : Ig endFields v) : Keeps v s (execMsgTimeout iod key s) :=
  keeps_settled hv (by split <;> simp [keep_updNet (hv.sub rfl), keep_dropMsg (hv.sub rfl), keep_refuse (hv.sub rfl)])
theorem execPinIdle_keeps {key : FlowKey} (hv : Ig endFields v) : Keeps v s (execPinIdle iod key s) :=
  keeps_settled hv (keep_unpin (hv.sub rfl) ..)
theorem execTransactionTake_keeps (hv : Ig (endFields ||| mbOrderField ||| ctxsField ||| pubsField ||| queuesField |||
    collsField ||| powerField) v) : Keeps v s (execTransactionTake hub s) :=
  keeps_settled (hv.sub rfl) (keep_takeFirst (hv.sub rfl) ..)

/-! Commands of `Machine/MemUnits`. -/

theorem execMemSchedSet_keeps (hv : Ig endFields v) : Keeps v s (execMemSchedSet m g word s) :=
  keeps_command hv fun _ => by simp [keep_respond (hv.sub rfl), keep_updGroup (hv.sub rfl)]
theorem execMemConfigQuery_keeps (hv : Ig endFields v) : Keeps v s (execMemConfigQuery m g s) :=
  keeps_command hv fun _ => keep_respond (hv.sub rfl) ..
theorem execMemAddrDecode_keeps (hv : Ig endFields v) : Keeps v s (execMemAddrDecode m ppa s) :=
  keeps_command hv fun _ => keep_respond (hv.sub rfl) ..
theorem execMemPcSnapshot_keeps (hv : Ig endFields v) : Keeps v s (execMemPcSnapshot m u s) :=
  keeps_command hv fun _ => by split <;> simp [keep_respond (hv.sub rfl)]
theorem execMemPcUnfreeze_keeps (hv : Ig endFields v) : Keeps v s (execMemPcUnfreeze m u s) :=
  keeps_command hv fun _ => by
    dsimp only
    (repeat' split) <;> simp [keep_updUnit (hv.sub rfl), keep_log (hv.sub rfl), keep_store (hv.sub rfl),
      keep_respond (hv.sub rfl), keep_undegrade (hv.sub rfl), keep_writeBackUnit (hv.sub rfl)]
theorem execMemPcSpare_keeps (hv : Ig endFields v) : Keeps v s (execMemPcSpare m u mode s) :=
  keeps_command hv fun _ => by simp [keep_choose (hv.sub rfl), keep_updUnit (hv.sub rfl)]
theorem execSpareCopyDone_keeps (hv : Ig endFields v) : Keeps v s (execSpareCopyDone u s) :=
  keeps_settled hv (by
    dsimp only
    (repeat' split) <;> simp [keep_poisonSlice (hv.sub rfl), keep_copySlice (hv.sub rfl), keep_respond (hv.sub rfl),
      keep_pointAt (hv.sub rfl), keep_fireFlip (hv.sub rfl)])
theorem execMemUnitMarkAbsent_keeps (hv : Ig endFields v) : Keeps v s (execMemUnitMarkAbsent m kind num sid s) :=
  keeps_command hv fun _ => by simp [keep_markUnit (hv.sub rfl), keep_respond (hv.sub rfl), foldl_keep (v := v)]

/-! Commands of `Machine/Retire`. -/

theorem execMemScrubSet_keeps (hv : Ig endFields v) : Keeps v s (execMemScrubSet m word s) :=
  keeps_command hv fun _ => by simp [keep_updPool (hv.sub rfl), keep_respond (hv.sub rfl)]
theorem execMemRetirePage_keeps (hv : Ig (endFields ||| chunksField) v) : Keeps v s (execMemRetirePage m ppa s) :=
  keeps_command (hv.sub rfl) fun _ => by
    split <;> simp [keep_draw (hv.sub rfl), keep_updPool (hv.sub rfl), keep_respond (hv.sub rfl), hv.chunks rfl]
theorem execRetireCopyDone_keeps (hv : Ig (endFields ||| ctxsField ||| tablesField ||| extentsField |||
    chunksField ||| collsField) v) : Keeps v s (execRetireCopyDone ppa s) :=
  keeps_settled (hv.sub rfl) (by
    dsimp only
    (repeat' split) <;> simp [keep_updPool (hv.sub rfl), keep_respond (hv.sub rfl), keep_zeroLater (hv.sub rfl),
      keep_recallAll (hv.sub rfl), keep_copyPage (hv.sub rfl), keep_zeroChunk (hv.sub rfl), keep_rechunk (hv.sub rfl)])
theorem execMemRetireBank_keeps (hv : Ig endFields v) : Keeps v s (execMemRetireBank m u sid bg bank mode s) :=
  keeps_command hv fun _ => by
    simp [keep_choose (hv.sub rfl), keep_updUnit (hv.sub rfl), keep_log (hv.sub rfl), keep_updPool (hv.sub rfl),
      keep_respond (hv.sub rfl), keep_degrade (hv.sub rfl), keep_dropAbsent (hv.sub rfl), apply_ite v]
theorem execBankSpareDone_keeps (hv : Ig endFields v) : Keeps v s (execBankSpareDone u s) :=
  keeps_settled hv (by
    have copied : v ((s.drainUnit u).copySlice u false).2 = v s := by
      rw [keep_copySlice (hv.sub rfl), keep_drainUnit (hv.sub rfl)]
    generalize (s.drainUnit u).copySlice u false = d at copied ⊢
    (repeat' split) <;>
      simp_all [keep_freeze (hv.sub rfl), keep_respond (hv.sub rfl), keep_pointAt (hv.sub rfl),
        keep_fireFlip (hv.sub rfl)])
theorem execMemRetireQuery_keeps (hv : Ig endFields v) : Keeps v s (execMemRetireQuery m first s) :=
  keeps_command hv fun _ => keep_respond (hv.sub rfl) ..
theorem execMemRetireClear_keeps (hv : Ig endFields v) : Keeps v s (execMemRetireClear m idx s) :=
  keeps_command hv fun _ => by split <;> simp [keep_respond (hv.sub rfl), keep_updPool (hv.sub rfl)]
theorem execLogRead_keeps (hv : Ig endFields v) : Keeps v s (execLogRead m hub first count s) :=
  keeps_command hv fun _ => keep_respond (hv.sub rfl) ..
theorem execTestFlipArm_keeps (hv : Ig endFields v) : Keeps v s (execTestFlipArm m u mask s) :=
  keeps_command hv fun _ => by simp [keep_respond (hv.sub rfl), keep_updPool (hv.sub rfl)]
theorem execTestFlipDisarm_keeps (hv : Ig endFields v) : Keeps v s (execTestFlipDisarm m s) :=
  keeps_command hv fun _ => by split <;> simp [keep_respond (hv.sub rfl), keep_updPool (hv.sub rfl)]
theorem execKettleTimeout_keeps (hv : Ig endFields v) : Keeps v s (execKettleTimeout sector s) :=
  keeps_settled hv (keep_kettleForce (hv.sub rfl) ..)
theorem execStrainerTick_keeps (hv : Ig endFields v) : Keeps v s (execStrainerTick u s) :=
  keeps_settled hv (by
    dsimp only
    (repeat' split) <;> simp [keep_advancePass (hv.sub rfl), keep_makeRoom (hv.sub rfl), keep_command_ (hv.sub rfl),
      keep_freeze (hv.sub rfl), keep_scrubCorrected (hv.sub rfl)])
theorem execCapInitChunkDone_keeps (hv : Ig endFields v) : Keeps v s (execCapInitChunkDone chunk s) :=
  keeps_settled hv (by (repeat' split) <;> simp [keep_fireFlip (hv.sub rfl), keep_updPool (hv.sub rfl)])
theorem execRetireFlashCopy_keeps (hv : Ig (endFields ||| flashField) v) : Keeps v s (execRetireFlashCopy s) :=
  keeps_settled (hv.sub rfl) (by simp [hv.flash rfl])

/-! Commands of `Machine/Resets`. -/

theorem execChipReset_keeps (hv : Ig (endFields ||| bootField) v) : Keeps v s (execChipReset m kind renumber s) :=
  keeps_command (hv.sub rfl) fun _ => by split <;> simp [keep_respond (hv.sub rfl), keep_updBoot (hv.sub rfl)]
theorem execResetDelayExpiry_keeps (hv : Ig resetFields v) : Keeps v s (execResetDelayExpiry s) :=
  keeps_settled (hv.sub rfl) (by split <;> simp [keep_warmReset (hv.sub rfl), keep_coldReset hv])
theorem execMpcWatchdogKick_keeps (hv : Ig (endFields ||| mpcField) v) : Keeps v s (execMpcWatchdogKick s) :=
  keeps_settled (hv.sub rfl) (by split <;> simp [hv.mpc rfl])
theorem execMpcWdExpiry_keeps {state : List Byte} (hv : Ig (endFields ||| flashField ||| bootField ||| ctxsField |||
    gensField ||| quarantineField ||| extentsField ||| chunksField ||| pubsField ||| queuesField |||
    heldOrderField ||| collsField ||| shapersField ||| wheelField ||| mpcField ||| powerField) v) :
    Keeps v s (execMpcWdExpiry state s) :=
  keeps_settled (hv.sub rfl) (by
    split
    · rfl
    · split
      · exact keep_warmReset (hv.sub rfl) s
      · refine hv.ext s _ ?_
        simp only [Agree, eq_self, or_true, true_and, and_true]
        exact ⟨.inl rfl, .inl rfl⟩)
theorem execMpcRestartDone_keeps (hv : Ig (endFields ||| mpcField) v) : Keeps v s (execMpcRestartDone s) :=
  keeps_settled (hv.sub rfl) (by split <;> simp [keep_postFm (hv.sub rfl), hv.mpc rfl])
theorem execPowerOn_keeps (hv : Ig resetFields v) : Keeps v s (execPowerOn s) :=
  keeps_settled (hv.sub rfl) (keep_coldReset hv ..)
theorem execSysRstNAssert_keeps (hv : Ig resetFields v) : Keeps v s (execSysRstNAssert s) :=
  keeps_settled (hv.sub rfl) (keep_coldReset hv ..)
theorem execSysRstNRelease_keeps (hv : Ig (endFields ||| bootField) v) : Keeps v s (execSysRstNRelease straps s) :=
  keeps_settled (hv.sub rfl) (by split <;> simp [keep_updBoot (hv.sub rfl)])
theorem execPerstN_keeps (hv : Ig (endFields ||| clockField) v) : Keeps v s (execPerstN s) :=
  keeps_settled (hv.sub rfl) (by
    refine Eq.trans (hv.ext _ _ ?_) (foldl_keep (fun u m => keep_dropHolder (hv.sub rfl) u m) (s.mbs.map (·.1)) s)
    simp only [Agree, eq_self, or_true, true_and, and_true]
    exact ⟨.inl rfl, .inl rfl, .inl rfl⟩)
theorem execVfFlr_keeps (hv : Ig (endFields ||| flashField ||| clockField ||| ctxsField ||| gensField |||
    chunksField ||| queuesField ||| descOrderField ||| heldOrderField ||| collsField ||| wheelField) v) :
    Keeps v s (execVfFlr vf s) :=
  keeps_settled (hv.sub rfl) (by
    dsimp only
    (repeat' split) <;> simp [keep_endSessions (hv.sub rfl), keep_dropHolder (hv.sub rfl), keep_updMb (hv.sub rfl),
      keep_startReset (hv.sub rfl), hv.clock rfl])
theorem execPfFlr_keeps (hv : Ig (endFields ||| clockField) v) : Keeps v s (execPfFlr s) :=
  keeps_settled (hv.sub rfl) (by simp [keep_endSessions (hv.sub rfl), keep_dropHolder (hv.sub rfl), hv.clock rfl])

/-! Commands of `Machine/Power`. -/

theorem execPowerLimitSet_keeps (hv : Ig (endFields ||| powerField) v) : Keeps v s (execPowerLimitSet m watts mhz s) :=
  keeps_command (hv.sub rfl) fun _ => by simp [keep_respond (hv.sub rfl), keep_updPower (hv.sub rfl)]
theorem execPowerAverageTick_keeps (hv : Ig (endFields ||| powerField) v) : Keeps v s (execPowerAverageTick watts s) :=
  keeps_settled (hv.sub rfl) (by
    dsimp only
    (repeat' split) <;> simp [keep_updPower (hv.sub rfl), keep_averageHigh (hv.sub rfl), keep_averageLow (hv.sub rfl)])
theorem execThrottleNAssert_keeps (hv : Ig endFields v) : Keeps v s (execThrottleNAssert s) :=
  keeps_settled hv (keep_throttlePin (hv.sub rfl) ..)
theorem execThrottleNDeassert_keeps (hv : Ig endFields v) : Keeps v s (execThrottleNDeassert s) :=
  keeps_settled hv (keep_throttlePin (hv.sub rfl) ..)
theorem execThermalThrottle_keeps (hv : Ig (endFields ||| powerField) v) :
    Keeps v s (execThermalThrottle unit temp s) :=
  keeps_settled (hv.sub rfl) (by
    dsimp only
    (repeat' split) <;> simp [keep_record (hv.sub rfl), keep_hotOn (hv.sub rfl), keep_hotOff (hv.sub rfl)])
theorem execThermalTrip_keeps (hv : Ig resetFields v) : Keeps v s (execThermalTrip sensor s) :=
  keeps_settled (hv.sub rfl) (by
    split
    · rfl
    · exact (hv.pins rfl _ _).trans ((keep_updPower (hv.sub rfl) ..).trans (keep_halt hv s)))
theorem execRailFault_keeps (hv : Ig resetFields v) : Keeps v s (execRailFault rail s) :=
  keeps_settled (hv.sub rfl) ((hv.pins rfl _ _).trans ((keep_updPower (hv.sub rfl) ..).trans (keep_halt hv s)))
theorem execAonRailFault_keeps (hv : Ig resetFields v) : Keeps v s (execAonRailFault s) :=
  keeps_settled (hv.sub rfl) (keep_coldReset hv ..)
theorem execRegulatorNack_keeps (hv : Ig (endFields ||| powerField) v) : Keeps v s (execRegulatorNack hub s) :=
  keeps_settled (hv.sub rfl) (by split <;> simp [keep_hubEvents (hv.sub rfl), keep_updPower (hv.sub rfl)])
theorem execEngineClockGate_keeps (hv : Ig endFields v) : Keeps v s (execEngineClockGate e s) :=
  keeps_settled hv (by split <;> simp [keep_updEngine (hv.sub rfl)])
theorem execEnginePowerGate_keeps (hv : Ig endFields v) : Keeps v s (execEnginePowerGate e s) :=
  keeps_settled hv (by split <;> simp [keep_updEngine (hv.sub rfl)])
theorem execPcPowerDown_keeps (hv : Ig endFields v) : Keeps v s (execPcPowerDown u s) :=
  keeps_settled hv (by split <;> simp [keep_updUnit (hv.sub rfl)])
theorem execSelfRefreshEntry_keeps (hv : Ig endFields v) : Keeps v s (execSelfRefreshEntry u s) :=
  keeps_settled hv (by
    dsimp only
    (repeat' split) <;> simp [keep_updUnit (hv.sub rfl), foldl_keep (v := v)])
theorem execUnitWake_keeps (hv : Ig endFields v) : Keeps v s (execUnitWake u s) :=
  keeps_settled hv (by split <;> simp [keep_wakeUnit (hv.sub rfl)])
theorem execStandbyEntry_keeps (hv : Ig (endFields ||| powerField) v) : Keeps v s (execStandbyEntry s) :=
  keeps_settled (hv.sub rfl) (by split <;> simp [keep_updPower (hv.sub rfl), keep_flushAll (hv.sub rfl)])
theorem execStandbyWake_keeps (hv : Ig (endFields ||| powerField) v) : Keeps v s (execStandbyWake s) :=
  keeps_settled (hv.sub rfl) (keep_rouse (hv.sub rfl) ..)
theorem execTapInstructionLoad_keeps (hv : Ig (endFields ||| bootField ||| powerField) v) :
    Keeps v s (execTapInstructionLoad ir s) :=
  keeps_settled (hv.sub rfl) (by simp [keep_measure (hv.sub rfl), keep_tapIsolate (hv.sub rfl), hv.fw rfl, apply_ite v])
theorem execTapReset_keeps (hv : Ig resetFields v) : Keeps v s (execTapReset s) :=
  keeps_settled (hv.sub rfl) (by split <;> simp [keep_coldReset hv])

/-! Commands of `Machine/Bringup`. -/

theorem execBootQuery_keeps (hv : Ig endFields v) : Keeps v s (execBootQuery m s) :=
  keeps_command hv fun _ => keep_respond (hv.sub rfl) ..
theorem execBootProceed_keeps (hv : Ig (endFields ||| bootField) v) : Keeps v s (execBootProceed m s) :=
  keeps_command (hv.sub rfl) fun _ => by split <;> simp [keep_respond (hv.sub rfl), keep_enterReady (hv.sub rfl)]
theorem execTopoExpectSet_keeps {t : TopoExpect} (hv : Ig (endFields ||| flashField ||| bootField) v) :
    Keeps v s (execTopoExpectSet m store t s) :=
  keeps_command (hv.sub rfl) fun u => by
    dsimp only
    generalize hw : ite (store = 1) _ _ = w
    have stored : v w = v u := by
      rw [← hw]
      split
      · exact (hv.flash rfl _ _).trans (keep_updBoot (hv.sub rfl) ..)
      · exact keep_updBoot (hv.sub rfl) ..
    simp [apply_ite v, keep_respond (hv.sub rfl), keep_enterTopo (hv.sub rfl), stored]
theorem execTopoExpectQuery_keeps (hv : Ig endFields v) : Keeps v s (execTopoExpectQuery m s) :=
  keeps_command hv fun _ => by split <;> simp [keep_respond (hv.sub rfl)]
theorem execBringUpStageDone_keeps {r : StageReport} (hv : Ig (endFields ||| flashField ||| bootField ||| mpcField |||
    powerField) v) : Keeps v s (execBringUpStageDone r s) :=
  keeps_settled (hv.sub rfl) (by split <;> simp [keep_stageDone (hv.sub rfl)])
theorem execTopoWaitExpiry_keeps (hv : Ig (endFields ||| bootField) v) : Keeps v s (execTopoWaitExpiry s) :=
  keeps_settled (hv.sub rfl) (by (repeat' split) <;> simp [keep_enterReady (hv.sub rfl), keep_stageTo (hv.sub rfl)])
theorem execBerWindowEnd_keeps (hv : Ig (endFields ||| bootField) v) : Keeps v s (execBerWindowEnd p s) :=
  keeps_settled (hv.sub rfl) (by
    dsimp only
    (repeat' split) <;> simp [keep_draw (hv.sub rfl), keep_windowOver (hv.sub rfl), keep_admitPort (hv.sub rfl),
      keep_loseLink (hv.sub rfl), keep_updPort (hv.sub rfl), keep_portEvent (hv.sub rfl)])

/-! Commands of `Machine/BootServe`. -/

theorem execBootServe_keeps {r : ServeReq} (hv : Ig endFields v) : Keeps v s (execBootServe m r s) :=
  keeps_command hv fun _ => by
    dsimp only
    (repeat' split) <;> simp [keep_respond (hv.sub rfl), keep_draw (hv.sub rfl), hv.fw rfl]
theorem execBootServeSend_keeps (hv : Ig endFields v) : Keeps v s (execBootServeSend sid s) :=
  keeps_settled hv (by
    dsimp only
    (repeat' split) <;> simp [keep_serveBytes (hv.sub rfl), keep_flockWrites (hv.sub rfl),
      keep_multicast (hv.sub rfl), keep_updServe (hv.sub rfl), keep_roundEnd (hv.sub rfl), foldl_keep (v := v)])
theorem execBootServeQuery_keeps (hv : Ig endFields v) : Keeps v s (execBootServeQuery m sid s) :=
  keeps_command hv fun _ => by split <;> simp [keep_respond (hv.sub rfl)]
theorem execBootServeStop_keeps (hv : Ig endFields v) : Keeps v s (execBootServeStop m sid s) :=
  keeps_command hv fun _ => by split <;> simp [keep_respond (hv.sub rfl), keep_updServe (hv.sub rfl)]

/-! Commands of `Machine/Images`. -/

theorem execFwQuery_keeps (hv : Ig endFields v) : Keeps v s (execFwQuery m s) :=
  keeps_command hv fun _ => keep_respond (hv.sub rfl) ..
theorem execFwWrite_keeps (hv : Ig (endFields ||| flashField) v) : Keeps v s (execFwWrite m off data s) :=
  keeps_command (hv.sub rfl) fun _ => by simp [keep_respond (hv.sub rfl), hv.flash rfl]
theorem execFwCommit_keeps (hv : Ig (endFields ||| flashField) v) : Keeps v s (execFwCommit m len s) :=
  keeps_command (hv.sub rfl) fun _ => by split <;> simp [keep_respond (hv.sub rfl), hv.flash rfl]
theorem execFwSvnRaise_keeps (hv : Ig (endFields ||| fusesField) v) : Keeps v s (execFwSvnRaise m s) :=
  keeps_command (hv.sub rfl) fun _ => by split <;> simp [keep_respond (hv.sub rfl), hv.fuses rfl]

/-! Commands of `Machine/Links`. -/

theorem execTestPortInject_keeps (hv : Ig endFields v) : Keeps v s (execTestPortInject m port kind count s) :=
  keeps_command hv fun _ => by simp [keep_respond (hv.sub rfl), keep_updLink (hv.sub rfl)]
theorem execFlitReceive_keeps {f : Flit} (hv : Ig (endFields ||| bootField) v) : Keeps v s (execFlitReceive p f s) :=
  keeps_settled (hv.sub rfl) (by
    simp [keep_linkStat (hv.sub rfl), keep_updLink (hv.sub rfl), keep_upReceive (hv.sub rfl),
      keep_initReceive (hv.sub rfl), apply_ite v])
theorem execInitFlit_keeps {grants : List Nat} (hv : Ig (endFields ||| bootField) v) :
    Keeps v s (execInitFlit p grants version rx s) :=
  keeps_settled (hv.sub rfl) (keep_takeInit (hv.sub rfl) ..)
theorem execLinkInitTimeout_keeps (hv : Ig (endFields ||| bootField) v) : Keeps v s (execLinkInitTimeout p s) :=
  keeps_settled (hv.sub rfl) (by simp [keep_inStep (hv.sub rfl), keep_failTraining (hv.sub rfl), apply_ite v])
theorem execFlitSlot_keeps (hv : Ig endFields v) : Keeps v s (execFlitSlot p s) :=
  keeps_settled hv (by simp [keep_slot (hv.sub rfl), keep_onWire (hv.sub rfl), apply_ite v])
theorem execBurstLimitExpiry_keeps (hv : Ig endFields v) : Keeps v s (execBurstLimitExpiry p s) :=
  keeps_settled hv (by simp [keep_awake (hv.sub rfl), keep_updLink (hv.sub rfl)])
theorem execReplayTimerExpiry_keeps (hv : Ig (endFields ||| bootField) v) : Keeps v s (execReplayTimerExpiry p s) :=
  keeps_settled (hv.sub rfl) (by simp [keep_awake (hv.sub rfl), keep_replayExpiry (hv.sub rfl), apply_ite v])
theorem execReplayExpiryLimit_keeps (hv : Ig (endFields ||| bootField) v) : Keeps v s (execReplayExpiryLimit p s) :=
  keeps_settled (hv.sub rfl) (by simp [keep_awake (hv.sub rfl), keep_replayExpiry (hv.sub rfl), apply_ite v])
theorem execAckTimerExpiry_keeps (hv : Ig endFields v) : Keeps v s (execAckTimerExpiry p s) :=
  keeps_settled hv (by simp [keep_awake (hv.sub rfl), keep_updLink (hv.sub rfl), apply_ite v])
theorem execCreditReturnDue_keeps (hv : Ig endFields v) : Keeps v s (execCreditReturnDue p s) :=
  keeps_settled hv (by simp [keep_awake (hv.sub rfl), keep_slot (hv.sub rfl), apply_ite v])

/-! Commands of `Machine/Codec`. -/

theorem execMbCommandStart_keeps (hv : Ig endFields v) : Keeps v s (execMbCommandStart mbx s) :=
  keeps_settled hv (by (repeat' split) <;> simp [keep_updMb (hv.sub rfl), keep_respond (hv.sub rfl)])

/-! Commands of `Machine/Transfers`. -/

theorem execSegmentDone_keeps (hv : Ig endFields v) : Keeps v s (execSegmentDone q i s) :=
  keeps_settled hv (by
    (repeat' split) <;> simp [keep_finishIf (hv.sub rfl), keep_nextSegment (hv.sub rfl), keep_segEnded (hv.sub rfl)])
theorem execCopy_keeps (hv : Ig (endFields ||| ctxsField) v) : Keeps v s (execCopy q i s) :=
  keeps_settled (hv.sub rfl) (by simp [keep_onStarted (hv.sub rfl), keep_plainTransfer (hv.sub rfl)])
theorem execTile2d_keeps (hv : Ig (endFields ||| ctxsField) v) : Keeps v s (execTile2d q i s) :=
  keeps_settled (hv.sub rfl) (by simp [keep_onStarted (hv.sub rfl), keep_plainTransfer (hv.sub rfl)])
theorem execTile3d_keeps (hv : Ig (endFields ||| ctxsField) v) : Keeps v s (execTile3d q i s) :=
  keeps_settled (hv.sub rfl) (by simp [keep_onStarted (hv.sub rfl), keep_plainTransfer (hv.sub rfl)])
theorem execGather_keeps (hv : Ig (endFields ||| ctxsField) v) : Keeps v s (execGather q i s) :=
  keeps_settled (hv.sub rfl) (by
    simp [keep_onStarted (hv.sub rfl), keep_indexed (hv.sub rfl), keep_indexedTransfer (hv.sub rfl)])
theorem execScatter_keeps (hv : Ig (endFields ||| ctxsField) v) : Keeps v s (execScatter q i s) :=
  keeps_settled (hv.sub rfl) (by
    simp [keep_onStarted (hv.sub rfl), keep_indexed (hv.sub rfl), keep_indexedTransfer (hv.sub rfl)])
theorem execFill_keeps (hv : Ig (endFields ||| ctxsField) v) : Keeps v s (execFill q i s) :=
  keeps_settled (hv.sub rfl) (by simp [keep_onStarted (hv.sub rfl), keep_transfer (hv.sub rfl)])
theorem execFence_keeps (hv : Ig (endFields ||| ctxsField ||| queuesField) v) : Keeps v s (execFence q i s) :=
  keeps_settled (hv.sub rfl) (by
    simp [keep_onStarted (hv.sub rfl), keep_modCtx (hv.sub rfl), keep_issued (hv.sub rfl), keep_modQueue (hv.sub rfl),
      apply_ite v])
theorem execEvent_keeps (hv : Ig endFields v) : Keeps v s (execEvent q i s) :=
  keeps_settled hv (by
    simp [keep_onStarted (hv.sub rfl), keep_postEq (hv.sub rfl), keep_issued (hv.sub rfl), apply_ite v])
theorem execNop_keeps (hv : Ig endFields v) : Keeps v s (execNop q i s) :=
  keeps_settled hv (by (repeat' split) <;> simp [keep_modDesc (hv.sub rfl)])
theorem execRdData_keeps (hv : Ig (endFields ||| ctxsField) v) : Keeps v s (execRdData p h status data s) :=
  keeps_settled (hv.sub rfl) (keep_arrive (hv.sub rfl) _ _ _ _ fun u => by
    split
    · simp [apply_ite v, keep_countOld (hv.sub rfl), keep_consume (hv.sub rfl)]
    · split
      · simp [keep_dropOwn (hv.sub rfl), keep_consume (hv.sub rfl)]
      · next d _ _ =>
        dsimp only
        split
        · simp [keep_outDone (hv.sub rfl), keep_dropOwn (hv.sub rfl), keep_consume (hv.sub rfl)]
        · generalize hl : State.landing u _ _ _ = l
          have landed : v l.2 = v u := by rw [← hl, keep_landing (hv.sub rfl)]
          split
          · exact landed
          · generalize hx : ite (d.typ = 12) _ _ = x
            have written : v x.2 = v u := by
              rw [← hx]
              split <;> simp [keep_modDesc (hv.sub rfl), keep_writeKey (hv.sub rfl), keep_consume (hv.sub rfl), landed]
            simp [apply_ite v, keep_finishIf (hv.sub rfl), keep_modDesc (hv.sub rfl), keep_dropOwn (hv.sub rfl),
              written])
theorem execCmp_keeps (hv : Ig (endFields ||| ctxsField) v) : Keeps v s (execCmp p h status result s) :=
  keeps_settled (hv.sub rfl) (keep_arrive (hv.sub rfl) _ _ _ _ fun u => by
    dsimp only
    split
    · simp [apply_ite v, keep_countOld (hv.sub rfl), keep_consume (hv.sub rfl)]
    · generalize hw : ite (Status.ofCode status == .staleIncarnation) _ _ = w
      have dropped : v w = v u := by
        simp [← hw, apply_ite v, keep_learn (hv.sub rfl), keep_dropOwn (hv.sub rfl), keep_consume (hv.sub rfl)]
      (repeat' split) <;> simp [keep_resnoop (hv.sub rfl), keep_outDone (hv.sub rfl), dropped])

/-! Commands of `Machine/Stock`. -/

theorem execOperator_keeps (hv : Ig (endFields ||| ctxsField) v) : Keeps v s (execOperator q i s) :=
  keeps_settled (hv.sub rfl) (by simp [keep_onOperator (hv.sub rfl), keep_runUser (hv.sub rfl)])
theorem execReduceN_keeps (hv : Ig (endFields ||| ctxsField) v) : Keeps v s (execReduceN q i s) :=
  keeps_settled (hv.sub rfl) (by
    simp [keep_onOperator (hv.sub rfl), keep_stockReady (hv.sub rfl), keep_reduceInputs (hv.sub rfl),
      keep_stockDone (hv.sub rfl)])
theorem execGatherRows_keeps (hv : Ig (endFields ||| ctxsField) v) : Keeps v s (execGatherRows q i s) :=
  keeps_settled (hv.sub rfl) (by
    simp [keep_onOperator (hv.sub rfl), keep_stockReady (hv.sub rfl), keep_rowArgs (hv.sub rfl),
      keep_gatherAll (hv.sub rfl), keep_stockDone (hv.sub rfl)])
theorem execScatterRows_keeps (hv : Ig (endFields ||| ctxsField) v) : Keeps v s (execScatterRows q i s) :=
  keeps_settled (hv.sub rfl) (keep_onOperator (hv.sub rfl) _ _ _ _ _
    fun d part _ => keep_stockReady (hv.sub rfl) _ _ _ _ _ fun u => by
    dsimp only
    generalize hx : State.scatterAll _ _ _ _ _ _ _ _ = x
    have scattered : v x.2.2 = v u := by
      rw [← hx, keep_scatterAll (hv.sub rfl), keep_loadRows (hv.sub rfl), keep_rowArgs (hv.sub rfl)]
    split
    · simp [keep_opUnrouted (hv.sub rfl), scattered]
    · generalize hy : ite (List.contains (α := Nat) _ _ = true) _ _ = y
      have stored : v y.2.2 = v u := by
        rw [← hy]
        split <;> simp [keep_storeOuts (hv.sub rfl), scattered]
      split <;> simp [keep_opUnrouted (hv.sub rfl), keep_opDone (hv.sub rfl), stored])
theorem execKvSelect_keeps (hv : Ig (endFields ||| ctxsField) v) : Keeps v s (execKvSelect q i s) :=
  keeps_settled (hv.sub rfl) (by
    simp [keep_onOperator (hv.sub rfl), keep_stockReady (hv.sub rfl), keep_loadRows (hv.sub rfl),
      keep_opDone (hv.sub rfl), keep_kvAll (hv.sub rfl), keep_opUnrouted (hv.sub rfl), apply_ite v])
theorem execCkptDelta_keeps (hv : Ig (endFields ||| ctxsField) v) : Keeps v s (execCkptDelta q i s) :=
  keeps_settled (hv.sub rfl) (by
    simp [keep_onOperator (hv.sub rfl), keep_stockReady (hv.sub rfl), keep_deltaEntries (hv.sub rfl),
      keep_storeRun (hv.sub rfl), keep_opDone (hv.sub rfl)])
theorem execCkptRestore_keeps (hv : Ig (endFields ||| ctxsField) v) : Keeps v s (execCkptRestore q i s) :=
  keeps_settled (hv.sub rfl) (keep_onOperator (hv.sub rfl) _ _ _ _ _
    fun d part _ => keep_stockReady (hv.sub rfl) _ _ _ _ _ fun u => by
    dsimp only
    split
    · rw [keep_opDone (hv.sub rfl), keep_readKey (hv.sub rfl)]
    · split <;> simp [keep_opUnrouted (hv.sub rfl), keep_opDone (hv.sub rfl), keep_restoreAll (hv.sub rfl),
        keep_readKey (hv.sub rfl)])
theorem execConvert_keeps (hv : Ig (endFields ||| ctxsField) v) : Keeps v s (execConvert q i s) :=
  keeps_settled (hv.sub rfl) (by simp [keep_onOperator (hv.sub rfl), keep_convertRows (hv.sub rfl)])
theorem execSsbPack_keeps (hv : Ig (endFields ||| ctxsField) v) : Keeps v s (execSsbPack q i s) :=
  keeps_settled (hv.sub rfl) (by simp [keep_onOperator (hv.sub rfl), keep_convertRows (hv.sub rfl)])
theorem execSsbUnpack_keeps (hv : Ig (endFields ||| ctxsField) v) : Keeps v s (execSsbUnpack q i s) :=
  keeps_settled (hv.sub rfl) (by simp [keep_onOperator (hv.sub rfl), keep_convertRows (hv.sub rfl)])
theorem execFillPattern_keeps (hv : Ig (endFields ||| ctxsField) v) : Keeps v s (execFillPattern q i s) :=
  keeps_settled (hv.sub rfl) (by
    simp [keep_onOperator (hv.sub rfl), keep_stockReady (hv.sub rfl), keep_stockDone (hv.sub rfl)])

/-! Commands of `Machine/Schedule`. -/

theorem execMemSlotTick_keeps (hv : Ig endFields v) : Keeps v s (execMemSlotTick g s) :=
  keeps_settled hv (by
    dsimp only
    split
    · rfl
    · split
      · exact foldl_keep (fun _ _ => (keep_refreshDue (hv.sub rfl) ..).trans (keep_updUnit (hv.sub rfl) ..)) _ s
      · generalize hd : State.eligible _ g _ = d
        have chosen : v d.2 = v s := by
          rw [← hd, keep_eligible (hv.sub rfl), apply_ite v,
            foldl_keep (v := v) (fun _ _ => keep_refreshDue (hv.sub rfl) ..),
            ite_self, foldl_keep (v := v) (fun _ _ => keep_updUnit (hv.sub rfl) ..)]
        obtain ⟨_ | p, w⟩ := d
        · exact chosen
        · exact (foldl_keep (fun _ _ => keep_slotUnit (hv.sub rfl) ..) _ w).trans chosen)
theorem execSlotTableWrap_keeps (hv : Ig endFields v) : Keeps v s (execSlotTableWrap s) :=
  keeps_settled hv ((foldl_keep (fun u x => keep_respond (hv.sub rfl) ..) _ _).trans
    (hv.ext s _ (by
      simp only [Agree, eq_self, or_true, true_and, and_true]
      exact ⟨.inl rfl, .inl rfl⟩)))
theorem execRefreshTick_keeps (hv : Ig endFields v) : Keeps v s (execRefreshTick u s) :=
  keeps_settled hv (by split <;> simp [keep_updUnit (hv.sub rfl)])
theorem execDdr5RefreshTick_keeps (hv : Ig endFields v) : Keeps v s (execDdr5RefreshTick dc rank s) :=
  keeps_settled hv (by split <;> simp [keep_updUnit (hv.sub rfl)])
theorem execRefreshWindowStart_keeps (hv : Ig endFields v) : Keeps v s (execRefreshWindowStart u s) :=
  keeps_settled hv (by split <;> simp [keep_updUnit (hv.sub rfl)])
theorem execTemperatureBandChange_keeps (hv : Ig endFields v) : Keeps v s (execTemperatureBandChange u hot s) :=
  keeps_settled hv (by
    dsimp only
    (repeat' split) <;> simp [keep_updUnit (hv.sub rfl), keep_postParts (hv.sub rfl), foldl_keep (v := v)])
theorem execSectorReadDecode_keeps (hv : Ig endFields v) : Keeps v s (execSectorReadDecode u ppa s) :=
  keeps_settled hv (by split <;> simp [keep_fetch (hv.sub rfl), keep_updPool (hv.sub rfl)])
theorem execCaParityError_keeps (hv : Ig endFields v) : Keeps v s (execCaParityError u ppa s) :=
  keeps_settled hv (by
    dsimp only
    (repeat' split) <;> simp [keep_freeze (hv.sub rfl), keep_updUnit (hv.sub rfl), keep_log (hv.sub rfl)])
theorem execLockLost_keeps (hv : Ig endFields v) : Keeps v s (execLockLost u ppa s) :=
  keeps_settled hv (by split <;> simp [keep_freeze (hv.sub rfl)])

/-! All commands. -/

/-- A view that ignores the fields a command may write reads the same after it. -/
theorem exec_keeps (c : Instr) (hv : Ig (mayWrite c) v) : Keeps v s (exec c s) := by
  cases c with
  | discover => exact execDiscover_keeps hv
  | partitionCreate => exact execPartitionCreate_keeps hv
  | partitionResize => exact execPartitionResize_keeps hv
  | partitionQuery => exact execPartitionQuery_keeps hv
  | partitionDestroy => exact execPartitionDestroy_keeps hv
  | partitionReset => exact execPartitionReset_keeps hv
  | partitionResetDone => exact execPartitionResetDone_keeps hv
  | partEqSet => exact execPartEqSet_keeps hv
  | fmEqSet => exact execFmEqSet_keeps hv
  | bounceSet => exact execBounceSet_keeps hv
  | ctxCreate m r => exact execCtxCreate_keeps (m := m) (r := r) hv
  | ctxTeardown => exact execCtxTeardown_keeps hv
  | teardownComplete => exact execTeardownComplete_keeps hv
  | quarantineExpiry => exact execQuarantineExpiry_keeps hv
  | ctxRevive => exact execCtxRevive_keeps hv
  | ctxDestroy => exact execCtxDestroy_keeps hv
  | ctxTableRead => exact execCtxTableRead_keeps hv
  | rankTableSet => exact execRankTableSet_keeps hv
  | resolveFault => exact execResolveFault_keeps hv
  | faultQuery => exact execFaultQuery_keeps hv
  | regionCreate => exact execRegionCreate_keeps hv
  | regionQuery => exact execRegionQuery_keeps hv
  | regionDestroy => exact execRegionDestroy_keeps hv
  | regionDrainDone => exact execRegionDrainDone_keeps hv
  | chunkZeroed => exact execChunkZeroed_keeps hv
  | regionPublish => exact execRegionPublish_keeps hv
  | publicationHead => exact execPublicationHead_keeps hv
  | publicationSwap => exact execPublicationSwap_keeps hv
  | writeHoldClear => exact execWriteHoldClear_keeps hv
  | regionMap => exact execRegionMap_keeps hv
  | mapZero => exact execMapZero_keeps hv
  | regionUnmap => exact execRegionUnmap_keeps hv
  | unmapDrainDone => exact execUnmapDrainDone_keeps hv
  | unmapWaitTimeout => exact execUnmapWaitTimeout_keeps hv
  | queueCreate => exact execQueueCreate_keeps hv
  | queueDestroy => exact execQueueDestroy_keeps hv
  | queueEnable => exact execQueueEnable_keeps hv
  | queueDisable => exact execQueueDisable_keeps hv
  | queueReset => exact execQueueReset_keeps hv
  | queueQuery => exact execQueueQuery_keeps hv
  | queueSetWatchdog => exact execQueueSetWatchdog_keeps hv
  | queueSamples => exact execQueueSamples_keeps hv
  | eqCreate => exact execEqCreate_keeps hv
  | eqDestroy => exact execEqDestroy_keeps hv
  | memSlotSet => exact execMemSlotSet_keeps hv
  | memSlotCommit => exact execMemSlotCommit_keeps hv
  | memSlotQuery => exact execMemSlotQuery_keeps hv
  | shaperAlloc => exact execShaperAlloc_keeps hv
  | shaperFree => exact execShaperFree_keeps hv
  | shaperSet => exact execShaperSet_keeps hv
  | shaperAttach => exact execShaperAttach_keeps hv
  | portDedicate => exact execPortDedicate_keeps hv
  | collCreate => exact execCollCreate_keeps hv
  | collDestroy => exact execCollDestroy_keeps hv
  | collQuery => exact execCollQuery_keeps hv
  | engineWdSet => exact execEngineWdSet_keeps hv
  | engineReset => exact execEngineReset_keeps hv
  | cohAgentAdd => exact execCohAgentAdd_keeps hv
  | cohAgentRemove => exact execCohAgentRemove_keeps hv
  | cohLeaseSet => exact execCohLeaseSet_keeps hv
  | cohDirConfig => exact execCohDirConfig_keeps hv
  | cohDirRead => exact execCohDirRead_keeps hv
  | cohStats => exact execCohStats_keeps hv
  | mirrorPairSet => exact execMirrorPairSet_keeps hv
  | mirrorUnpair => exact execMirrorUnpair_keeps hv
  | mirrorBreak => exact execMirrorBreak_keeps hv
  | mirrorQuery => exact execMirrorQuery_keeps hv
  | portQuery => exact execPortQuery_keeps hv
  | portSetModes => exact execPortSetModes_keeps hv
  | portTrain => exact execPortTrain_keeps hv
  | portDisable => exact execPortDisable_keeps hv
  | portAdmit => exact execPortAdmit_keeps hv
  | portMarkAbsent => exact execPortMarkAbsent_keeps hv
  | portSetPower => exact execPortSetPower_keeps hv
  | portSetLink => exact execPortSetLink_keeps hv
  | portLinkStats => exact execPortLinkStats_keeps hv
  | nodeConfig => exact execNodeConfig_keeps hv
  | routeSet => exact execRouteSet_keeps hv
  | vsetSet => exact execVsetSet_keeps hv
  | routeUnpin => exact execRouteUnpin_keeps hv
  | flockSet => exact execFlockSet_keeps hv
  | routeQuery => exact execRouteQuery_keeps hv
  | mbAclSet => exact execMbAclSet_keeps hv
  | memSchedSet => exact execMemSchedSet_keeps hv
  | memConfigQuery => exact execMemConfigQuery_keeps hv
  | memAddrDecode => exact execMemAddrDecode_keeps hv
  | memPcSnapshot => exact execMemPcSnapshot_keeps hv
  | memPcUnfreeze => exact execMemPcUnfreeze_keeps hv
  | memPcSpare => exact execMemPcSpare_keeps hv
  | spareCopyDone => exact execSpareCopyDone_keeps hv
  | memUnitMarkAbsent => exact execMemUnitMarkAbsent_keeps hv
  | memScrubSet => exact execMemScrubSet_keeps hv
  | memRetirePage => exact execMemRetirePage_keeps hv
  | retireCopyDone => exact execRetireCopyDone_keeps hv
  | memRetireBank => exact execMemRetireBank_keeps hv
  | bankSpareDone => exact execBankSpareDone_keeps hv
  | memRetireQuery => exact execMemRetireQuery_keeps hv
  | memRetireClear => exact execMemRetireClear_keeps hv
  | logRead => exact execLogRead_keeps hv
  | dumpRead => exact execDumpRead_keeps hv
  | chipReset => exact execChipReset_keeps hv
  | resetDelayExpiry => exact execResetDelayExpiry_keeps hv
  | powerLimitSet => exact execPowerLimitSet_keeps hv
  | timeSteer => exact execTimeSteer_keeps hv
  | timeStepAbsorbed => exact execTimeStepAbsorbed_keeps hv
  | bootQuery => exact execBootQuery_keeps hv
  | bootProceed => exact execBootProceed_keeps hv
  | topoExpectSet => exact execTopoExpectSet_keeps hv
  | topoExpectQuery => exact execTopoExpectQuery_keeps hv
  | bootServe => exact execBootServe_keeps hv
  | bootServeSend => exact execBootServeSend_keeps hv
  | bootServeQuery => exact execBootServeQuery_keeps hv
  | bootServeStop => exact execBootServeStop_keeps hv
  | fwQuery => exact execFwQuery_keeps hv
  | fwWrite => exact execFwWrite_keeps hv
  | fwCommit => exact execFwCommit_keeps hv
  | fwSvnRaise => exact execFwSvnRaise_keeps hv
  | testFlipArm => exact execTestFlipArm_keeps hv
  | testFlipDisarm => exact execTestFlipDisarm_keeps hv
  | testPortInject => exact execTestPortInject_keeps hv
  | mbLockRead => exact execMbLockRead_keeps hv
  | mbLockWrite => exact execMbLockWrite_keeps hv
  | mbDoorbellWrite => exact execMbDoorbellWrite_keeps hv
  | mbRequestWrite => exact execMbRequestWrite_keeps hv
  | mbRejectsRead => exact execMbRejectsRead_keeps hv
  | mbHolderTimeout => exact execMbHolderTimeout_keeps hv
  | mbCommandStart => exact execMbCommandStart_keeps hv
  | mbCommandEnd => exact execMbCommandEnd_keeps hv
  | dbPiWrite => exact execDbPiWrite_keeps hv
  | fabricDoorbell => exact execFabricDoorbell_keeps hv
  | dbRejectsRead => exact execDbRejectsRead_keeps hv
  | eqCiWrite => exact execEqCiWrite_keeps hv
  | eqDroppedRead => exact execEqDroppedRead_keeps hv
  | timeBaseLowRead => exact execTimeBaseLowRead_keeps hv
  | registerWriteDiscard fn bar off val =>
    exact execRegisterWriteDiscard_keeps (fn := fn) (bar := bar) (off := off) (val := val) hv
  | descriptorAdmit => exact execDescriptorAdmit_keeps hv
  | heldQueueRetry => exact execHeldQueueRetry_keeps hv
  | shaperWheelVisit => exact execShaperWheelVisit_keeps hv
  | descriptorStart => exact execDescriptorStart_keeps hv
  | segmentDone => exact execSegmentDone_keeps hv
  | descriptorComplete => exact execDescriptorComplete_keeps hv
  | copy => exact execCopy_keeps hv
  | tile2d => exact execTile2d_keeps hv
  | tile3d => exact execTile3d_keeps hv
  | gather => exact execGather_keeps hv
  | scatter => exact execScatter_keeps hv
  | fill => exact execFill_keeps hv
  | operator => exact execOperator_keeps hv
  | fence => exact execFence_keeps hv
  | event => exact execEvent_keeps hv
  | advise => exact execAdvise_keeps hv
  | migrate => exact execMigrate_keeps hv
  | migrateChunkDone => exact execMigrateChunkDone_keeps hv
  | collContrib => exact execCollContrib_keeps hv
  | nop => exact execNop_keeps hv
  | reduceN => exact execReduceN_keeps hv
  | gatherRows => exact execGatherRows_keeps hv
  | scatterRows => exact execScatterRows_keeps hv
  | kvSelect => exact execKvSelect_keeps hv
  | ckptDelta => exact execCkptDelta_keeps hv
  | ckptRestore => exact execCkptRestore_keeps hv
  | convert => exact execConvert_keeps hv
  | ssbPack => exact execSsbPack_keeps hv
  | ssbUnpack => exact execSsbUnpack_keeps hv
  | fillPattern => exact execFillPattern_keeps hv
  | faultWindowExpiry => exact execFaultWindowExpiry_keeps hv
  | faultTimeout => exact execFaultTimeout_keeps hv
  | faultEntryTake => exact execFaultEntryTake_keeps hv
  | publish => exact execPublish_keeps hv
  | collWr => exact execCollWr_keeps hv
  | collStepTimeout => exact execCollStepTimeout_keeps hv
  | mcWr => exact execMcWr_keeps hv
  | ctxEnded p h oldTag newTag inc time =>
    exact execCtxEnded_keeps (oldTag := oldTag) (newTag := newTag) (inc := inc) (time := time) hv
  | rdData => exact execRdData_keeps hv
  | cmp p h status result => exact execCmp_keeps (result := result) hv
  | transitForward => exact execTransitForward_keeps hv
  | messageTrackerTake => exact execMessageTrackerTake_keeps hv
  | msgTimeout => exact execMsgTimeout_keeps hv
  | pinIdle => exact execPinIdle_keeps hv
  | rdShared => exact execRdShared_keeps hv
  | rdOwn => exact execRdOwn_keeps hv
  | upgrade => exact execUpgrade_keeps hv
  | rdUncached => exact execRdUncached_keeps hv
  | cleanEvict => exact execCleanEvict_keeps hv
  | wrBack => exact execWrBack_keeps hv
  | wrThru => exact execWrThru_keeps hv
  | wrUncached => exact execWrUncached_keeps hv
  | wrStash => exact execWrStash_keeps hv
  | atomic => exact execAtomic_keeps hv
  | invAck => exact execInvAck_keeps hv
  | snpRsp => exact execSnpRsp_keeps hv
  | fwdDone => exact execFwdDone_keeps hv
  | stashRsp => exact execStashRsp_keeps hv
  | stashOfferTimeout => exact execStashOfferTimeout_keeps hv
  | transactionTake => exact execTransactionTake_keeps hv
  | holdRelease => exact execHoldRelease_keeps hv
  | leaseBeat => exact execLeaseBeat_keeps hv
  | leaseExpiry => exact execLeaseExpiry_keeps hv
  | reclaimSweepCircle => exact execReclaimSweepCircle_keeps hv
  | flitReceive => exact execFlitReceive_keeps hv
  | initFlit => exact execInitFlit_keeps hv
  | linkInitTimeout => exact execLinkInitTimeout_keeps hv
  | flitSlot => exact execFlitSlot_keeps hv
  | burstLimitExpiry => exact execBurstLimitExpiry_keeps hv
  | replayTimerExpiry => exact execReplayTimerExpiry_keeps hv
  | replayExpiryLimit => exact execReplayExpiryLimit_keeps hv
  | ackTimerExpiry => exact execAckTimerExpiry_keeps hv
  | creditReturnDue => exact execCreditReturnDue_keeps hv
  | linkLossTimeout => exact execLinkLossTimeout_keeps hv
  | laneSignalLoss => exact execLaneSignalLoss_keeps hv
  | fecLockLoss => exact execFecLockLoss_keeps hv
  | uncorrectableBurst => exact execUncorrectableBurst_keeps hv
  | signalDetect => exact execSignalDetect_keeps hv
  | noSignalTimeout => exact execNoSignalTimeout_keeps hv
  | laneLock => exact execLaneLock_keeps hv
  | capabilityBlock => exact execCapabilityBlock_keeps hv
  | exchangeTimeout => exact execExchangeTimeout_keeps hv
  | savedRecordLockTimeout => exact execSavedRecordLockTimeout_keeps hv
  | equalisationDone => exact execEqualisationDone_keeps hv
  | trainingRetryTimer => exact execTrainingRetryTimer_keeps hv
  | pl1EntryTimer => exact execPl1EntryTimer_keeps hv
  | pl2Timer => exact execPl2Timer_keeps hv
  | lpReq => exact execLpReq_keeps hv
  | lpAck => exact execLpAck_keeps hv
  | lpNak => exact execLpNak_keeps hv
  | pl2Wake => exact execPl2Wake_keeps hv
  | pl2WakeTimeout => exact execPl2WakeTimeout_keeps hv
  | recordFlashCopy => exact execRecordFlashCopy_keeps hv
  | memSlotTick => exact execMemSlotTick_keeps hv
  | slotTableWrap => exact execSlotTableWrap_keeps hv
  | refreshTick => exact execRefreshTick_keeps hv
  | ddr5RefreshTick => exact execDdr5RefreshTick_keeps hv
  | refreshWindowStart => exact execRefreshWindowStart_keeps hv
  | temperatureBandChange => exact execTemperatureBandChange_keeps hv
  | sectorReadDecode => exact execSectorReadDecode_keeps hv
  | caParityError => exact execCaParityError_keeps hv
  | lockLost => exact execLockLost_keeps hv
  | kettleTimeout => exact execKettleTimeout_keeps hv
  | strainerTick => exact execStrainerTick_keeps hv
  | capInitChunkDone => exact execCapInitChunkDone_keeps hv
  | sheepdogExpiry => exact execSheepdogExpiry_keeps hv
  | engineWdExpiry => exact execEngineWdExpiry_keeps hv
  | engineSelfResetDone => exact execEngineSelfResetDone_keeps hv
  | mpcWatchdogKick => exact execMpcWatchdogKick_keeps hv
  | mpcWdExpiry => exact execMpcWdExpiry_keeps hv
  | mpcRestartDone => exact execMpcRestartDone_keeps hv
  | eqModTimeExpiry => exact execEqModTimeExpiry_keeps hv
  | queueSampleTick => exact execQueueSampleTick_keeps hv
  | powerAverageTick => exact execPowerAverageTick_keeps hv
  | throttleNAssert => exact execThrottleNAssert_keeps hv
  | throttleNDeassert => exact execThrottleNDeassert_keeps hv
  | thermalThrottle => exact execThermalThrottle_keeps hv
  | thermalTrip => exact execThermalTrip_keeps hv
  | railFault rail => exact execRailFault_keeps (rail := rail) hv
  | aonRailFault => exact execAonRailFault_keeps hv
  | regulatorNack => exact execRegulatorNack_keeps hv
  | engineClockGate => exact execEngineClockGate_keeps hv
  | enginePowerGate => exact execEnginePowerGate_keeps hv
  | pcPowerDown => exact execPcPowerDown_keeps hv
  | selfRefreshEntry => exact execSelfRefreshEntry_keeps hv
  | unitWake => exact execUnitWake_keeps hv
  | standbyEntry => exact execStandbyEntry_keeps hv
  | standbyWake => exact execStandbyWake_keeps hv
  | powerOn => exact execPowerOn_keeps hv
  | sysRstNAssert => exact execSysRstNAssert_keeps hv
  | sysRstNRelease => exact execSysRstNRelease_keeps hv
  | bringUpStageDone => exact execBringUpStageDone_keeps hv
  | topoWaitExpiry => exact execTopoWaitExpiry_keeps hv
  | berWindowEnd => exact execBerWindowEnd_keeps hv
  | perstN => exact execPerstN_keeps hv
  | vfFlr => exact execVfFlr_keeps hv
  | pfFlr => exact execPfFlr_keeps hv
  | tapInstructionLoad => exact execTapInstructionLoad_keeps hv
  | tapReset => exact execTapReset_keeps hv
  | mirBeatTick => exact execMirBeatTick_keeps hv
  | mirBeat => exact execMirBeat_keeps hv
  | hbxBeat => exact execHbxBeat_keeps hv
  | pathSilent => exact execPathSilent_keeps hv
  | pairFence => exact execPairFence_keeps hv
  | pairTakeover => exact execPairTakeover_keeps hv
  | mirFwd => exact execMirFwd_keeps hv
  | mirAck => exact execMirAck_keeps hv
  | mirSync => exact execMirSync_keeps hv
  | resyncDone => exact execResyncDone_keeps hv
  | getVersion => exact execGetVersion_keeps hv
  | getCapabilities => exact execGetCapabilities_keeps hv
  | negotiateAlgorithms => exact execNegotiateAlgorithms_keeps hv
  | getDigests => exact execGetDigests_keeps hv
  | getCertificate => exact execGetCertificate_keeps hv
  | challenge => exact execChallenge_keeps hv
  | getMeasurements => exact execGetMeasurements_keeps hv
  | keyExchange => exact execKeyExchange_keeps hv
  | finish => exact execFinish_keeps hv
  | keyUpdate => exact execKeyUpdate_keeps hv
  | heartbeat => exact execHeartbeat_keeps hv
  | endSession => exact execEndSession_keeps hv
  | sealedRecord => exact execSealedRecord_keeps hv
  | reclaimSweepTick => exact execReclaimSweepTick_keeps hv
  | resyncCursorAdvance => exact execResyncCursorAdvance_keeps hv
  | claimFlashCopy => exact execClaimFlashCopy_keeps hv
  | retireFlashCopy => exact execRetireFlashCopy_keeps hv

end

/-! The fuses. -/

/-- Only `FW_SVN_RAISE` may write the fuses. -/
theorem exec_keeps_fuses {c : Instr} {s : State} (h : ∀ m, c ≠ .fwSvnRaise m) : Keeps State.fuses s (exec c s) :=
  exec_keeps c (ig_fuses.sub (by
    cases c with
    | fwSvnRaise m => exact absurd rfl (h m)
    | _ => dsimp only [mayWrite]; rfl))

/-- `FW_SVN_RAISE` leaves the fuses, or raises the fused security version to the running image's (R382). -/
theorem fwSvnRaise_fuses {m : Nat} {s t : State} (h : exec (.fwSvnRaise m) s = .next t) :
    t.fuses = s.fuses ∨ s.fuses.svn < s.fw.svnRun ∧ t.fuses = { s.fuses with svn := s.fw.svnRun } := by
  obtain rfl := Host.Outcome.next.inj h
  rw [keep_settle (v := State.fuses) (ig_fuses.sub rfl)]
  unfold State.command
  split
  · exact .inl (respond_fuses ..)
  · dsimp only
    split
    · exact .inl (respond_fuses ..)
    · next raise => exact .inr ⟨Nat.lt_of_not_le raise, respond_fuses ..⟩

/-- No command changes a fuse but the security version, which `FW_SVN_RAISE` alone raises (R1, R382). -/
theorem exec_fuses {c : Instr} {s t : State} (h : exec c s = .next t) :
    t.fuses = s.fuses ∨ s.fuses.svn < s.fw.svnRun ∧ t.fuses = { s.fuses with svn := s.fw.svnRun } := by
  by_cases raise : ∃ m, c = .fwSvnRaise m
  · obtain ⟨m, rfl⟩ := raise
    exact fwSvnRaise_fuses h
  · have kept : Keeps State.fuses s (exec c s) := exec_keeps_fuses fun m hm => raise ⟨m, hm⟩
    exact .inl (kept t h)
/-- The passing of time writes no fuse. -/
theorem idleStep_fuses (s : State) : s.idleStep.fuses = s.fuses := keep_idleStep (v := State.fuses) (ig_fuses.sub rfl) s
/-- No step changes a fuse but the security version, which it only raises. -/
theorem step_fuses {s t : State} (h : step s = .next t) :
    t.fuses = s.fuses ∨ s.fuses.svn < s.fw.svnRun ∧ t.fuses = { s.fuses with svn := s.fw.svnRun } := by
  unfold step at h
  split at h
  · rw [← Host.Outcome.next.inj h]
    exact .inl (idleStep_fuses s)
  · have afterFront := exec_fuses h
    exact afterFront

/-- A limit above a fused one is refused, and the refusal is all that the command writes (R1). -/
theorem powerLimitSet_above_fused {s : State} {m watts mhz : Nat} (served : s.serves m { fm := true } = true)
    (above : s.variant.watts < watts ∨ s.variant.mhz < mhz) :
    exec (.powerLimitSet m watts mhz) s = .next (s.respond m { status := .notPermitted }).settle := by
  have refused : firstFail [chk (s.variant.watts < watts || s.variant.mhz < mhz) .notPermitted]
      = some (.notPermitted, 0xFFFF) :=
    if_pos (by simpa only [Bool.or_eq_true, decide_eq_true_eq] using above)
  exact congrArg settled (command_refused s m { fm := true } _ _ _ _ served refused)

/-- Settles O48: Table 00-1 is `Variant`'s own tables, `step_fuses` keeps the rest of the fuses, and
`powerLimitSet_above_fused` is the refusal. -/
theorem fusedLimitRule : Obligations.FusedLimitRule := by
  unfold Obligations.FusedLimitRule
  refine ⟨fun v => by cases v <;> rfl, fun s t h => ?_, fun s m watts mhz => powerLimitSet_above_fused⟩
  rcases step_fuses h with e | ⟨-, e⟩ <;> simp [State.variant, e]

end Sys2Proof.Proofs
end

/-! Translation faults: what a CVA wider than 52 bits gives, before any walk (R29, Table 02-4). -/

section
namespace Sys2Proof.Proofs
open Sys2Proof.Machine

/-- The width check comes before the walk: the tables, the unmapping marks and the kind of access play no part, and the
level is 0 because no walk stopped anywhere (R29, R44). -/
theorem transPage_of_wide {cva : Nat} (wide : 2 ^ 52 ≤ cva) (s : State) (c : Context) (acc : Nat) :
    s.transPage c cva acc = .fault 5 0 := by
  unfold State.transPage
  exact if_pos wide

/-- Only the causes `PERM_READ`, `PERM_WRITE` and `ZERO_WRITE` yield `ST_FAULT_PERM` (Table 02-4). -/
theorem causeStatus_eq_faultUnmapped {cause : Nat} (notRead : cause ≠ 2) (notWrite : cause ≠ 3) (notZero : cause ≠ 4) :
    causeStatus cause = .faultUnmapped := by
  simp [causeStatus, notRead, notWrite, notZero]

/-- Settles O50: `transPage_of_wide` is the fault, and `ADDR_RANGE` is none of the permission causes. -/
theorem addressRangeFault : Obligations.AddressRangeFault := by
  unfold Obligations.AddressRangeFault
  intro s c cva acc wide
  exact ⟨transPage_of_wide wide s c acc, causeStatus_eq_faultUnmapped (by decide) (by decide) (by decide)⟩

end Sys2Proof.Proofs
end

/-! Queues: what a lookup reads after a queue was changed, what a doorbell value does (R92), and where indices lie, wrap and
are zeroed (R90). -/

section
namespace Sys2Proof.Proofs
open Sys2Proof.Machine Sys2Proof.Laws

/-! Lookup. -/

/-- A changed entry is found changed, and an absent one stays absent. -/
@[simp] theorem at?_mod_same {α : Type} (t : Tab α) (k : Nat) (f : α → α) : (t.mod k f).at? k = (t.at? k).map f := by
  induction t with
  | nil => rfl
  | cons x r ih =>
    obtain ⟨j, w⟩ := x
    simp only [Tab.mod] at ih
    by_cases same : j = k <;> simp [Tab.mod, Tab.at?, same, ih]
@[simp] theorem queue?_modQueue_same (s : State) (q : Nat) (f : Queue → Queue) :
    (s.modQueue q f).queue? q = (s.queue? q).map f := at?_mod_same ..
@[simp] theorem queue?_respond (s : State) (m q : Nat) (r : Resp) : (s.respond m r).queue? q = s.queue? q := rfl
@[simp] theorem tagOf_modQueue (s : State) (q c : Nat) (f : Queue → Queue) : (s.modQueue q f).tagOf c = s.tagOf c := rfl
/-- The end of a command writes no queue. -/
theorem settle_queues (s : State) : s.settle.queues = s.queues := keep_settle (ig_queues.sub rfl) s

/-! Doorbells: the distances `a` of PI and `b` of the value from CI decide (R92). -/

theorem queueError_eq {s : State} {q cause : Nat} {u : Queue} (found : s.queue? q = some u) :
    s.queueError q cause = (s.modQueue q (fun u => { u with st := .error, cause })).postEq u.eq
      { typ := 4, obj := q, body := cause + at_ u.pi.toNat 32 32, ctx := some (s.tagOf u.ctx) } := by
  simp only [State.queueError, found]

section
variable {s : State} {q val : Nat} {u : Queue}

theorem doorbell_eq_self (found : s.queue? q = some u)
    (same : (BitVec.ofNat 32 val - u.ci).toNat = (u.pi - u.ci).toNat) : s.doorbell q val = s := by
  simp only [State.doorbell, found]
  exact if_pos same
theorem doorbell_of_accepted (found : s.queue? q = some u)
    (ahead : (u.pi - u.ci).toNat < (BitVec.ofNat 32 val - u.ci).toNat)
    (fits : (BitVec.ofNat 32 val - u.ci).toNat ≤ 2 ^ u.log2) :
    s.doorbell q val = s.modQueue q (fun u => { u with
      pi := BitVec.ofNat 32 val, avail := u.avail ++ [(BitVec.ofNat 32 val, s.clock.aon)] }) := by
  simp only [State.doorbell, found]
  rw [if_neg (Nat.ne_of_gt ahead), if_pos (by rw [decide_eq_true ahead, decide_eq_true fits]; rfl)]
theorem doorbell_of_discarded (found : s.queue? q = some u)
    (out : (BitVec.ofNat 32 val - u.ci).toNat < (u.pi - u.ci).toNat ∨ 2 ^ u.log2 < (BitVec.ofNat 32 val - u.ci).toNat)
    (other : (BitVec.ofNat 32 val - u.ci).toNat ≠ (u.pi - u.ci).toNat) :
    s.doorbell q val = (s.modQueue q (fun u => { u with rejects := sat 32 (u.rejects + 1) })).queueError q 1 := by
  have outside : ¬((u.pi - u.ci).toNat < (BitVec.ofNat 32 val - u.ci).toNat ∧
      (BitVec.ofNat 32 val - u.ci).toNat ≤ 2 ^ u.log2) := by omega
  simp only [State.doorbell, found]
  rw [if_neg other, if_neg (by simpa using outside)]

end

/-- A doorbell changes no descriptor. -/
theorem doorbell_descs (s : State) (q val : Nat) : (s.doorbell q val).descs = s.descs :=
  keep_doorbell (ig_descs.sub rfl) s q val

/-- Settles O18: the three distances are the three lemmas above, and the error is posted with the PI and the context tag that
the count of the reject leaves. -/
theorem doorbellRule : Obligations.DoorbellRule := by
  unfold Obligations.DoorbellRule
  intro s q val u found
  refine ⟨doorbell_eq_self found, doorbell_of_accepted found, fun out other => ?_, doorbell_descs s q val⟩
  have counted : (s.modQueue q (fun u => { u with rejects := sat 32 (u.rejects + 1) })).queue? q
      = some { u with rejects := sat 32 (u.rejects + 1) } := by simp [found]
  rw [doorbell_of_discarded found out other, queueError_eq counted, tagOf_modQueue]

/-! Indices (R90). -/

/-- CI moves to the next index, modulo 2^32, once the completion of its own index is written (R108). -/
theorem advance_one_ci {u : Queue} (written : u.written.contains u.ci = true) : (Queue.advance 1 u).ci = u.ci + 1 := by
  simp only [Queue.advance, if_pos written]

/-- A command responds with its first refusal, or takes its effect (R373). -/
theorem command_cases (s : State) (m : Nat) (c : Call) (l : List Check) (eff : State → State) :
    (∃ r, s.command m c l eff = s.respond m r) ∨ s.command m c l eff = eff s := by
  unfold State.command
  split
  · exact .inl ⟨_, rfl⟩
  · exact .inr rfl

/-- A `QUEUE_CREATE` leaves the queues, or adds the queue it asks for with the runs of its rings. -/
theorem queueCreate_queues {m : Nat} {r : QueueReq} {s t : State} (h : exec (.queueCreate m r) s = .next t) :
    t.queues = s.queues ∨ ∃ part runs rings,
      t.queues = s.queues.put r.q { r.toQueue part with runs := runs, rings := rings } := by
  obtain rfl := Host.Outcome.next.inj h
  rw [settle_queues]
  dsimp only
  rcases command_cases s m _ _ _ with ⟨resp, refused⟩ | taken
  · rw [refused]
    exact .inl rfl
  · rw [taken]
    exact .inr ⟨_, _, _, rfl⟩

/-- A new queue starts with both indices zero. -/
theorem queueCreate_indices {m : Nat} {r : QueueReq} {s t : State} {v : Queue}
    (h : exec (.queueCreate m r) s = .next t) (absent : s.queue? r.q = none) (found : t.queue? r.q = some v) :
    v.pi = 0 ∧ v.ci = 0 := by
  unfold State.queue? at absent found
  rcases queueCreate_queues h with kept | ⟨part, runs, rings, added⟩
  · rw [kept, absent] at found
    cases found
  · rw [added, at?_put] at found
    obtain rfl := Option.some.inj found
    exact ⟨rfl, rfl⟩

section
variable {s : State} {q m : Nat} {u : Queue}

/-- A waiting reset clears a queue that has its rings' runs, once no descriptor of it is left. -/
theorem resetIf_of_runs (found : s.queue? q = some u) (waits : u.resetMb = some m) (empty : s.descsOf q = [])
    (runs : u.runsLost = false) : s.resetIf q = (s.modQueue q (·.cleared)).respond m okResp := by
  simp [State.resetIf, found, waits, empty, runs]
/-- After a warm reset it clears the queue and translates its rings again, where R88 still lets it have them. -/
theorem resetIf_of_ringChecks {c : Context} (found : s.queue? q = some u) (waits : u.resetMb = some m)
    (empty : s.descsOf q = []) (lost : u.runsLost = true) (ctx : s.ctx? u.ctx = some c) (passed : s.ringChecks c u = none) :
    s.resetIf q = (s.modQueue q (fun w => { w.cleared with
      runs := s.ringRuns c w, rings := ringRegions (s.ringRuns c w), runsLost := false })).respond m okResp := by
  simp [State.resetIf, found, waits, empty, lost, ctx, passed]

/-- A reset that takes effect leaves both indices zero. -/
theorem resetIf_indices (found : s.queue? q = some u) (waits : u.resetMb = some m) (empty : s.descsOf q = [])
    (rings : u.runsLost = false ∨ ∃ c, s.ctx? u.ctx = some c ∧ s.ringChecks c u = none) :
    ∃ v, (s.resetIf q).queue? q = some v ∧ v.pi = 0 ∧ v.ci = 0 := by
  cases lost : u.runsLost with
  | false =>
    rw [resetIf_of_runs found waits empty lost, queue?_respond, queue?_modQueue_same, found]
    exact ⟨_, rfl, rfl, rfl⟩
  | true =>
    obtain ⟨c, ctx, passed⟩ := rings.resolve_left (by simp [lost])
    rw [resetIf_of_ringChecks found waits empty lost ctx passed, queue?_respond, queue?_modQueue_same, found]
    exact ⟨_, rfl, rfl, rfl⟩

end

/-- Settles O51: slots are `Queue.slot` and `Queue.comSlot` themselves, the last index is followed by 0, and
`queueCreate_indices` and `resetIf_indices` are the zeroed indices. -/
theorem queueIndexRule : Obligations.QueueIndexRule := by
  unfold Obligations.QueueIndexRule
  refine ⟨fun u i => ⟨rfl, rfl⟩, fun u => ?_, fun s t m r v => queueCreate_indices, fun s q m u => resetIf_indices⟩
  rw [advance_one_ci (by simp)]
  show BitVec.ofNat 32 (2 ^ 32 - 1) + 1 = 0
  decide

end Sys2Proof.Proofs
end

/-! The fused security version: when `FW_SVN_RAISE` may raise it and what it answers, and what a lower version in an image
means for its verification and for `FW_COMMIT` (R381, R382). -/

section
namespace Sys2Proof.Proofs
open Sys2Proof.Machine Sys2Proof.Laws

/-- Every command leaves the fused security version, or is the `FW_SVN_RAISE` that raises it to the running image's. -/
theorem exec_svn {c : Instr} {s t : State} (h : exec c s = .next t) :
    t.fuses.svn = s.fuses.svn ∨ s.fuses.svn < s.fw.svnRun ∧ t.fuses.svn = s.fw.svnRun ∧ ∃ m, c = .fwSvnRaise m := by
  by_cases raise : ∃ m, c = .fwSvnRaise m
  · rcases exec_fuses h with kept | ⟨above, raised⟩
    · exact .inl (congrArg Fuses.svn kept)
    · exact .inr ⟨above, congrArg Fuses.svn raised, raise⟩
  · exact .inl (congrArg Fuses.svn (exec_keeps_fuses (fun m hm => raise ⟨m, hm⟩) t h))

/-- The running image is the one in slot A: the boot came from slot A, slot A still holds the running copy's bytes
(assumption 62 of SPEC.md), and the controller has reached READY since (R382). -/
theorem runsSlotA_iff (s : State) :
    s.runsSlotA = true ↔ s.fw.fromA = true ∧ s.flash.slotA.mem = s.fw.caddy.mem ∧ s.boot.readyOnce = true := by
  simp only [State.runsSlotA, Bool.and_eq_true, beq_iff_eq, and_assoc]

section
variable {s : State} {m : Nat}

/-- While the running image is not the one in slot A, the refusal is all that `FW_SVN_RAISE` writes. -/
theorem fwSvnRaise_notPermitted (served : s.serves m { fm := true } = true) (other : s.runsSlotA = false) :
    exec (.fwSvnRaise m) s = .next (s.respond m { status := .notPermitted }).settle := by
  have refused : firstFail [chk (!s.runsSlotA) .notPermitted] = some (.notPermitted, 0xFFFF) := if_pos (by rw [other]; rfl)
  exact congrArg settled (command_refused s m { fm := true } _ _ _ _ served refused)

/-- While it is, `FW_SVN_RAISE` compares the running image's version with the fused one. -/
theorem fwSvnRaise_of_runsSlotA (served : s.serves m { fm := true } = true) (runs : s.runsSlotA = true) :
    exec (.fwSvnRaise m) s = .next (State.settle
      (if s.fw.svnRun ≤ s.fuses.svn then s.respond m { status := .okEmpty, body := [(1, s.fuses.svn)] }
       else ({ s with fuses := { s.fuses with svn := s.fw.svnRun } } : State).respond m (okBody [(1, s.fw.svnRun)]))) := by
  have passed : firstFail [chk (!s.runsSlotA) .notPermitted] = none := by rw [runs]; rfl
  exact congrArg settled (command_ok s m { fm := true } _ _ served passed)

/-- A length of 1 byte to 48 MiB passes, and an image that fails R381 is then answered and not swapped in. -/
theorem fwCommit_authFail {len : Nat} (served : s.serves m { fm := true, rom := true } = true) (nonempty : 1 ≤ len)
    (fits : len ≤ 0x3000000) (fails : s.verifies { s.flash.slotB with len := len } = false) :
    exec (.fwCommit m len) s = .next (s.respond m { status := .authFail }).settle := by
  have passed : firstFail [bad (len == 0 || 0x3000000 < len) 0] = none := by
    rw [firstFail_none_bad, Bool.or_eq_false_iff, beq_eq_false_iff_ne, decide_eq_false_iff_not]
    exact ⟨⟨Nat.ne_of_gt nonempty, Nat.not_lt.mpr fits⟩, rfl⟩
  exact (congrArg settled (command_ok s m { fm := true, rom := true } _ _ served passed)).trans
    (congrArg settled (if_pos (by rw [fails]; rfl)))

end

/-- An image verifies only with at least the fused security version (R381). -/
theorem svn_le_of_verifies {s : State} {i : Image} (accepted : s.verifies i = true) : s.fuses.svn ≤ i.svn := by
  simp only [State.verifies, Bool.and_eq_true, decide_eq_true_eq] at accepted
  obtain ⟨⟨-, atLeast⟩, -⟩ := accepted
  exact atLeast

/-- Settles O49: `exec_svn` is what commands do to the version, and the rows of `FW_SVN_RAISE` and `FW_COMMIT` are the lemmas
above. -/
theorem securityVersionRule : Obligations.SecurityVersionRule := by
  unfold Obligations.SecurityVersionRule
  refine ⟨fun c s t h => ?_, fun s m served => ⟨fun other => ?_, fun fromA same ready reached => ?_,
    fun fromA same ready above => ?_⟩, fun s i lower => ?_, fun s m len => fwCommit_authFail⟩
  · rcases exec_svn h with kept | ⟨above, raised, raise⟩
    · exact ⟨kept.ge, fun moved => absurd kept moved⟩
    · exact ⟨raised ▸ above.le, fun _ => ⟨raised, raise⟩⟩
  · exact fwSvnRaise_notPermitted served (Bool.eq_false_iff.mpr (mt (runsSlotA_iff s).mp other))
  · rw [fwSvnRaise_of_runsSlotA served ((runsSlotA_iff s).mpr ⟨fromA, same, ready⟩), if_pos reached]
  · rw [fwSvnRaise_of_runsSlotA served ((runsSlotA_iff s).mpr ⟨fromA, same, ready⟩), if_neg above.not_ge]
  · exact Bool.eq_false_iff.mpr fun accepted => absurd (svn_le_of_verifies accepted) lower.not_ge

end Sys2Proof.Proofs
end

/-! Steps: every command answers, which parts of the state the end of a command, a command and the passing of time leave. -/

section
namespace Sys2Proof.Proofs
open Sys2Proof.Machine Sys2Proof.Laws

/-- Settles O1: `step` takes the front command off the queue and runs it. -/
theorem stepRunsFrontCommand : Obligations.StepRunsFrontCommand := fun _ _ => rfl

/-- Settles O3: every arm of `exec` ends in `settled`, which answers a next state. -/
theorem everyCommandAnswersANextState : Obligations.EveryCommandAnswersANextState := by
  unfold Obligations.EveryCommandAnswersANextState
  intro c s
  cases c <;> exact ⟨_, rfl⟩

/-- No command may write the queue of waiting commands: bit 39 is in no mask. -/
theorem mayWrite_pending (c : Instr) : (mayWrite c &&& allBut 39 == mayWrite c) = true := by
  cases c <;> (dsimp only [mayWrite]; rfl)

/-- Settles O4: no command's mask holds the queue. -/
theorem commandsLeaveTheQueue : Obligations.CommandsLeaveTheQueue := by
  unfold Obligations.CommandsLeaveTheQueue
  intro c s t
  exact exec_keeps (v := State.pending) c (ig_pending.sub (mayWrite_pending c)) t

/-- Settles O6: `endFields` holds none of these fields. -/
theorem settleFrame : Obligations.SettleFrame := by
  unfold Obligations.SettleFrame
  intro s
  exact ⟨keep_settle (ig_fuses.sub rfl) s, keep_settle (ig_flash.sub rfl) s, keep_settle (ig_clock.sub rfl) s,
    keep_settle (ig_boot.sub rfl) s, keep_settle (ig_ctxs.sub rfl) s, keep_settle (ig_gens.sub rfl) s,
    keep_settle (ig_quarantine.sub rfl) s, keep_settle (ig_tables.sub rfl) s, keep_settle (ig_extents.sub rfl) s,
    keep_settle (ig_chunks.sub rfl) s, keep_settle (ig_pubs.sub rfl) s, keep_settle (ig_queues.sub rfl) s,
    keep_settle (ig_descOrder.sub rfl) s, keep_settle (ig_heldOrder.sub rfl) s, keep_settle (ig_colls.sub rfl) s,
    keep_settle (ig_shapers.sub rfl) s, keep_settle (ig_wheel.sub rfl) s, keep_settle (ig_mpc.sub rfl) s,
    keep_settle (ig_power.sub rfl) s, keep_settle (ig_fmEq.sub rfl) s, keep_settle (ig_mbOrder.sub rfl) s,
    keep_settle (ig_pending.sub rfl) s⟩

/-- Settles O8: the check that applies first answers, and a response writes the mailbox alone. -/
theorem firstFailingCheckDecides : Obligations.FirstFailingCheckDecides := by
  unfold Obligations.FirstFailingCheckDecides
  intro s m c checks eff st o first
  unfold State.command
  rw [first]
  rfl

/-- Settles O53: the values of `State.reset`. -/
theorem resetHasInvariants : Obligations.ResetHasInvariants := by
  unfold Obligations.ResetHasInvariants
  exact ⟨⟨Nat.le_refl _, Nat.le_refl _⟩, rfl, rfl, rfl⟩

end Sys2Proof.Proofs
end

/-! Hub clocks (R415, R418, R419, R423). -/

section
namespace Sys2Proof.Proofs
open Sys2Proof.Machine Sys2Proof.Laws

/-- The least of some caps and a clock is at most the clock, and at most each cap that is there. -/
theorem capped_le (l : List (Option Nat)) (mhz : Nat) : capped l mhz ≤ mhz ∧ ∀ c, some c ∈ l → capped l mhz ≤ c := by
  induction l generalizing mhz with
  | nil => exact ⟨Nat.le_refl _, fun c member => absurd member List.not_mem_nil⟩
  | cons x l ih =>
    obtain ⟨clock, caps⟩ := ih (min mhz (x.getD mhz))
    refine ⟨clock.trans (Nat.min_le_left ..), fun c member => ?_⟩
    rcases List.mem_cons.mp member with rfl | member
    · exact clock.trans (Nat.min_le_right ..)
    · exact caps c member

/-- Settles O54: the limit in force is the clock that `State.hubMhz` caps, and the others are among its caps. -/
theorem hubClockBounds : Obligations.HubClockBounds := by
  unfold Obligations.HubClockBounds
  intro s h
  obtain ⟨limit, caps⟩ := capped_le [s.power.avgMhz, s.power.hotMhz.at? h,
    if s.pins.throttle then some (s.variant.mhz / 2) else none,
    if s.power.nack.contains h then some 1200 else none] s.power.limitMhz
  exact ⟨limit, fun low => caps _ (by simp [low]), fun c avg => caps c (by simp [avg]),
    fun c hot => caps c (by simp [hot])⟩

end Sys2Proof.Proofs
end

/-! Byte memories: what is read after a write or a clearing. -/

section
namespace Sys2Proof.Proofs
open Sys2Proof.Machine Sys2Proof.Laws

/-- Reading where bytes were just written gives them back. -/
theorem read_write (m : Memory) (a : Nat) (bs : List Byte) : (m.write a bs).read a bs.length = bs := by
  refine List.ext_getElem (by simp [Memory.read]) fun i short inside => ?_
  simp [Memory.read, get_write m a i bs inside]

/-- A table cut down by its keys reads there as before, and elsewhere as empty. -/
theorem at?_filter_keys {α : Type} (t : Tab α) (p : Nat → Bool) (k : Nat) :
    Tab.at? (t.filter (fun e => p e.1)) k = if p k then t.at? k else none := by
  induction t with
  | nil => simp
  | cons x r ih =>
    obtain ⟨j, w⟩ := x
    by_cases same : j = k
    · subst same
      by_cases kept : p j <;> simp [kept, Tab.at?, ih]
    · by_cases kept : p j <;> simp [kept, Tab.at?, ih, same]

/-- A cleared range reads zero, and nothing else changes. -/
theorem get_clear (m : Memory) (a n c : Nat) : (m.clear a n).get c = if a ≤ c ∧ c < a + n then 0 else m.get c := by
  have read := at?_filter_keys (α := Byte) m (fun k => k < a || a + n ≤ k) c
  unfold Memory.get Memory.clear Tab.or
  rw [read]
  by_cases inside : a ≤ c ∧ c < a + n
  · rw [if_pos inside, if_neg (by simp; omega)]
    rfl
  · rw [if_neg inside, if_pos (by simp; omega)]

/-- Settles O7: the laws of `Laws/Memory.lean`, with `read_write` and `get_clear`. -/
theorem memoryReadsBackWrites : Obligations.MemoryReadsBackWrites := by
  unfold Obligations.MemoryReadsBackWrites
  intro m a bs canonical
  exact ⟨wf_write m a bs canonical, read_write m a bs, fun c => get_write_ne m a c bs,
    fun n => ⟨wf_clear m a n canonical, get_clear m a n⟩⟩

end Sys2Proof.Proofs
end

/-! The power state: what host accesses do to it (R421), and that no step raises a limit above the fused one (R1). -/

section
namespace Sys2Proof.Proofs
open Sys2Proof.Machine Sys2Proof.Laws

/-! Host accesses end STANDBY; packets do not (R421). -/

/-- From `s` to `t` the power state stays, but that a host access may have ended STANDBY. -/
def Roused (s t : State) : Prop := t.power = s.power ∨ t.power = { s.power with standby := false }

section
variable {s t u : State} {src : Src} {p m off q fn val : Nat} {h : Hdr} {cmd : Instr} {host : Nat → Bool} {fab : Hdr → Bool}
  {data : List Byte}

theorem Roused.of_eq (same : t.power = s.power) : Roused s t := .inl same
theorem roused_rouse (s : State) : Roused s s.rouse := .inr rfl
theorem Roused.trans (first : Roused s t) (second : Roused t u) : Roused s u := by
  unfold Roused at *
  rcases first with a | a <;> rcases second with b | b <;> simp [a, b]
/-- What leaves the power state alone may follow. -/
theorem Roused.keep (same : u.power = t.power) (first : Roused s t) : Roused s u := first.trans (.of_eq same)
theorem Roused.settled (first : Roused s t) : settled t = .next u → Roused s u := fun ended =>
  first.keep ((congrArg State.power (Host.Outcome.next.inj ended)).symm.trans
    (keep_settle (v := State.power) (ig_power.sub rfl) t))

/-- A packet's register access leaves the power state as its effect does. -/
theorem regAccess_fabric_power {x : Nat} {f : State → State} (hf : ∀ w, (f w).power = w.power) :
    (s.regAccess (.fabric p h) cmd host fab x f).power = s.power := by
  refine keep_arriveReg (v := State.power) (ig_power.sub rfl) _ _ _ _ _ _ fun w => ?_
  (repeat' split) <;> simp [keep_answerReg (v := State.power) (ig_power.sub rfl), hf]
theorem regAccess_roused {x : Nat} {f : State → State} (hf : ∀ w, (f w).power = w.power) :
    Roused s (s.regAccess src cmd host fab x f) := by
  cases src with
  | func n =>
    unfold State.regAccess
    dsimp only
    split
    · exact (roused_rouse s).keep (hf _)
    · exact roused_rouse s
  | fabric p h => exact .of_eq (regAccess_fabric_power hf)
/-- A packet's mailbox access likewise. -/
theorem mbAccess_fabric_power {f : State → Nat × State} (hf : ∀ w, (f w).2.power = w.power) :
    (s.mbAccess (.fabric p h) m cmd f).power = s.power := by
  refine keep_mbGate (v := State.power) (ig_power.sub rfl) _ _ _ _ _ _ fun w => ?_
  simp [keep_answerReg (v := State.power) (ig_power.sub rfl), hf, keep_consume (v := State.power) (ig_power.sub rfl)]
theorem mbAccess_roused {f : State → Nat × State} (hf : ∀ w, (f w).2.power = w.power) :
    Roused s (s.mbAccess src m cmd f) := by
  cases src with
  | func n =>
    unfold State.mbAccess
    dsimp only
    split
    · exact (roused_rouse s).keep (hf _)
    · exact roused_rouse s
  | fabric p h => exact .of_eq (mbAccess_fabric_power hf)
theorem requestWrite_power (s : State) (src : Src) (m off : Nat) (data : List Byte) :
    (s.requestWrite src m off data).power = s.power := keep_requestWrite (v := State.power) (ig_power.sub rfl) ..
theorem consume_power (s : State) (p : Nat) (h : Hdr) : (s.consume p h).power = s.power :=
  keep_consume (v := State.power) (ig_power.sub rfl) ..
theorem mbRequest_fabric_power : (s.mbRequest (.fabric p h) m off data).power = s.power := by
  refine keep_mbGate (v := State.power) (ig_power.sub rfl) _ _ _ _ _ _ fun w => ?_
  split
  · simp [keep_answerReg (v := State.power) (ig_power.sub rfl), requestWrite_power, consume_power]
  · generalize taking : w.msgTake _ _ _ _ = x
    have took : x.2.power = w.power := taking ▸ keep_msgTake (v := State.power) (ig_power.sub rfl) ..
    obtain ⟨which, y⟩ := x
    cases which with
    | late => exact (consume_power ..).trans took
    | waits => exact took
    | taken =>
      dsimp only at took ⊢
      generalize ending : State.msgDone _ h .ok = z
      have ended : z.2.power = w.power := by
        simp [← ending, keep_msgDone (v := State.power) (ig_power.sub rfl), requestWrite_power, consume_power, took]
      split
      · exact (keep_answerReg (v := State.power) (ig_power.sub rfl) ..).trans ended
      · exact ended
theorem mbRequest_roused : Roused s (s.mbRequest src m off data) := by
  cases src with
  | func n =>
    unfold State.mbRequest
    dsimp only
    split
    · exact mbAccess_roused fun w => requestWrite_power w ..
    · exact .of_eq rfl
  | fabric p h => exact .of_eq mbRequest_fabric_power
/-- What comes in from the fabric leaves the power state alone. -/
theorem transit_power (p : Nat) (pkt : Packet) (s : State) : (s.transit p pkt).power = s.power := by
  have reads (w : State) : (w.plainFd p pkt).power = w.power := by
    unfold State.plainFd
    dsimp only
    split <;> exact regAccess_fabric_power fun _ => rfl
  have delivered (w : State) : (w.localDelivery p pkt).power = w.power := by
    unfold State.localDelivery
    dsimp only
    (repeat' split) <;> simp [reads, mbAccess_fabric_power, keep_refuse (v := State.power) (ig_power.sub rfl), consume_power]
  simp [State.transit, apply_ite State.power, delivered, consume_power, keep_cutThrough (v := State.power) (ig_power.sub rfl),
    keep_refuseBad (v := State.power) (ig_power.sub rfl), keep_multicast (v := State.power) (ig_power.sub rfl), keep_forwardPacket (v := State.power) (ig_power.sub rfl)]

/-! Commands. -/

/-- The commands that write the power state themselves: limits, throttles, standby, bring-up, the test access port, and the
resets. -/
def writesPower : Instr → Bool
  | .powerLimitSet .. | .powerAverageTick .. | .thermalThrottle .. | .regulatorNack .. | .standbyEntry
  | .bringUpStageDone .. | .tapInstructionLoad .. | .powerOn | .sysRstNAssert | .resetDelayExpiry | .aonRailFault | .tapReset
  | .thermalTrip .. | .railFault .. | .mpcWdExpiry .. => true
  | _ => false
/-- The commands that carry out again those that waited. -/
def rerunsOthers : Instr → Bool
  | .transactionTake .. | .messageTrackerTake .. => true
  | _ => false

theorem exec_roused_direct (c : Instr) (plain : writesPower c = false) (direct : rerunsOthers c = false)
    (ran : exec c s = .next t) : Roused s t := by
  by_cases keeps : (mayWrite c &&& allBut 37 == mayWrite c) = true
  · exact .of_eq (exec_keeps (v := State.power) c (ig_power.sub keeps) t ran)
  cases c with
  | powerLimitSet | powerAverageTick | thermalThrottle | regulatorNack | standbyEntry | bringUpStageDone
  | tapInstructionLoad | powerOn | sysRstNAssert | resetDelayExpiry | aonRailFault | tapReset | thermalTrip | railFault
  | mpcWdExpiry => cases plain
  | transactionTake | messageTrackerTake => cases direct
  | dbPiWrite fn q val =>
    refine Roused.settled (?_ : Roused s (match s.queue? q with
      | none => s.rouse
      | some u => if s.hostReaches fn u.part && u.st != .blocked then s.rouse.doorbell q val else s.rouse)) ran
    split
    · exact roused_rouse s
    · split
      · exact (roused_rouse s).keep (keep_doorbell (v := State.power) (ig_power.sub rfl) ..)
      · exact roused_rouse s
  | dbRejectsRead src q =>
    exact (regAccess_roused fun w => keep_modQueue (v := State.power) (ig_power.sub rfl) ..).settled ran
  | eqCiWrite src eq val =>
    exact (regAccess_roused fun w => keep_eqConsume (v := State.power) (ig_power.sub rfl) ..).settled ran
  | eqDroppedRead src eq => exact (regAccess_roused fun w => keep_modEq (v := State.power) (ig_power.sub rfl) ..).settled ran
  | mbLockRead src m => exact (mbAccess_roused fun w => keep_lockRead (v := State.power) (ig_power.sub rfl) ..).settled ran
  | mbLockWrite src m val => exact (mbAccess_roused fun w => keep_lockWrite (v := State.power) (ig_power.sub rfl) ..).settled ran
  | mbDoorbellWrite src m val =>
    exact (mbAccess_roused fun w => keep_mbSubmit (v := State.power) (ig_power.sub rfl) ..).settled ran
  | mbRejectsRead src m => exact (mbAccess_roused fun w => keep_updMb (v := State.power) (ig_power.sub rfl) ..).settled ran
  | mbRequestWrite src m off data => exact mbRequest_roused.settled ran
  | transitForward p pkt => exact (Roused.of_eq (transit_power p pkt s)).settled ran
  | mcWr p h data => exact (Roused.of_eq (transit_power p _ s)).settled ran
  | signalDetect p =>
    exact ((roused_rouse s).keep (keep_inStep (v := State.power) (ig_power.sub rfl) _ _ _ _ fun _ w =>
      keep_updTrain (v := State.power) (ig_power.sub rfl) ..)).settled ran
  | timeBaseLowRead fn =>
    obtain rfl := Host.Outcome.next.inj ran
    exact .inr (keep_settle (v := State.power) (ig_power.sub rfl) _)
  | registerWriteDiscard | standbyWake => exact (roused_rouse s).settled ran
  | _ => exact absurd (by dsimp only [mayWrite]; rfl) keeps

/-- A packet that waited either has its command carried out, or is not one that waits. -/
theorem rerun_cases (i : Instr) (s : State) :
    s.rerun i = s ∨ exec i s = .next (s.rerun i) ∧ writesPower i = false ∧ rerunsOthers i = false := by
  cases i with
  | rdShared | rdOwn | upgrade | rdUncached | cleanEvict | wrBack | wrThru | wrUncached | wrStash | atomic | publish | collWr
  | fabricDoorbell | dbRejectsRead | eqCiWrite | eqDroppedRead | mbLockRead | mbLockWrite | mbDoorbellWrite | mbRequestWrite
  | mbRejectsRead | transitForward => exact .inr ⟨rfl, rfl, rfl⟩
  | _ => exact .inl rfl
theorem rerun_roused (i : Instr) (s : State) : Roused s (s.rerun i) := by
  rcases rerun_cases i s with same | ⟨ran, plain, direct⟩
  · exact .of_eq (congrArg State.power same)
  · exact exec_roused_direct i plain direct ran
theorem takeFirst_roused (hub : Nat) (l : List Instr) (s : State) : Roused s (s.takeFirst hub l) := by
  have taken (i : Instr) (w : State) :
      Roused w ((w.updCoh (fun c => { c with stalled := c.stalled.erase (hub, i) })).rerun i) :=
    (Roused.of_eq (updCoh_power ..)).trans (rerun_roused i _)
  induction l generalizing s with
  | nil => exact .of_eq rfl
  | cons i r ih =>
    unfold State.takeFirst
    dsimp only
    split
    · exact ih s
    · exact taken i s
theorem foldl_rerun_roused (l : List (Nat × Instr)) (s : State) : Roused s (l.foldl (fun s w => s.rerun w.2) s) := by
  induction l generalizing s with
  | nil => exact .of_eq rfl
  | cons w r ih => exact (rerun_roused w.2 s).trans (ih _)

/-- No command writes the power state but those that `writesPower` names, or it ends STANDBY. -/
theorem exec_roused (c : Instr) (plain : writesPower c = false) (ran : exec c s = .next t) : Roused s t := by
  cases c with
  | transactionTake hub => exact (takeFirst_roused hub _ s).settled ran
  | messageTrackerTake iod =>
    exact ((Roused.of_eq (updNet_power ..)).trans (foldl_rerun_roused _ _)).settled ran
  | _ => exact exec_roused_direct _ plain rfl ran
end

end Sys2Proof.Proofs
end

/-! The limits in force (R1): no step raises one above the fused one. -/

section
namespace Sys2Proof.Proofs
open Sys2Proof.Machine Sys2Proof.Laws

/-- The limits in force, in W and MHz. -/
def limits (s : State) : Nat × Nat := (s.power.limitW, s.power.limitMhz)

section
variable {s t : State}

theorem limits_of_power (same : t.power = s.power) : limits t = limits s := by rw [limits, same, limits]
theorem Roused.limits (roused : Roused s t) : limits t = limits s := by
  rcases roused with same | same <;> simp [Proofs.limits, same]
theorem limits_settled (same : limits t = limits s) : Keeps limits s (settled t) := fun _ ended =>
  (Roused.of_eq rfl).settled ended |>.limits.trans same

theorem averageHigh_limits (s : State) : limits s.averageHigh = limits s := by
  unfold State.averageHigh
  dsimp only
  split
  · exact limits_of_power (s := s.updPower _) (keep_hubEvents (v := State.power) (ig_power.sub rfl) ..)
  · rfl
theorem averageLow_limits (s : State) : limits s.averageLow = limits s := by
  unfold State.averageLow
  split
  · rfl
  · split
    · exact limits_of_power (s := s.updPower _) (keep_hubEvents (v := State.power) (ig_power.sub rfl) ..)
    · rfl
theorem record_limits (s : State) (unit temp : Nat) : limits (s.record unit temp) = limits s :=
  limits_of_power (s := s.updPower fun p => { p with temps := p.temps.put unit temp })
    (foldl_keep (v := State.power) (fun _ _ => keep_updUnit (v := State.power) (ig_power.sub rfl) ..) _ _)
theorem hotOn_limits (s : State) (unit : Nat) : limits (s.hotOn unit) = limits s :=
  limits_of_power (s := s.updPower _) (keep_postParts (v := State.power) (ig_power.sub rfl) ..)
theorem hotOff_limits (s : State) (unit : Nat) : limits (s.hotOff unit) = limits s :=
  limits_of_power (s := s.updPower _) (keep_postParts (v := State.power) (ig_power.sub rfl) ..)
theorem tapIsolate_limits (s : State) : limits s.tapIsolate = limits s := by
  refine limits_of_power (s := s.updPower _) (foldl_keep (v := State.power) (fun w p => ?_) _ _)
  dsimp only
  (repeat' split) <;> simp [keep_loseLink (v := State.power) (ig_power.sub rfl), keep_silence (v := State.power) (ig_power.sub rfl),
    keep_windowOver (v := State.power) (ig_power.sub rfl)]
/-- The end of stage RESET ends a thermal trip; no stage writes more of the power state (R424). -/
theorem stageDone_power (s : State) (r : StageReport) :
    (s.stageDone r).power = s.power ∨ (s.stageDone r).power = { s.power with trip := false } := by
  unfold State.stageDone
  split
  · dsimp only
    split
    · exact .inl rfl
    · (repeat' split) <;> simp [keep_measurePowerOn (v := State.power) (ig_power.sub rfl),
        keep_stageTo (v := State.power) (ig_power.sub rfl), keep_stopBoot (v := State.power) (ig_power.sub rfl)]
  all_goals
    refine .inl ?_
    (repeat' split) <;> simp [keep_stageTo (v := State.power) (ig_power.sub rfl), keep_stopBoot (v := State.power) (ig_power.sub rfl),
      keep_failUnits (v := State.power) (ig_power.sub rfl), keep_imageStage (v := State.power) (ig_power.sub rfl),
      keep_measure (v := State.power) (ig_power.sub rfl), keep_memoryStage (v := State.power) (ig_power.sub rfl),
      keep_trainAll (v := State.power) (ig_power.sub rfl), keep_portsStage (v := State.power) (ig_power.sub rfl)]
theorem stageDone_limits (s : State) (r : StageReport) : limits (s.stageDone r) = limits s := by
  rcases stageDone_power s r with same | same <;> simp [limits, same]
/-- A warm reset keeps the power state, awake (Table 13-5). -/
theorem warmReset_roused (s : State) : Roused s s.warmReset := by
  have logic (w : State) : Roused w w.resetLogic := roused_rouse w
  unfold State.warmReset
  refine (Roused.of_eq ?_).trans ((logic _).keep (keep_sweepExts (v := State.power) (ig_power.sub rfl) _))
  rw [keep_savePool (v := State.power) (ig_power.sub rfl), keep_saveCtxs (v := State.power) (ig_power.sub rfl),
    keep_dropColls (v := State.power) (ig_power.sub rfl), keep_walkDir (v := State.power) (ig_power.sub rfl),
    keep_flushAll (v := State.power) (ig_power.sub rfl)]

/-- The limits in force are at most the fused ones of `s`. -/
def WithinFused (s t : State) : Prop := t.power.limitW ≤ s.variant.watts ∧ t.power.limitMhz ≤ s.variant.mhz

theorem WithinFused.of_power {u : State} (same : limits u = limits t) (within : WithinFused s t) : WithinFused s u := by
  obtain ⟨w, mhz⟩ := Prod.mk.inj same
  exact ⟨w.le.trans within.1, mhz.le.trans within.2⟩
theorem coldReset_within (s : State) (kind : Nat) (held renumber : Bool) : WithinFused s (s.coldReset kind held renumber) := by
  unfold WithinFused
  rw [coldReset_power]
  exact ⟨Nat.le_refl _, Nat.le_refl _⟩
theorem halt_within (s : State) : WithinFused s s.halt := by
  have flushed : WithinFused s.flushAll s.halt :=
    (coldReset_within s.flushAll 1 true false).of_power (limits_of_power (updBoot_power ..))
  have variant : s.flushAll.variant = s.variant :=
    congrArg Fuses.variant (keep_flushAll (v := State.fuses) (ig_fuses.sub rfl) s)
  unfold WithinFused at *
  rwa [variant] at flushed

/-- What a stop writes of the power state and the pins leaves the limits. -/
theorem halted_limits (s : State) (f : Power → Power) (x : Pins)
    (kept : ∀ p, (f p).limitW = p.limitW ∧ (f p).limitMhz = p.limitMhz) :
    limits { s.updPower f with pins := x } = limits s := Prod.ext (kept s.power).1 (kept s.power).2

/-- `POWER_LIMIT_SET` leaves the limits, or sets limits within the fused ones (R1). -/
theorem powerLimitSet_limits {m watts mhz : Nat} (within : WithinFused s s) (ran : exec (.powerLimitSet m watts mhz) s = .next t) :
    WithinFused s t := by
  have ended := limits_of_power (s := s.command m { fm := true }
    [chk (s.variant.watts < watts || s.variant.mhz < mhz) .notPermitted]
    (fun s => (s.updPower (fun p => { p with limitW := watts, limitMhz := mhz })).respond m okResp))
    (keep_settle (v := State.power) (ig_power.sub rfl) _)
  obtain rfl := Host.Outcome.next.inj ran
  refine WithinFused.of_power ended ?_
  unfold State.command
  split
  · exact within
  · next passed =>
    rw [firstFail_append] at passed
    split at passed
    · cases passed
    · obtain ⟨above, -⟩ := (firstFail_none_chk ..).mp passed
      rw [Bool.or_eq_false_iff, decide_eq_false_iff_not, decide_eq_false_iff_not, not_lt, not_lt] at above
      exact above

/-- After any command the limits are within the fused ones if they were (R1). -/
theorem exec_within (c : Instr) (within : WithinFused s s) (ran : exec c s = .next t) : WithinFused s t := by
  cases c with
  | powerLimitSet m watts mhz => exact powerLimitSet_limits within ran
  | powerAverageTick watts =>
    refine within.of_power (limits_settled ?_ t ran)
    dsimp only
    split
    · rfl
    · split
      · exact averageHigh_limits _
      · split
        · exact averageLow_limits _
        · rfl
  | thermalThrottle unit temp =>
    refine within.of_power (limits_settled ?_ t ran)
    dsimp only
    (repeat' split) <;> simp [hotOn_limits, hotOff_limits, record_limits]
  | regulatorNack hub =>
    refine within.of_power (limits_settled ?_ t ran)
    split
    · rfl
    · exact limits_of_power (s := s.updPower _) (keep_hubEvents (v := State.power) (ig_power.sub rfl) ..)
  | standbyEntry =>
    refine within.of_power (limits_settled ?_ t ran)
    split
    · exact limits_of_power (t := s.flushAll) (keep_flushAll (v := State.power) (ig_power.sub rfl) s)
    · rfl
  | bringUpStageDone r =>
    refine within.of_power (limits_settled ?_ t ran)
    split
    · rfl
    · exact stageDone_limits s r
  | tapInstructionLoad ir =>
    refine within.of_power (limits_settled ?_ t ran)
    dsimp only
    split
    · rfl
    · split
      · exact tapIsolate_limits _
      · rfl
  | mpcWdExpiry state =>
    refine within.of_power (limits_settled ?_ t ran)
    (repeat' split)
    · rfl
    · exact (warmReset_roused s).limits
    · rfl
  | resetDelayExpiry =>
    obtain rfl := Host.Outcome.next.inj ran
    refine WithinFused.of_power (limits_settled rfl _ rfl) ?_
    split
    · exact within
    · exact within.of_power (warmReset_roused s).limits
    · exact coldReset_within ..
  | powerOn | sysRstNAssert | aonRailFault => exact (coldReset_within s ..).of_power (limits_settled rfl t ran)
  | tapReset =>
    obtain rfl := Host.Outcome.next.inj ran
    refine WithinFused.of_power (limits_settled rfl _ rfl) ?_
    split
    · exact coldReset_within ..
    · exact within
  | thermalTrip sensor =>
    obtain rfl := Host.Outcome.next.inj ran
    refine WithinFused.of_power (limits_settled rfl _ rfl) ?_
    split
    · exact within
    · exact (halt_within s).of_power
        (halted_limits s.halt (fun p => { p with trip := true, temps := p.temps.put sensor (tripPoint sensor) }) _ fun _ => ⟨rfl, rfl⟩)
  | railFault rail =>
    obtain rfl := Host.Outcome.next.inj ran
    refine WithinFused.of_power (limits_settled rfl _ rfl) ?_
    exact (halt_within s).of_power (halted_limits s.halt (fun p => { p with rail := true }) _ fun _ => ⟨rfl, rfl⟩)
  | _ => exact within.of_power (exec_roused _ rfl ran).limits

/-- Settles O5: no step changes the fused limits, and `exec_within` keeps the limits in force within them. -/
theorem stepKeepsFusedLimits : Obligations.StepKeepsFusedLimits := by
  unfold Obligations.StepKeepsFusedLimits
  intro s t fused ran
  have variant : t.variant = s.variant := by
    rcases step_fuses ran with e | ⟨-, e⟩ <;> simp [State.variant, e]
  have within : WithinFused s t := by
    unfold step at ran
    split at ran
    · obtain rfl := Host.Outcome.next.inj ran
      exact WithinFused.of_power (t := s) (limits_of_power (keep_idleStep (v := State.power) (ig_power.sub rfl) s)) fused
    · next c rest front => exact exec_within (s := { s with pending := rest }) c fused ran
  unfold FusedLimits
  rwa [variant]
end

end Sys2Proof.Proofs
end

/-! What commands leave alone: boot flash, clocks, generations, quarantine, watchdog, power, tables and queues. -/

section
namespace Sys2Proof.Proofs
open Sys2Proof.Machine Sys2Proof.Laws

/-- Settles O57: a mask for each command, and `exec_roused` for the accesses that may end STANDBY. -/
theorem configurationFrame : Obligations.ConfigurationFrame := by
  unfold Obligations.ConfigurationFrame
  intro c s t ran
  obtain ⟨mask, is⟩ : ∃ mask, mayWrite c = mask := ⟨_, rfl⟩
  have flash (kept : (mask &&& allBut 1 == mask) = true) : t.flash = s.flash :=
    exec_keeps (v := State.flash) c (is ▸ ig_flash.sub kept) t ran
  have clock (kept : (mask &&& allBut 2 == mask) = true) : t.clock = s.clock :=
    exec_keeps (v := State.clock) c (is ▸ ig_clock.sub kept) t ran
  have gens (kept : (mask &&& allBut 11 == mask) = true) : t.gens = s.gens :=
    exec_keeps (v := State.gens) c (is ▸ ig_gens.sub kept) t ran
  have quarantine (kept : (mask &&& allBut 12 == mask) = true) : t.quarantine = s.quarantine :=
    exec_keeps (v := State.quarantine) c (is ▸ ig_quarantine.sub kept) t ran
  have mpc (kept : (mask &&& allBut 36 == mask) = true) : t.mpc = s.mpc :=
    exec_keeps (v := State.mpc) c (is ▸ ig_mpc.sub kept) t ran
  have power (kept : (mask &&& allBut 37 == mask) = true) : t.power = s.power :=
    exec_keeps (v := State.power) c (is ▸ ig_power.sub kept) t ran
  have fmEq (kept : (mask &&& allBut 8 == mask) = true) : t.fmEq = s.fmEq :=
    exec_keeps (v := State.fmEq) c (is ▸ ig_fmEq.sub kept) t ran
  have fuses (kept : (mask &&& allBut 0 == mask) = true) : t.fuses = s.fuses :=
    exec_keeps (v := State.fuses) c (is ▸ ig_fuses.sub kept) t ran
  have roused (plain : writesPower c = false) : Roused s t := exec_roused c plain ran
  cases c
  all_goals
    dsimp only [mayWrite] at is
    subst is
  case powerOn | sysRstNAssert | resetDelayExpiry | aonRailFault | tapReset | thermalTrip | railFault | mpcWdExpiry => trivial
  case topoExpectSet | fwWrite | fwCommit | claimFlashCopy | recordFlashCopy | retireFlashCopy =>
    exact ⟨trivial, clock rfl, gens rfl, quarantine rfl, mpc rfl, power rfl, fmEq rfl, fuses rfl⟩
  case bringUpStageDone => exact ⟨trivial, clock rfl, gens rfl, quarantine rfl, trivial, trivial, fmEq rfl, fuses rfl⟩
  case partitionReset | ctxTeardown | ctxDestroy | sheepdogExpiry =>
    exact ⟨trivial, clock rfl, trivial, quarantine rfl, mpc rfl, power rfl, fmEq rfl, fuses rfl⟩
  case vfFlr => exact ⟨trivial, trivial, trivial, quarantine rfl, mpc rfl, power rfl, fmEq rfl, fuses rfl⟩
  case timeSteer | timeStepAbsorbed | pfFlr | perstN =>
    exact ⟨flash rfl, trivial, gens rfl, quarantine rfl, mpc rfl, power rfl, fmEq rfl, fuses rfl⟩
  case timeBaseLowRead =>
    exact ⟨flash rfl, trivial, gens rfl, quarantine rfl, mpc rfl, roused rfl, fmEq rfl, fuses rfl⟩
  case quarantineExpiry | teardownComplete =>
    exact ⟨flash rfl, clock rfl, gens rfl, trivial, mpc rfl, power rfl, fmEq rfl, fuses rfl⟩
  case mpcRestartDone | mpcWatchdogKick =>
    exact ⟨flash rfl, clock rfl, gens rfl, quarantine rfl, trivial, power rfl, fmEq rfl, fuses rfl⟩
  case tapInstructionLoad | regulatorNack | standbyEntry | powerAverageTick | thermalThrottle | powerLimitSet =>
    exact ⟨flash rfl, clock rfl, gens rfl, quarantine rfl, mpc rfl, trivial, fmEq rfl, fuses rfl⟩
  case standbyWake | signalDetect | dbPiWrite | dbRejectsRead | eqCiWrite | eqDroppedRead | registerWriteDiscard | mbLockRead
      | mbLockWrite | mbDoorbellWrite | mbRejectsRead | mbRequestWrite | transitForward | mcWr
      | transactionTake | messageTrackerTake =>
    exact ⟨flash rfl, clock rfl, gens rfl, quarantine rfl, mpc rfl, roused rfl, fmEq rfl, fuses rfl⟩
  case fmEqSet => exact ⟨flash rfl, clock rfl, gens rfl, quarantine rfl, mpc rfl, power rfl, trivial, fuses rfl⟩
  case fwSvnRaise => exact ⟨flash rfl, clock rfl, gens rfl, quarantine rfl, mpc rfl, power rfl, fmEq rfl, trivial⟩
  all_goals exact ⟨flash rfl, clock rfl, gens rfl, quarantine rfl, mpc rfl, power rfl, fmEq rfl, fuses rfl⟩

/-- Settles O58: a mask for each command. -/
theorem tablesFrame : Obligations.TablesFrame := by
  unfold Obligations.TablesFrame
  intro c s t ran
  obtain ⟨mask, is⟩ : ∃ mask, mayWrite c = mask := ⟨_, rfl⟩
  have tables (kept : (mask &&& allBut 13 == mask) = true) : t.tables = s.tables :=
    exec_keeps (v := State.tables) c (is ▸ ig_tables.sub kept) t ran
  have extents (kept : (mask &&& allBut 16 == mask) = true) : t.extents = s.extents :=
    exec_keeps (v := State.extents) c (is ▸ ig_extents.sub kept) t ran
  have pubs (kept : (mask &&& allBut 18 == mask) = true) : t.pubs = s.pubs :=
    exec_keeps (v := State.pubs) c (is ▸ ig_pubs.sub kept) t ran
  have colls (kept : (mask &&& allBut 28 == mask) = true) : t.colls = s.colls :=
    exec_keeps (v := State.colls) c (is ▸ ig_colls.sub kept) t ran
  have shapers (kept : (mask &&& allBut 30 == mask) = true) : t.shapers = s.shapers :=
    exec_keeps (v := State.shapers) c (is ▸ ig_shapers.sub kept) t ran
  cases c
  all_goals
    dsimp only [mayWrite] at is
    subst is
  case powerOn | sysRstNAssert | resetDelayExpiry | aonRailFault | tapReset | thermalTrip | railFault | mpcWdExpiry => trivial
  case ctxCreate | mapZero | regionMap | unmapDrainDone | advise =>
    exact ⟨trivial, extents rfl, pubs rfl, colls rfl, shapers rfl⟩
  case teardownComplete =>
    exact ⟨trivial, trivial, pubs rfl, colls rfl, shapers rfl⟩
  case ctxDestroy | retireCopyDone =>
    exact ⟨trivial, trivial, pubs rfl, trivial, shapers rfl⟩
  case partitionResetDone =>
    exact ⟨trivial, trivial, pubs rfl, colls rfl, trivial⟩
  case regionCreate | regionDrainDone | migrate | migrateChunkDone | descriptorComplete | queueDestroy =>
    exact ⟨tables rfl, trivial, pubs rfl, colls rfl, shapers rfl⟩
  case regionPublish | publish | publicationHead | publicationSwap | mirAck | pairFence | mirBeat | hbxBeat
      | mirrorUnpair =>
    exact ⟨tables rfl, extents rfl, trivial, colls rfl, shapers rfl⟩
  case transactionTake | messageTrackerTake =>
    exact ⟨tables rfl, extents rfl, trivial, trivial, shapers rfl⟩
  case collCreate | collDestroy | collContrib | collWr | collStepTimeout | partitionReset | ctxTeardown | vfFlr
      | sheepdogExpiry =>
    exact ⟨tables rfl, extents rfl, pubs rfl, trivial, shapers rfl⟩
  case shaperAlloc | shaperFree | shaperSet | descriptorStart | partitionDestroy =>
    exact ⟨tables rfl, extents rfl, pubs rfl, colls rfl, trivial⟩
  all_goals exact ⟨tables rfl, extents rfl, pubs rfl, colls rfl, shapers rfl⟩

/-- Settles O59: a mask for each command. -/
theorem queuesFrame : Obligations.QueuesFrame := by
  unfold Obligations.QueuesFrame
  intro c s t ran
  obtain ⟨mask, is⟩ : ∃ mask, mayWrite c = mask := ⟨_, rfl⟩
  have queues (kept : (mask &&& allBut 19 == mask) = true) : t.queues = s.queues :=
    exec_keeps (v := State.queues) c (is ▸ ig_queues.sub kept) t ran
  cases c
  all_goals
    dsimp only [mayWrite] at is
    subst is
  case powerOn | sysRstNAssert | resetDelayExpiry | aonRailFault | tapReset | thermalTrip | railFault
      | mpcWdExpiry | queueSampleTick | queueCreate | queueDestroy | queueEnable | queueDisable | queueReset
      | queueSetWatchdog | shaperAttach | dbPiWrite | fabricDoorbell | dbRejectsRead | descriptorAdmit
      | descriptorComplete | heldQueueRetry | shaperWheelVisit | fence | resolveFault | faultTimeout
      | partitionReset | partitionResetDone | partitionResize | ctxTeardown | ctxDestroy | teardownComplete
      | sheepdogExpiry | vfFlr | pairFence | mirBeat | hbxBeat | transactionTake | messageTrackerTake => trivial
  all_goals exact queues rfl

end Sys2Proof.Proofs
end

/-! Boot flash images: only FW_WRITE and FW_COMMIT write them, and every step keeps them in canonical form. -/

section
namespace Sys2Proof.Proofs
open Sys2Proof.Machine Sys2Proof.Laws

/-- The two images in boot flash. -/
def images (s : State) : Image × Image := (s.flash.slotA, s.flash.slotB)
theorem ig_images : Ig (allBut 1) images := by
  intro i hi
  have kept := ig_flash i hi
  unfold Ignores at kept ⊢
  split at kept
  rotate_right
  · trivial
  all_goals exact fun s x => congrArg (fun f : Flash => (f.slotA, f.slotB)) (kept s x)

section
variable {s : State}

/-! What writes boot flash but its images. -/

theorem advanceGen_images (s : State) (n : Nat) : images (s.advanceGen n) = images s :=
  keep_uncacheAll (v := images) (ig_images.sub rfl) ..
theorem startTeardown_images (s : State) (n : Nat) (m : Option Nat) (fm destroy : Bool) :
    images (s.startTeardown n m fm destroy) = images s := by
  simp [State.startTeardown, keep_closeMsgs (v := images) (ig_images.sub rfl), keep_cancelWork (v := images) (ig_images.sub rfl),
    advanceGen_images, keep_blockQueues (v := images) (ig_images.sub rfl), keep_modCtx (v := images) (ig_images.sub rfl)]
theorem startReset_images (s : State) (p : Nat) (m : Option Nat) : images (s.startReset p m) = images s :=
  (foldl_keep (v := images) (fun w _ => startTeardown_images w ..) _ _).trans
    (keep_modPart (v := images) (ig_images.sub rfl) ..)
theorem saveCtxs_images (s : State) : images s.saveCtxs = images s :=
  foldl_keep (v := images) advanceGen_images _ s
theorem warmReset_images (s : State) : images s.warmReset = images s := by
  simp [State.warmReset, keep_sweepExts (v := images) (ig_images.sub rfl), keep_resetLogic (v := images) (ig_images.sub rfl),
    keep_savePool (v := images) (ig_images.sub rfl), saveCtxs_images, keep_dropColls (v := images) (ig_images.sub rfl),
    keep_walkDir (v := images) (ig_images.sub rfl), keep_flushAll (v := images) (ig_images.sub rfl)]
theorem atCold_images (f : Flash) (unretire : List Retired) (renumber : Bool) :
    (f.atCold unretire renumber).slotA = f.slotA ∧ (f.atCold unretire renumber).slotB = f.slotB := by
  cases renumber <;> exact ⟨rfl, rfl⟩
theorem coldReset_images (s : State) (kind : Nat) (held renumber : Bool) : images (s.coldReset kind held renumber) = images s := by
  obtain ⟨a, b⟩ := atCold_images s.flashUnits s.pool.unretire renumber
  unfold images
  rw [coldReset_flash, a, b]
  rfl
theorem halt_images (s : State) : images s.halt = images s :=
  (keep_updBoot (v := images) (ig_images.sub rfl) ..).trans ((coldReset_images s.flushAll ..).trans
    (keep_flushAll (v := images) (ig_images.sub rfl) s))
theorem stageDone_images (s : State) (r : StageReport) : images (s.stageDone r) = images s := by
  have tripOver : Ig powerField images := ig_images.sub rfl
  unfold State.stageDone
  split
  case h_1 =>
    dsimp only
    (repeat' split) <;> simp [keep_measurePowerOn (v := images) (ig_images.sub rfl),
      keep_stageTo (v := images) (ig_images.sub rfl), keep_stopBoot (v := images) (ig_images.sub rfl), tripOver.power rfl]
  case h_3 => exact keep_imageStage (ig_images.sub rfl) s
  case h_5 => exact keep_memoryStage (ig_images.sub rfl) s r
  case h_6 =>
    split
    · exact keep_stopBoot (v := images) (ig_images.sub rfl) ..
    · simp only [keep_trainAll (v := images) (ig_images.sub rfl), keep_stageTo (v := images) (ig_images.sub rfl),
        keep_updBoot (v := images) (ig_images.sub rfl)]
      rfl
  case h_7 => exact keep_portsStage (ig_images.sub rfl) s r
  case h_8 => rfl
  all_goals
    split <;> simp [keep_stageTo (v := images) (ig_images.sub rfl), keep_stopBoot (v := images) (ig_images.sub rfl),
      keep_failUnits (v := images) (ig_images.sub rfl), keep_measure (v := images) (ig_images.sub rfl)]
/-- What a stop writes of the power state and the pins leaves the images. -/
theorem halted_images (s : State) (f : Power → Power) (x : Pins) : images { s.updPower f with pins := x } = images s := rfl

/-- Only `FW_WRITE` and `FW_COMMIT` write the images. -/
theorem exec_images (c : Instr) (write : ∀ m off data, c ≠ .fwWrite m off data) (commit : ∀ m len, c ≠ .fwCommit m len) :
    Keeps images s (exec c s) := by
  cases c with
  | fwWrite m off data => exact absurd rfl (write m off data)
  | fwCommit m len => exact absurd rfl (commit m len)
  | claimFlashCopy | recordFlashCopy | retireFlashCopy => exact keeps_settled (ig_images.sub rfl) rfl
  | topoExpectSet m store t =>
    refine keeps_command (ig_images.sub rfl) fun w => ?_
    dsimp only
    (repeat' split) <;> simp only [keep_respond (v := images) (ig_images.sub rfl), keep_enterTopo (v := images) (ig_images.sub rfl)] <;> rfl
  | bringUpStageDone r =>
    refine keeps_settled (ig_images.sub rfl) ?_
    split
    · rfl
    · exact stageDone_images s r
  | partitionReset m part => exact keeps_command (ig_images.sub rfl) fun w => startReset_images w ..
  | ctxTeardown m tag =>
    refine keeps_settled (ig_images.sub rfl) ?_
    split <;> refine keep_command (ig_images.sub rfl) _ _ _ _ _ fun w => ?_
    · rfl
    · split
      · exact keep_respond (ig_images.sub rfl) ..
      · exact startTeardown_images w ..
  | ctxDestroy m tag =>
    refine keeps_command (ig_images.sub rfl) fun w => ?_
    split
    · exact startTeardown_images w ..
    · exact (keep_respond (ig_images.sub rfl) ..).trans (keep_dropCtx (ig_images.sub rfl) ..)
  | vfFlr vf =>
    refine keeps_settled (ig_images.sub rfl) ?_
    dsimp only
    (repeat' split) <;> simp [startReset_images, keep_updMb (v := images) (ig_images.sub rfl),
      keep_endSessions (v := images) (ig_images.sub rfl), (ig_images.sub rfl : Ig (2 ^ 2) images).clock rfl,
      keep_dropHolder (v := images) (ig_images.sub rfl)]
  | sheepdogExpiry q =>
    refine keeps_settled (ig_images.sub rfl) ?_
    dsimp only
    (repeat' split) <;> simp [startTeardown_images, keep_postPart (v := images) (ig_images.sub rfl),
      keep_postEq (v := images) (ig_images.sub rfl)]
  | mpcWdExpiry state =>
    refine keeps_settled (ig_images.sub rfl) ?_
    split
    · rfl
    · split
      · exact warmReset_images s
      · rfl
  | powerOn | sysRstNAssert | aonRailFault => exact keeps_settled (ig_images.sub rfl) (coldReset_images ..)
  | resetDelayExpiry =>
    refine keeps_settled (ig_images.sub rfl) ?_
    split
    · rfl
    · exact warmReset_images s
    · exact coldReset_images ..
  | tapReset =>
    refine keeps_settled (ig_images.sub rfl) ?_
    split
    · exact coldReset_images ..
    · rfl
  | thermalTrip sensor =>
    refine keeps_settled (ig_images.sub rfl) ?_
    split
    · rfl
    · exact (halted_images s.halt (fun p => { p with trip := true, temps := p.temps.put sensor (tripPoint sensor) }) _).trans
        (halt_images s)
  | railFault rail =>
    exact keeps_settled (ig_images.sub rfl)
      ((halted_images s.halt (fun p => { p with rail := true }) _).trans (halt_images s))
  | _ => exact exec_keeps _ (ig_images.sub (by dsimp only [mayWrite]; rfl))

/-! Canonical form. -/

/-- Both images are in canonical form. -/
def Canonical (i : Image × Image) : Prop := i.1.mem.wf = true ∧ i.2.mem.wf = true

/-- `FW_WRITE` writes bytes to slot B; `FW_COMMIT` exchanges the slots. -/
theorem exec_canonical {c : Instr} {t : State} (canonical : Canonical (images s)) (ran : exec c s = .next t) :
    Canonical (images t) := by
  obtain ⟨a, b⟩ := canonical
  by_cases write : ∃ m off data, c = .fwWrite m off data
  · obtain ⟨m, off, data, rfl⟩ := write
    obtain rfl := Host.Outcome.next.inj ran
    rw [keep_settle (v := images) (ig_images.sub rfl)]
    unfold State.command
    split
    · exact ⟨a, b⟩
    · exact ⟨a, wf_write _ off data b⟩
  by_cases commit : ∃ m len, c = .fwCommit m len
  · obtain ⟨m, len, rfl⟩ := commit
    obtain rfl := Host.Outcome.next.inj ran
    rw [keep_settle (v := images) (ig_images.sub rfl)]
    unfold State.command
    split
    · exact ⟨a, b⟩
    · dsimp only
      split
      · exact ⟨a, b⟩
      · exact ⟨b, a⟩
  rw [exec_images c (fun m off data e => write ⟨m, off, data, e⟩) (fun m len e => commit ⟨m, len, e⟩) t ran]
  exact ⟨a, b⟩

/-- Settles O52: `exec_canonical` for a command, and an idle step writes no flash. -/
theorem stepKeepsFlashImagesCanonical : Obligations.StepKeepsFlashImagesCanonical := by
  unfold Obligations.StepKeepsFlashImagesCanonical
  intro s t a b ran
  unfold step at ran
  split at ran
  · obtain rfl := Host.Outcome.next.inj ran
    rw [keep_idleStep (v := State.flash) (ig_flash.sub rfl)]
    exact ⟨a, b⟩
  · next c rest front => exact exec_canonical (s := { s with pending := rest }) ⟨a, b⟩ ran
end

end Sys2Proof.Proofs
end

/-! The idle step: the clock ticks, and the counters of waiting traffic of listed ports may count. -/

section
namespace Sys2Proof.Proofs
open Sys2Proof.Machine Sys2Proof.Laws

/-- From `s` to `t` nothing changes but the counters of ports that the table lists. -/
def CountsOnly (s t : State) : Prop :=
  t = { s with ports := t.ports } ∧ (∀ p x, s.ports.at? p = some x → ∃ stats, t.ports.at? p = some { x with stats })
    ∧ (∀ p, s.ports.at? p = none → t.ports.at? p = none)

section
variable {s t u : State}

theorem CountsOnly.refl (s : State) : CountsOnly s s := ⟨rfl, fun _ x listed => ⟨x.stats, listed⟩, fun _ unlisted => unlisted⟩
theorem CountsOnly.trans (first : CountsOnly s t) (second : CountsOnly t u) : CountsOnly s u := by
  obtain ⟨rest, listed, unlisted⟩ := first
  obtain ⟨rest', listed', unlisted'⟩ := second
  refine ⟨by rw [rest', rest], fun p x here => ?_, fun p here => unlisted' p (unlisted p here)⟩
  obtain ⟨stats, there⟩ := listed p x here
  obtain ⟨stats', there'⟩ := listed' p _ there
  exact ⟨stats', there'⟩
/-- A listed port stays listed. -/
theorem CountsOnly.has {p : Nat} (counts : CountsOnly s t) (listed : s.ports.has p = true) : t.ports.has p = true := by
  obtain ⟨x, here⟩ := Option.isSome_iff_exists.mp listed
  obtain ⟨stats, there⟩ := counts.2.1 p x here
  exact Option.isSome_iff_exists.mpr ⟨_, there⟩
/-- Counting on a listed port changes its counters alone. -/
theorem linkStat_counts {p i n : Nat} (listed : s.ports.has p = true) : CountsOnly s (s.linkStat p i n) := by
  obtain ⟨x, here⟩ := Option.isSome_iff_exists.mp listed
  refine ⟨rfl, fun j y at_j => ?_, fun j at_j => ?_⟩
  · by_cases same : j = p
    · subst same
      obtain rfl := Option.some.inj (here.symm.trans at_j)
      refine ⟨x.stats.upd i 0 (fun c => sat 32 (c + n)), (at?_put ..).trans ?_⟩
      rw [Tab.or, here, Option.getD_some]
    · exact ⟨y.stats, (at?_put_ne _ _ _ _ same).trans at_j⟩
  · have other : j ≠ p := by
      rintro rfl
      rw [here] at at_j
      cases at_j
    exact (at?_put_ne _ _ _ _ other).trans at_j
/-- A key of a listed entry is listed. -/
theorem has_of_mem {α : Type} {t : Tab α} {e : Nat × α} (member : e ∈ t) : t.has e.1 = true := by
  induction t with
  | nil => cases member
  | cons x r ih =>
    obtain ⟨j, w⟩ := x
    unfold Tab.has Tab.at?
    split
    · rfl
    · next other =>
      rcases List.mem_cons.mp member with rfl | later
      · exact absurd rfl other
      · exact ih later
/-- A fold of steps that change only counters, over listed ports. -/
theorem foldl_counts {f : State → Nat × Port → State} (step : ∀ w e, w.ports.has e.1 = true → CountsOnly w (f w e))
    (l : List (Nat × Port)) (s : State) (listed : ∀ e ∈ l, s.ports.has e.1 = true) : CountsOnly s (l.foldl f s) := by
  induction l generalizing s with
  | nil => exact .refl s
  | cons e l ih =>
    have head := step s e (listed e List.mem_cons_self)
    exact head.trans (ih _ fun x later => head.has (listed x (List.mem_cons_of_mem _ later)))
theorem linkTime_counts (s : State) : CountsOnly s s.linkTime := by
  unfold State.linkTime
  split
  · exact .refl s
  · refine foldl_counts (fun w e listed => ?_) _ s fun e member => has_of_mem (List.mem_of_mem_filter member)
    dsimp only
    split <;> split
    · exact (linkStat_counts listed).trans (linkStat_counts ((linkStat_counts listed).has listed))
    · exact linkStat_counts listed
    · exact linkStat_counts listed
    · exact .refl w
end

/-- Settles O2: a step on an empty queue is `State.idleStep`, which ticks the clock and then counts. -/
theorem idleStepTicksTheClock : Obligations.IdleStepTicksTheClock := by
  unfold Obligations.IdleStepTicksTheClock
  intro s empty
  obtain ⟨rest, listed, unlisted⟩ := linkTime_counts s.idle
  refine ⟨s.idle.linkTime.ports, ?_, fun between => ?_, listed, unlisted⟩
  · have idles : step s = .next s.idleStep := by
      unfold step
      rw [empty]
    exact idles.trans (congrArg Host.Outcome.next rest)
  · have waits : s.idle.linkTime = s.idle := if_pos (by simpa [State.idle, Clock.tick] using between)
    rw [waits]
    rfl

end Sys2Proof.Proofs
end

/-! A cold reset: it starts from one state, and then rebuilds the pool. -/

section
namespace Sys2Proof.Proofs
open Sys2Proof.Machine Sys2Proof.Laws

/-- The state that a cold reset starts from, before the pool is rebuilt. -/
def coldStart (s : State) (kind : Nat) (held renumber : Bool) : State :=
  let on := kind == 0
  let flash := s.flashUnits.atCold s.pool.unretire renumber
  { State.reset with
    fuses := s.fuses
    flash
    clock := if on then {} else { aon := s.clock.aon }
    boot := { kind, startAon := if on then 0 else s.clock.aon, straps := s.boot.straps, incarnation := flash.incarnation,
              topo := flash.topo, renumber, held }
    pins := { throttle := s.pins.throttle, msix := s.pins.msix }
    gens := flash.gens
    quarantine := if on then [] else s.quarantine
    coh := { frac := s.coh.fracNext, fracNext := s.coh.fracNext }
    ports := s.coldPorts on
    mirror := { claim := flash.claim, highest := flash.claim }
    fw := if on then {} else { measure := s.fw.measure, tapLog := s.fw.tapLog }
    power := { limitW := s.variant.watts, limitMhz := s.variant.mhz, trip := s.power.trip, temps := s.power.temps }
    free := s.free
    pending := s.pending }
/-- The fields that rebuilding the pool may write: bring-up, pool, engines and ports. -/
def coldPoolFields : Nat := 2 ^ 3 ||| 2 ^ 26 ||| 2 ^ 27 ||| 2 ^ 32
theorem coldStart_powered {s : State} {kind : Nat} {held renumber : Bool} (powered : kind ≠ 0) :
    (coldStart s kind held renumber).clock = { aon := s.clock.aon }
      ∧ (coldStart s kind held renumber).fw = { measure := s.fw.measure, tapLog := s.fw.tapLog }
      ∧ (coldStart s kind held renumber).quarantine = s.quarantine := by
  have on : ¬(kind == 0) = true := by simpa using powered
  exact ⟨if_neg on, if_neg on, if_neg on⟩
theorem coldReset_eq (s : State) (kind : Nat) (held renumber : Bool) :
    s.coldReset kind held renumber = if kind == 0 then (coldStart s kind held renumber).coldPool
      else (coldStart s kind held renumber).coldPool.updPool
        (fun p => { p with log := s.pool.log, logSeq := s.pool.logSeq, logLost := s.pool.logLost }) := rfl
/-- What the pool's rebuilding leaves is as the reset starts. -/
theorem keep_coldReset_start {α : Type} {v : State → α} (hv : Ig coldPoolFields v) (s : State) (kind : Nat)
    (held renumber : Bool) : v (s.coldReset kind held renumber) = v (coldStart s kind held renumber) := by
  rw [coldReset_eq]
  split
  · exact keep_coldPool (hv.sub rfl) _
  · exact (keep_updPool (hv.sub rfl) ..).trans (keep_coldPool (hv.sub rfl) _)
/-- But at power-on, the error log stays. -/
theorem coldReset_log {s : State} {kind : Nat} {held renumber : Bool} (powered : kind ≠ 0) :
    (s.coldReset kind held renumber).pool.log = s.pool.log ∧ (s.coldReset kind held renumber).pool.logSeq = s.pool.logSeq := by
  rw [coldReset_eq, if_neg (by simpa using powered)]
  exact ⟨rfl, rfl⟩
/-- A cold reset changes no generation in flash. -/
theorem atCold_gens (f : Flash) (unretire : List Retired) (renumber : Bool) :
    (f.atCold unretire renumber).gens = f.gens ∧ (f.atCold unretire renumber).claim = f.claim := by
  cases renumber <;> exact ⟨rfl, rfl⟩

/-- Settles O55: `coldStart`, which the rebuilding of the pool changes in its own fields only. -/
theorem coldResetLeaves : Obligations.ColdResetLeaves := by
  unfold Obligations.ColdResetLeaves
  intro s kind held renumber
  obtain ⟨gens, claim⟩ := atCold_gens s.flashUnits s.pool.unretire renumber
  obtain ⟨stage, kindIs, heldIs⟩ := coldReset_boot s kind held renumber
  have mirror := keep_coldReset_start (v := State.mirror) (ig_mirror.sub rfl) s kind held renumber
  refine ⟨_, rfl, coldReset_fuses .., coldReset_flash .., ?_, ?_, ?_, ?_, ?_, ?_, ?_, ?_, ?_, ?_, ?_, ?_, ?_, ?_, ?_, ?_, stage,
    kindIs, heldIs, coldReset_pending .., fun powered => ⟨?_, ?_, ?_, coldReset_log powered⟩⟩
  · exact (keep_coldReset_start (v := State.gens) (ig_gens.sub rfl) ..).trans gens
  · exact keep_coldReset_start (v := State.parts) (ig_parts.sub rfl) ..
  · exact keep_coldReset_start (v := State.ctxs) (ig_ctxs.sub rfl) ..
  · exact keep_coldReset_start (v := State.regions) (ig_regions.sub rfl) ..
  · exact keep_coldReset_start (v := State.extents) (ig_extents.sub rfl) ..
  · exact keep_coldReset_start (v := State.tables) (ig_tables.sub rfl) ..
  · exact keep_coldReset_start (v := State.queues) (ig_queues.sub rfl) ..
  · exact keep_coldReset_start (v := State.descs) (ig_descs.sub rfl) ..
  · exact keep_coldReset_start (v := State.eqs) (ig_eqs.sub rfl) ..
  · exact keep_coldReset_start (v := State.colls) (ig_colls.sub rfl) ..
  · exact keep_coldReset_start (v := State.shapers) (ig_shapers.sub rfl) ..
  · exact keep_coldReset_start (v := State.pubs) (ig_pubs.sub rfl) ..
  · exact congrArg Mirror.role mirror
  · exact (congrArg Mirror.highest mirror).trans claim
  · rw [coldReset_power]
  · rw [coldReset_power]
  · rw [keep_coldReset_start (v := State.clock) (ig_clock.sub rfl), (coldStart_powered powered).1]
  · rw [keep_coldReset_start (v := State.fw) (ig_fw.sub rfl), (coldStart_powered powered).2.1]
  · rw [keep_coldReset_start (v := State.quarantine) (ig_quarantine.sub rfl), (coldStart_powered powered).2.2]

end Sys2Proof.Proofs
end

/-! Queries answer, and change nothing else. -/

section
namespace Sys2Proof.Proofs
open Sys2Proof.Machine Sys2Proof.Laws

section
variable {s : State} {m : Nat} {c : Call} {l : List Check} {eff : State → State}

/-- A command whose effect answers, once its checks have passed, answers. -/
theorem command_answers (answers : firstFail l = none → ∃ r, eff s = s.respond m r) :
    ∃ r, settled (s.command m c l eff) = .next (s.respond m r).settle := by
  have answered : ∃ r, s.command m c l eff = s.respond m r := by
    unfold State.command
    split
    · exact ⟨_, rfl⟩
    · next passed =>
      rw [firstFail_append] at passed
      split at passed
      · cases passed
      · exact answers passed
  obtain ⟨r, same⟩ := answered
  exact ⟨r, congrArg settled same⟩
/-- A check that always refuses. -/
theorem command_unknown {o : Nat} {l : List Check} : ∃ r, settled (s.command m c (bad true o :: l) eff) = .next (s.respond m r).settle :=
  command_answers fun passed => absurd passed nofun
end

/-- Settles O56: every query's effect is a response. -/
theorem queriesOnlyAnswer : Obligations.QueriesOnlyAnswer := by
  unfold Obligations.QueriesOnlyAnswer
  intro s m q query
  cases q with
  | partitionQuery | memSlotQuery | cohDirRead | cohStats | portQuery | routeQuery | memConfigQuery | memAddrDecode | logRead
  | memRetireQuery | mirrorQuery | fwQuery | bootQuery | discover =>
    subst query
    exact command_answers fun _ => ⟨_, rfl⟩
  | queueQuery n q | queueSamples n q =>
    subst query
    simp only [exec, execQueueQuery, execQueueSamples, State.queueCmd]
    split
    · exact command_unknown
    · exact command_answers fun _ => ⟨_, rfl⟩
  | ctxTableRead n tag cva level first =>
    subst query
    refine command_answers fun _ => ?_
    split
    · exact ⟨_, rfl⟩
    · dsimp only
      split <;> exact ⟨_, rfl⟩
  | topoExpectQuery n =>
    subst query
    refine command_answers fun _ => ?_
    split <;> exact ⟨_, rfl⟩
  | regionQuery n rid =>
    subst query
    simp only [exec, execRegionQuery]
    split
    · exact command_unknown
    · exact command_answers fun _ => ⟨_, rfl⟩
  | faultQuery n fid =>
    subst query
    simp only [exec, execFaultQuery]
    split
    · exact command_unknown
    · exact command_answers fun _ => ⟨_, rfl⟩
  | collQuery n tag cid first =>
    subst query
    simp only [exec, execCollQuery]
    split
    · exact command_answers fun passed => absurd ((firstFail_none_bad ..).mp passed).2 nofun
    · exact command_answers fun _ => ⟨_, rfl⟩
  | memPcSnapshot n u =>
    subst query
    refine command_answers fun passed => ?_
    have frozen := ((firstFail_none_bad ..).mp ((firstFail_none_chk ..).mp passed).2).1
    split
    · exact ⟨_, rfl⟩
    · next running => simp [running] at frozen
  | bootServeQuery n sid =>
    subst query
    refine command_answers fun passed => ?_
    obtain ⟨serving, -⟩ := (firstFail_none_bad ..).mp passed
    split
    · next none => simp [none] at serving
    · exact ⟨_, rfl⟩
  | _ => cases query

end Sys2Proof.Proofs
end

/-! The decoder of mailbox requests: each field of a body fits its width, so a decoded command is well-formed (R371, R372). -/

section
namespace Sys2Proof.Proofs
open Sys2Proof.Machine Sys2Proof.Laws

/-! Fields. -/

/-- A value fits a field of `w` bytes. -/
def FitsBytes (v w : Nat) : Prop := v < 2 ^ (8 * w)

theorem leNat_lt (bs : List Byte) : leNat bs < 2 ^ (8 * bs.length) := by
  induction bs with
  | nil => exact Nat.one_pos
  | cons b r ih =>
    have byte := b.isLt
    rw [leNat, List.length_cons, Nat.mul_succ, Nat.pow_add]
    omega
theorem fitsBytes_leNat {bs : List Byte} {w : Nat} (short : bs.length ≤ w) : FitsBytes (leNat bs) w :=
  (leNat_lt bs).trans_le (Nat.pow_le_pow_right Nat.two_pos (Nat.mul_le_mul_left 8 short))
/-- The fields read from a body fit the widths they are read with. -/
theorem fields_fit (b : List Byte) (o : Nat) (ws : List Nat) : List.Forall₂ FitsBytes (fields b o ws).1 ws := by
  induction ws generalizing o with
  | nil => exact .nil
  | cons w ws ih => exact .cons (fitsBytes_leNat (List.length_take_le ..)) (ih _)
/-- Values that fit a list of widths, taken one by one. -/
theorem forall_fit_cons {P : List Nat → Prop} {w : Nat} {ws : List Nat} :
    (∀ vs, List.Forall₂ FitsBytes vs (w :: ws) → P vs)
      ↔ ∀ v, v < 2 ^ (8 * w) → ∀ vs, List.Forall₂ FitsBytes vs ws → P (v :: vs) := by
  refine ⟨fun all v fit vs rest => all _ (.cons fit rest), fun all vs fit => ?_⟩
  cases fit with
  | cons first rest => exact all _ first _ rest
theorem forall_fit_nil {P : List Nat → Prop} : (∀ vs, List.Forall₂ FitsBytes vs [] → P vs) ↔ P [] :=
  ⟨fun all => all [] .nil, fun here vs fit => by cases fit; exact here⟩
/-- Every value of a list of fields of one width fits it. -/
theorem fit_replicate {vs : List Nat} {n w : Nat} (fit : List.Forall₂ FitsBytes vs (List.replicate n [w]).flatten) :
    vs.length = n ∧ ∀ v ∈ vs, v < 2 ^ (8 * w) := by
  induction n generalizing vs with
  | zero =>
    cases fit
    exact ⟨rfl, fun v none => absurd none List.not_mem_nil⟩
  | succ n ih =>
    cases fit with
    | cons first rest =>
      obtain ⟨length, all⟩ := ih rest
      exact ⟨congrArg (· + 1) length, List.forall_mem_cons.mpr ⟨first, all⟩⟩

/-! Commands read from a body. -/

section
variable {b : List Byte} {ws per post : List Nat} {i : Instr} {n : Nat}

/-- What `read1` makes is well-formed if it is of all fields that fit. -/
theorem read1_wf {f : List Nat → Option Instr}
    (made : ∀ vs, List.Forall₂ FitsBytes vs ws → (f vs).all Instr.wf = true) (decoded : read1 b ws f = some (i, n)) :
    i.wf = true := by
  obtain ⟨j, here, same⟩ := Option.map_eq_some_iff.mp decoded
  obtain ⟨rfl, -⟩ := Prod.mk.inj same
  simpa [here] using made _ (fields_fit b 0 ws)
/-- What `readN` makes, likewise. -/
theorem readN_wf {f : List Nat → List Nat → List Nat → Option Instr}
    (made : ∀ head, List.Forall₂ FitsBytes head ws → ∀ count ≤ 4096,
      ∀ body, List.Forall₂ FitsBytes body (List.replicate count per).flatten →
      ∀ tail, List.Forall₂ FitsBytes tail post → (f head body tail).all Instr.wf = true)
    (decoded : readN b ws per post f = some (i, n)) : i.wf = true := by
  obtain ⟨j, here, same⟩ := Option.map_eq_some_iff.mp decoded
  obtain ⟨rfl, -⟩ := Prod.mk.inj same
  generalize countIs : min ((fields b 0 ws).1.getLastD 0) 4096 = count at here
  have listLen : (List.replicate count per).flatten.length = count * per.length := by simp
  have all := fields_fit b 0 (ws ++ (List.replicate count per).flatten ++ post)
  rw [List.append_assoc] at all
  have rest := List.forall₂_drop_append _ _ _ all
  have good := made ((fields b 0 (ws ++ (List.replicate count per).flatten ++ post)).1.take ws.length) ?_ count
    (countIs ▸ Nat.min_le_right ..) (((fields b 0 (ws ++ (List.replicate count per).flatten ++ post)).1.drop ws.length).take
      (count * per.length)) ?_ ((fields b 0 (ws ++ (List.replicate count per).flatten ++ post)).1.drop
      (ws.length + count * per.length)) ?_
  · rwa [here] at good
  · rw [List.append_assoc]
    exact List.forall₂_take_append _ _ _ all
  · rw [List.append_assoc, ← listLen]
    exact List.forall₂_take_append _ _ _ rest
  · rw [List.append_assoc, ← listLen, ← List.drop_drop]
    exact List.forall₂_drop_append _ _ _ rest
end
/-- A list of fields of one width: each fits it, and they are at most 4096. -/
theorem readN_list_wf {b : List Byte} {ws post : List Nat} {w : Nat} {i : Instr} {n : Nat}
    {f : List Nat → List Nat → List Nat → Option Instr}
    (made : ∀ head, List.Forall₂ FitsBytes head ws → ∀ tail, List.Forall₂ FitsBytes tail post →
      ∀ body : List Nat, body.length ≤ 4096 → (∀ v ∈ body, v < 2 ^ (8 * w)) → (f head body tail).all Instr.wf = true)
    (decoded : readN b ws [w] post f = some (i, n)) : i.wf = true := by
  refine readN_wf (fun head headFits count few body bodyFits tail tailFits => ?_) decoded
  obtain ⟨length, all⟩ := fit_replicate bodyFits
  exact made head headFits tail tailFits body (length.trans_le few) all
/-- A signed field's value lies in its range. -/
theorem signed64_bounds {v : Nat} (fit : v < 2 ^ 64) : -(2 ^ 63 : Int) ≤ signed64 v ∧ signed64 v < 2 ^ 63 := by
  unfold signed64
  split <;> omega
theorem signed32_bounds {v : Nat} (fit : v < 2 ^ 32) : -(2 ^ 31 : Int) ≤ signed32 v ∧ signed32 v < 2 ^ 31 := by
  unfold signed32
  split <;> omega
/-- Pairs of a field of 2 bytes and one of 1. -/
theorem pairUp_fits {n : Nat} {vs : List Nat} (fit : List.Forall₂ FitsBytes vs (List.replicate n [2, 1]).flatten) :
    ∀ x ∈ pairUp vs, x.1 < 2 ^ 16 ∧ x.2 < 2 ^ 8 := by
  induction n generalizing vs with
  | zero =>
    cases fit
    exact fun x none => absurd none List.not_mem_nil
  | succ n ih =>
    cases fit with
    | cons first rest =>
      cases rest with
      | cons second rest => exact List.forall_mem_cons.mpr ⟨⟨first, second⟩, ih rest⟩

/-! The six parts of the decoder: in each arm, the fields fit what the command carries. -/

section
variable {m op : Nat} {b : List Byte} {i : Instr} {n : Nat}

theorem cmd1_wf (mailbox : m ≤ 64) : cmd1 m op b = some (i, n) → i.wf = true := by
  unfold cmd1
  split <;> intro decoded
  case h_18 => cases decoded
  case h_15 =>
    refine readN_list_wf ?_ decoded
    simp only [forall_fit_cons, forall_fit_nil, Nat.reduceMul, Option.all_some]
    dsimp only [Instr.wf]
    simp +contextual [ofMb, fits, mailbox, -Nat.reducePow]
  all_goals
    refine read1_wf ?_ decoded
    simp only [forall_fit_cons, forall_fit_nil, Nat.reduceMul, Option.all_some]
    dsimp only [Instr.wf, CtxReq.wf]
    simp +contextual [ofMb, fits, mailbox, -Nat.reducePow]
theorem cmd2_wf (mailbox : m ≤ 64) : cmd2 m op b = some (i, n) → i.wf = true := by
  unfold cmd2
  split <;> intro decoded
  case h_18 => cases decoded
  all_goals
    refine read1_wf ?_ decoded
    simp only [forall_fit_cons, forall_fit_nil, Nat.reduceMul, Option.all_some]
    dsimp only [Instr.wf, RegionReq.wf, QueueReq.wf, EqReq.wf]
    simp +contextual [ofMb, fits, mailbox, -Nat.reducePow]
theorem cmd3_wf (mailbox : m ≤ 64) : cmd3 m op b = some (i, n) → i.wf = true := by
  unfold cmd3
  split <;> intro decoded
  case h_24 => cases decoded
  case h_1 =>
    refine readN_list_wf ?_ decoded
    simp only [forall_fit_cons, forall_fit_nil, Nat.reduceMul, Option.all_some]
    dsimp only [Instr.wf]
    simp +contextual [ofMb, fits, mailbox, -Nat.reducePow]
  all_goals
    refine read1_wf ?_ decoded
    simp only [forall_fit_cons, forall_fit_nil, Nat.reduceMul, Option.all_some]
    dsimp only [Instr.wf, CollReq.wf, MirrorReq.wf]
    simp +contextual [ofMb, fits, mailbox, -Nat.reducePow]
theorem cmd4_wf (mailbox : m ≤ 64) : cmd4 m op b = some (i, n) → i.wf = true := by
  unfold cmd4
  split <;> intro decoded
  case h_17 => cases decoded
  case h_11 =>
    refine readN_list_wf ?_ decoded
    simp only [forall_fit_cons, forall_fit_nil, Nat.reduceMul, Option.all_some]
    dsimp only [Instr.wf]
    simp +contextual [ofMb, fits, mailbox, -Nat.reducePow]
  case h_12 =>
    refine readN_list_wf ?_ decoded
    simp only [forall_fit_cons, forall_fit_nil, Nat.reduceMul, Option.all_some]
    dsimp only [Instr.wf]
    simp +contextual [ofMb, fits, mailbox, -Nat.reducePow]
  case h_16 =>
    refine readN_wf (fun head headFits count few body bodyFits => ?_) decoded
    have pairs := pairUp_fits bodyFits
    revert headFits
    revert head
    simp only [forall_fit_cons, forall_fit_nil, Nat.reduceMul, Option.all_some]
    dsimp only [Instr.wf]
    simp +contextual [ofMb, fits, mailbox, -Nat.reducePow]
    exact fun _ _ _ _ _ _ node ep member => pairs (node, ep) member
  all_goals
    refine read1_wf ?_ decoded
    simp only [forall_fit_cons, forall_fit_nil, Nat.reduceMul, Option.all_some]
    dsimp only [Instr.wf]
    simp +contextual [ofMb, fits, mailbox, -Nat.reducePow]
theorem cmd5_wf (mailbox : m ≤ 64) : cmd5 m op b = some (i, n) → i.wf = true := by
  unfold cmd5
  split <;> intro decoded
  case h_18 => cases decoded
  case h_17 =>
    refine read1_wf ?_ decoded
    simp only [forall_fit_cons, forall_fit_nil, Nat.reduceMul, Option.all_some]
    dsimp only [Instr.wf]
    simp only [ofMb, fits, mailbox, decide_true, List.all_nil, Bool.true_and, Bool.and_eq_true, decide_eq_true_eq]
    exact fun _ step _ rate => ⟨signed64_bounds step, signed32_bounds rate⟩
  all_goals
    refine read1_wf ?_ decoded
    simp only [forall_fit_cons, forall_fit_nil, Nat.reduceMul, Option.all_some]
    dsimp only [Instr.wf]
    simp +contextual [ofMb, fits, mailbox, -Nat.reducePow]
theorem cmd6_wf (mailbox : m ≤ 64) : cmd6 m op b = some (i, n) → i.wf = true := by
  unfold cmd6
  split <;> intro decoded
  case h_15 => cases decoded
  case h_3 =>
    refine read1_wf (fun vs fit => ?_) decoded
    rw [List.append_assoc, List.cons_append, List.cons_append, List.nil_append] at fit
    cases fit with
    | cons storeFits fit =>
    cases fit with
    | cons policyFits fit =>
    have length := fit.length_eq
    simp only [List.length_append, List.length_replicate] at length
    have few : fld (leNat ((b.drop 8).take 8)) 15 8 < 256 := Nat.mod_lt _ (by decide)
    have store : _ < 2 ^ 8 := storeFits
    dsimp only [Option.all_some, Instr.wf, TopoExpect.wf]
    simp only [ofMb, fits, mailbox, decide_true, List.all_cons, List.all_nil, Bool.true_and, Bool.and_true, Bool.and_eq_true,
      decide_eq_true_eq, List.length_map, List.length_take, List.length_drop]
    omega
  case h_9 =>
    refine readN_list_wf ?_ decoded
    simp only [forall_fit_cons, forall_fit_nil, Nat.reduceMul, Option.all_some]
    dsimp only [Instr.wf]
    simp +contextual [ofMb, fits, mailbox, toBytes, -Nat.reducePow]
  all_goals
    refine read1_wf ?_ decoded
    simp only [forall_fit_cons, forall_fit_nil, Nat.reduceMul, Option.all_some]
    dsimp only [Instr.wf, ServeReq.wf]
    simp +contextual [ofMb, fits, mailbox, -Nat.reducePow]

/-- Settles O60: every opcode is decoded by one of the six parts. -/
theorem decodedCommandsAreWellFormed : Obligations.DecodedCommandsAreWellFormed := by
  unfold Obligations.DecodedCommandsAreWellFormed
  intro m op body i n mailbox
  unfold cmdOf
  split
  · exact cmd1_wf mailbox
  · exact cmd1_wf mailbox
  · exact cmd1_wf mailbox
  · exact cmd1_wf mailbox
  · exact cmd2_wf mailbox
  · exact cmd2_wf mailbox
  · exact cmd3_wf mailbox
  · exact cmd3_wf mailbox
  · exact cmd3_wf mailbox
  · exact cmd3_wf mailbox
  · exact cmd4_wf mailbox
  · exact cmd5_wf mailbox
  · exact cmd5_wf mailbox
  · exact cmd5_wf mailbox
  · exact cmd6_wf mailbox
  · exact cmd6_wf mailbox
  · nofun
end

end Sys2Proof.Proofs
end

/-! Partitions, slot tables and shapers: what their commands do once every check passes. -/

section
namespace Sys2Proof.Proofs
open Sys2Proof.Machine Sys2Proof.Laws

/-! Mailbox commands that are served and pass their checks. -/

section
variable {s t : State} {m : Nat} {c : Call} {l : List Check} {eff : State → State}

@[simp] theorem firstFail_nil : firstFail [] = none := rfl
/-- A command that its mailbox may run and that no check refuses ends in its effect. -/
theorem command_completes (served : s.serves m c = true) (passed : firstFail l = none) (effect : eff s = t) :
    settled (s.command m c l eff) = .next t.settle :=
  congrArg settled ((command_ok s m c l eff served passed).trans effect)
/-- The response that a mailbox was just given is the one that waits in it. -/
theorem respond_result (s : State) (m : Nat) (r : Resp) : ((s.respond m r).mb m).result = some r :=
  congrArg Mailbox.result (or_upd s.mbs m {} (fun b => { b with result := some r }))
end

/-! Free numbers. -/

theorem scanFree_some {used : Nat → Bool} {n x y : Nat} (found : scanFree used n x = some y) :
    x ≤ y ∧ y < x + n ∧ used y = false := by
  induction n generalizing x with
  | zero => cases found
  | succ n ih =>
    unfold scanFree at found
    split at found
    · obtain ⟨above, below, free⟩ := ih found
      exact ⟨by omega, by omega, free⟩
    · next free =>
      obtain rfl := Option.some.inj found
      exact ⟨Nat.le_refl _, by omega, Bool.eq_false_iff.mpr free⟩
theorem scanFree_none {used : Nat → Bool} {n x y : Nat} (full : scanFree used n x = none) (above : x ≤ y) (below : y < x + n) :
    used y = true := by
  induction n generalizing x with
  | zero => omega
  | succ n ih =>
    unfold scanFree at full
    split at full
    · next taken =>
      rcases Nat.eq_or_lt_of_le above with rfl | later
      · exact taken
      · exact ih full later (by omega)
    · cases full
/-- What `firstFree` finds is in range and free. -/
theorem firstFree_some {used : Nat → Bool} {lo hi v y : Nat} (found : firstFree used lo hi v = some y) :
    lo ≤ y ∧ y < hi ∧ used y = false := by
  unfold firstFree at found
  split at found
  · cases found
  · next nonempty =>
    have start : v % (hi - lo) < hi - lo := Nat.mod_lt _ (by omega)
    dsimp only at found
    split at found
    · next here =>
      obtain rfl := Option.some.inj found
      obtain ⟨above, below, free⟩ := scanFree_some here
      exact ⟨by omega, by omega, free⟩
    · obtain ⟨above, below, free⟩ := scanFree_some found
      exact ⟨above, by omega, free⟩
/-- It finds none only where all numbers are used. -/
theorem firstFree_none {used : Nat → Bool} {lo hi v y : Nat} (full : firstFree used lo hi v = none) (above : lo ≤ y)
    (below : y < hi) : used y = true := by
  unfold firstFree at full
  rw [if_neg (by omega)] at full
  have start : v % (hi - lo) < hi - lo := Nat.mod_lt _ (by omega)
  dsimp only at full
  split at full
  · cases full
  · next high =>
    by_cases side : lo + v % (hi - lo) ≤ y
    · exact scanFree_none high side (by omega)
    · exact scanFree_none full above (by omega)
/-- A listed key is among the keys. -/
theorem mem_keys_of_has {α : Type} {t : Tab α} {k : Nat} (listed : t.has k = true) : k ∈ t.map (·.1) := by
  induction t with
  | nil => cases listed
  | cons x r ih =>
    obtain ⟨j, w⟩ := x
    unfold Tab.has Tab.at? at listed
    split at listed
    · next same => exact same ▸ List.mem_cons_self
    · exact List.mem_cons_of_mem _ (ih listed)
/-- A table of fewer than `n` entries has a free key below `n`. -/
theorem firstFree_has {α : Type} {t : Tab α} {n : Nat} (room : t.length < n) (v : Nat) :
    ∃ i, firstFree t.has 0 n v = some i ∧ i < n ∧ t.has i = false := by
  cases found : firstFree t.has 0 n v with
  | some i =>
    obtain ⟨-, below, free⟩ := firstFree_some found
    exact ⟨i, rfl, below, free⟩
  | none =>
    have all : List.range n ⊆ t.map (·.1) := fun i member =>
      mem_keys_of_has (firstFree_none found (Nat.zero_le i) (List.mem_range.mp member))
    have many := (List.nodup_range.subperm all).length_le
    rw [List.length_range, List.length_map] at many
    omega

/-! Partitions. -/

/-- Settles O9: each command's effect, once its checks have passed. -/
theorem partitionCommandsComplete : Obligations.PartitionCommandsComplete := by
  unfold Obligations.PartitionCommandsComplete
  intro s m
  refine ⟨fun blk b isB served absent shape fresh => ?_, fun blk q served absent shape here fits strict => ?_,
    fun part inRange served => ?_, fun part inRange served here empty => ?_, fun part q inRange served here idle both => ?_,
    fun part q here resetting running torn done => ?_, fun part eq e q inRange queue here owner served => ?_,
    fun eq vec inRange queue served => ?_⟩
  · subst isB
    refine ⟨s.draw.1, command_completes served ?_ ?_⟩
    · rw [List.cons_append, firstFail_none_chk, firstFail_append, shape]
      exact ⟨absent, by simp [fresh, firstFail_none_chk]⟩
    · rw [← keep_draw (v := State.parts) (ig_parts.sub rfl) s]
  · refine command_completes served ?_ ?_
    · rw [List.cons_append, firstFail_none_chk, firstFail_append, shape]
      exact ⟨absent, by simp [here, firstFail_none_chk]⟩
    · have keeps : (({ cfg := blk } : Partition).strict && !q.strict && s.strictBreaks (bfld blk 5 0)) = false := by
        revert strict
        cases ({ cfg := blk } : Partition).strict <;> cases q.strict <;> simp
      simp only [here, Option.getD_some, fits, keeps, Bool.false_eq_true, if_false, apply_ite (State.respond · m okResp)]
  · exact command_completes served (by simp [firstFail_none_bad, inRange]) rfl
  · refine ⟨_, command_completes served ?_ rfl, at?_del .., rfl, List.mem_append_right _ List.mem_cons_self⟩
    simpa [firstFail_none_bad, firstFail_none_chk, inRange, empty] using here
  · exact command_completes served (by simp [firstFail_none_bad, firstFail_none_chk, inRange, here, idle, both]) rfl
  · refine congrArg settled ?_
    dsimp only
    rw [here]
    dsimp only
    rw [if_neg (by simp [resetting, running, torn]), if_neg (by simp [done])]
  · refine command_completes (c := { own := [some part, (s.eq? eq).map (·.part)] }) (by rwa [queue]) ?_ ?_
    · simp [firstFail_none_bad, firstFail_none_chk, inRange, queue, here, owner]
    · simp [here]
  · exact command_completes served (by simpa [firstFail_none_bad, inRange] using queue) rfl

/-! Slot tables and shapers. -/

/-- Every group of a mask is marked for the commit; its active table stays. -/
theorem commitAll_group (gs : List Nat) (s : State) (g : Nat) :
    let u := gs.foldl (fun s g => s.updGroup g (fun x => { x with commit := true })) s
    ((s.group g).commit = true ∨ g ∈ gs → (u.group g).commit = true) ∧ (u.group g).active = (s.group g).active := by
  induction gs generalizing s with
  | nil => exact ⟨fun h => h.resolve_right List.not_mem_nil, rfl⟩
  | cons k gs ih =>
    obtain ⟨commit, active⟩ := ih (s.updGroup k (fun x => { x with commit := true }))
    have head : (s.updGroup k (fun x => { x with commit := true })).group g
        = if g = k then { s.group g with commit := true } else s.group g := by
      unfold State.updGroup State.group
      split
      · next same => exact same ▸ or_upd s.pool.groups g {} (fun x => { x with commit := true })
      · next other => exact or_upd_ne s.pool.groups k g {} (fun x => { x with commit := true }) other
    refine ⟨fun marked => commit ?_, active.trans ?_⟩
    · rw [head]
      split
      · exact .inl rfl
      · next other => exact marked.imp_right fun member => (List.mem_cons.mp member).resolve_left other
    · rw [head]
      split <;> rfl

/-- Settles O10: each command's effect, once its checks have passed. -/
theorem slotTableAndShaperCommandsComplete : Obligations.SlotTableAndShaperCommandsComplete := by
  unfold Obligations.SlotTableAndShaperCommandsComplete
  refine ⟨fun s m => ⟨fun g first entries served inRange present some fits good => ?_, fun mask served present fed few => ?_,
      fun g copy served inRange present which => ?_, rfl⟩,
    fun s m => ⟨fun part word inRange served good here room => ?_, fun sh x here served unused => ?_,
      fun sh x word inRange here served good => ?_, fun p q word inRange here served good => ?_,
      fun q u sh x here there same named served => ?_, fun q u here none served => ?_,
      fun port part served inRange present target => ?_, fun part => rfl, fun q t here => ?_⟩⟩
  · have start : first < 1024 := by
      have := List.length_pos_iff.mpr some
      omega
    exact command_completes served (by
      simpa [firstFail_none_bad, firstFail_none_chk, inRange, present, some, fits, start] using good) rfl
  · refine ⟨_, command_completes served ?_ rfl, List.mem_append_right _ List.mem_cons_self, fun g member => ?_⟩
    · rw [firstFail_none_chk, firstFail_none_chk, firstFail_none_chk]
      exact ⟨present, fed, few, rfl⟩
    · obtain ⟨commit, active⟩ := commitAll_group (bitsOf mask 64) s g
      exact ⟨commit (.inr member), active⟩
  · exact command_completes served (by simp [firstFail_none_bad, firstFail_none_chk, inRange, present, which]) rfl
  · obtain ⟨i, found, below, free⟩ := firstFree_has room s.draw.1
    have drawn : s.draw.2.shapers = s.shapers := keep_draw (v := State.shapers) (ig_shapers.sub rfl) s
    have time : s.draw.2.clock = s.clock := keep_draw (v := State.clock) (ig_clock.sub rfl) s
    refine ⟨_, command_completes served ?_ rfl, i, below, free, ?_, ?_⟩
    · simpa [firstFail_none_bad, firstFail_none_chk, inRange, good, room] using here
    · simp [drawn, found, time]
    · simp [drawn, found, respond_result]
  · refine command_completes (c := { own := [(s.shapers.at? sh).map (·.1)] }) (by rwa [here]) ?_ rfl
    simp [firstFail_none_bad, firstFail_none_chk, here, unused]
  · have low : ¬0xFFFFFF00 ≤ sh := by omega
    refine ⟨_, (congrArg settled (if_neg low)).trans
      (command_completes (c := { own := [(s.shapers.at? sh).map (·.1)] }) (by rwa [here]) ?_ rfl), ?_, respond_result ..⟩
    · simp [firstFail_none_bad, here, good]
    · exact (respond_shapers ..).trans (foldl_keep (v := State.shapers)
        (fun _ _ => keep_wheelSet (v := State.shapers) (ig_shapers.sub rfl) ..) _ _)
  · have high : 0xFFFFFF00 ≤ 0xFFFFFF00 + p := by omega
    have named : 0xFFFFFF00 + p - 0xFFFFFF00 = p := by omega
    refine (congrArg settled (if_pos high)).trans ?_
    rw [named]
    exact command_completes served (by simp [firstFail_none_bad, firstFail_none_chk, inRange, here, good]) rfl
  · simp only [exec, execShaperAttach, here]
    refine command_completes (by rwa [there]) ?_ ?_
    · simp [firstFail_none_bad, there, same]
    · rw [if_neg named]
  · simp only [exec, execShaperAttach, here]
    refine command_completes (by rwa [none]) ?_ rfl
    simp [firstFail_none_bad]
  · refine command_completes served ?_ rfl
    rcases target with rfl | ⟨small, there⟩ <;>
      simp_all [firstFail_none_bad, firstFail_none_chk, Option.isSome_iff_ne_none]
  · refine congrArg settled ?_
    rw [here]

end Sys2Proof.Proofs
end

/-! Contexts, event queues and faults: what their commands do once every check passes. -/

section
namespace Sys2Proof.Proofs
open Sys2Proof.Machine Sys2Proof.Laws

/-! What is said of a tag, by the context it names. -/

section
variable {s : State} {tag : Nat} {c : Context}

theorem ctxBad_of (here : s.ctxOfTag tag = some c) : s.ctxBad tag = false := by simp [State.ctxBad, here]
theorem ctxStandby_of (here : s.ctxOfTag tag = some c) : s.ctxStandby tag = (s.standby && c.mirror) := by
  simp [State.ctxStandby, here]
theorem ctxTearing_of (here : s.ctxOfTag tag = some c) : s.ctxTearing tag = (c.st == .tearing) := by
  simp [State.ctxTearing, here]
theorem tagPart_of (here : s.ctxOfTag tag = some c) : s.tagPart tag = some c.part := by simp [State.tagPart, here]
end

/-- Settles O11: each command's effect, once its checks have passed. -/
theorem contextCommandsComplete : Obligations.ContextCommandsComplete := by
  unfold Obligations.ContextCommandsComplete
  intro s m
  refine ⟨fun r p e n t here queue inRange owner served quota mode mirror window timeout room free fits => ?_,
    fun tag c first entries here calm alone served some few fits good => ?_, fun tag c here served alone calm => ?_,
    fun tag c here served alone torn rested => ?_, fun tag c here served alone active => ?_,
    fun tag c here served alone calm => ?_, fun n c here tearing running calm none quiet => ?_, fun n => rfl⟩
  · have served' : s.serves m { own := [some r.part, (s.eq? r.eq).map (·.part)], need := 1 } = true := by
      simpa [queue] using served
    refine command_completes served' ?_ ?_
    · have mirrors : r.mirror ≤ 1 ∧ ((r.mirror == 1) = true → s.variant.mirror = true ∧ s.standby = false ∧ s.pairWhole = true) := by
        rcases mirror with none | ⟨one, rest⟩
        · simp [none]
        · exact ⟨one.le, fun _ => rest⟩
      obtain ⟨small, both⟩ := mirrors
      have windows : (if r.window = 0xFFFFFFFF then 1 else r.window) ≤ 64 := by
        rcases window with small | all
        · rwa [if_neg (by omega)]
        · rw [if_pos all]
          omega
      have timeouts : (if r.timeout = 0xFFFFFFFF then 1000 else r.timeout) ≠ 0
          ∧ (if r.timeout = 0xFFFFFFFF then 1000 else r.timeout) ≤ 60000 := by
        rcases timeout with ⟨low, high⟩ | all
        · rw [if_neg (by omega)]
          exact ⟨by omega, high⟩
        · rw [if_pos all]
          omega
      cases mirrored : (r.mirror == 1) <;>
        simp_all [firstFail_none_chk, firstFail_none_bad]
    · simp only [free, fits, Option.bind_some, Option.map_some]
  · have start : first < 16384 := by omega
    refine command_completes (c := { own := [s.tagPart tag] }) (by rwa [tagPart_of here]) ?_ rfl
    have lone : (s.standby && c.mirror) = false := by rwa [Bool.and_comm]
    simp only [firstFail_none_bad, firstFail_none_chk, ctxBad_of here, ctxStandby_of here, ctxTearing_of here, good, lone]
    simp [calm, start, fits, few, Nat.ne_of_gt some]
  · simp only [exec, execCtxTeardown, here]
    refine command_completes served ?_ ?_
    · simp [firstFail_none_chk, alone, calm]
    · by_cases current : s.tagOf (tagNum tag) = tag ∧ c.st = .active
      · simp [current]
      · rw [if_neg current, if_pos]
        rw [Bool.or_eq_true, bne_iff_ne, bne_iff_ne]
        exact Decidable.not_and_iff_or_not.mp current
  · refine command_completes (c := { own := [s.tagPart tag] }) (by rwa [tagPart_of here]) ?_ ?_
    · simpa [firstFail_none_bad, firstFail_none_chk, ctxBad_of here, ctxStandby_of here, here, torn, Bool.and_comm, alone]
        using rested
    · simp [here, torn]
  · refine command_completes (c := { own := [s.tagPart tag] }) (by rwa [tagPart_of here]) ?_ ?_
    · simp [firstFail_none_bad, firstFail_none_chk, ctxBad_of here, ctxStandby_of here, here, active, Bool.and_comm, alone]
    · simp [here, active]
  · refine command_completes (c := { own := [s.tagPart tag] }) (by rwa [tagPart_of here]) ?_ ?_
    · simp [firstFail_none_bad, firstFail_none_chk, ctxBad_of here, ctxStandby_of here, ctxTearing_of here, calm,
        Bool.and_comm, alone]
    · simp [here]
  · refine congrArg settled ?_
    rw [here]
    exact if_neg (by simpa [tearing, running, calm, quiet] using none)

/-! Packets and accesses that are let in. -/

/-- A packet whose turn it is reaches what takes it. -/
theorem arrive_turn {s : State} {p : Nat} {h : Hdr} {k : State → State} (turn : s.turn p h = true) : s.arrive p h k = k s := by
  simp only [State.turn, Bool.and_eq_true, Bool.not_eq_true'] at turn
  obtain ⟨⟨first, heard⟩, whole⟩ := turn
  simp [State.arrive, first, heard, whole]
/-- A register access that is let in takes effect and is answered. -/
theorem regAccess_open {s : State} {src : Src} {cmd : Instr} {host : Nat → Bool} {fab : Hdr → Bool} {v : Nat}
    {f : State → State} (letIn : s.regOpen src host fab = true) :
    s.regAccess src cmd host fab v f = (f (s.regTaken src v)).regReply src v := by
  unfold State.regAccess
  cases src with
  | func n =>
    have mine : host n = true := letIn
    simp [mine, State.regTaken, State.regReply]
  | fabric p h =>
    simp only [State.regOpen, Bool.and_eq_true, Bool.not_eq_true', beq_iff_eq, bne_iff_ne, Option.isNone_iff_eq_none] at letIn
    obtain ⟨⟨⟨⟨⟨turn, clear⟩, endpoint⟩, gate⟩, length⟩, admitted⟩ := letIn
    simp [State.arriveReg, arrive_turn turn, clear, endpoint, gate, length, admitted, State.regTaken, State.regReply]

/-! Event queues and faults. -/

/-- Settles O12: each command's effect, once its checks have passed or its access is let in. -/
theorem eventQueueAndFaultCommandsComplete : Obligations.EventQueueAndFaultCommandsComplete := by
  unfold Obligations.EventQueueAndFaultCommandsComplete
  refine ⟨fun s m => ⟨fun r p q owner here fresh served count low high small big aligned inside notify mod mod' time alone => ?_,
      fun eq e here served unnamed => ?_, fun src eq val e here letIn => ⟨?_, ?_⟩, fun eq => rfl⟩,
    fun s m => ⟨fun fid action e here served known => ?_, fun fid e here served => ?_, fun hub slot e here fresh => ?_,
      fun hub slot e here => ?_, fun hub e w l here first room => ?_⟩⟩
  · refine command_completes (c := { own := [(s.eq? r.eq).map (·.part)], need := 1 }) (by rwa [fresh]) ?_ (by rw [owner]; rfl)
    rcases notify with n | ⟨n, vector⟩ | ⟨n, tc⟩ <;>
      simp_all [firstFail_none_chk, firstFail_none_bad, firstFail_none_cons] <;> omega
  · refine command_completes (c := { own := [(s.eq? eq).map (·.part)] }) (by rwa [here]) ?_ rfl
    simp [firstFail_none_chk, firstFail_none_bad, here, unnamed]
  · refine congrArg settled ?_
    unfold State.eqAccess
    rw [here]
    exact regAccess_open letIn
  · refine congrArg settled ?_
    unfold State.eqAccess
    rw [here]
    exact regAccess_open letIn
  · simp only [exec, execResolveFault, here]
    exact command_completes served (by simp [firstFail_none_bad, known]) rfl
  · simp only [exec, execFaultQuery, here]
    exact command_completes served rfl rfl
  · refine congrArg settled ?_
    rw [here]
    simp [fresh]
  · refine congrArg settled ?_
    rw [here]
  · refine congrArg settled ?_
    rw [here]
    simp only [room, first, if_true]

end Sys2Proof.Proofs
end

/-! Regions, publication, migration and mappings: what their commands do once every check passes. -/

section
namespace Sys2Proof.Proofs
open Sys2Proof.Machine Sys2Proof.Laws

/-! Regions. -/

/-- What the mirror flag of a new region asks for: a checkpoint policy, a part that has mirrors, and a whole pair. -/
theorem regionMirror_passes {s : State} {r : RegionReq}
    (mirror : r.mirror = 0 ∨ (r.mirror = 1 ∧ r.policy = 1 ∧ s.variant.mirror = true ∧ s.standby = false ∧ s.pairWhole = true)) :
    ((r.mirror == 1 && !s.variant.mirror) = false ∧ (r.mirror == 1 && s.standby) = false ∧ (r.mirror == 1 && !s.pairWhole) = false)
      ∧ r.mirror ≤ 1 ∧ (r.mirror == 1 && r.policy != 1) = false := by
  rcases mirror with none | ⟨one, policy, variant, active, whole⟩
  · simp [none]
  · simp [one, policy, variant, active, whole]

/-- Settles O13: each command's effect, once its checks have passed. -/
theorem regionCommandsComplete : Obligations.RegionCommandsComplete := by
  unfold Obligations.RegionCommandsComplete
  intro s m
  have drawn : s.draw.2.regions = s.regions := keep_draw (v := State.regions) (ig_regions.sub rfl) s
  refine ⟨fun r p rid here served quota absent inRange tier policy mirror shape grain hash size strict owner room free => ?_,
    fun r p rid e t here served quota absent inRange tier policy mirror shape grain hash some_ small strict owner room free fits
      extent => ?_,
    fun rid r here served => ?_, fun rid r p here part served alone calm unmapped unpublished ringless still idle => ?_,
    fun rid r p here part torn used held zeroed => ?_, fun chunk rid t here thawed recalled v zeroed => ?_,
    fun rid r here hold used => ?_⟩
  · obtain ⟨⟨variant, active, whole⟩, small, check⟩ := regionMirror_passes mirror
    refine command_completes served ?_ ?_
    · simp only [firstFail_none_chk, firstFail_none_bad, here, absent, variant, active, whole, check, shape, strict]
      simp
      omega
    · simp [size, drawn, free, here, room]
  · obtain ⟨⟨variant, active, whole⟩, least, check⟩ := regionMirror_passes mirror
    have finite : r.size ≠ 0xFFFFFFF := by omega
    have nonempty : r.size ≠ 0 := by omega
    refine command_completes served ?_ ?_
    · simp only [firstFail_none_chk, firstFail_none_bad, here, absent, variant, active, whole, check, shape, strict]
      simp
      omega
    · simp [finite, nonempty, fits, extent, drawn, free, here, room]
  · simp only [exec, execRegionQuery, here]
    exact command_completes served rfl rfl
  · simp only [exec, execRegionDestroy, here]
    refine command_completes served ?_ ?_
    · simp only [firstFail_none_chk, alone, unpublished, ringless, still, idle]
      simp [calm, unmapped]
    · by_cases waits : p.zeroing = 0 <;> simp [part, waits]
  · refine congrArg settled ?_
    rw [here]
    by_cases waits : p.zeroing = 0 <;> simp [torn, used, held, zeroed, part, waits]
  · refine congrArg settled ?_
    rw [here]
    subst zeroed
    dsimp only
    rw [thawed, recalled]
    exact (if_neg Bool.false_ne_true).trans ((if_neg Bool.false_ne_true).trans (if_congr (by simp) rfl rfl))
  · refine congrArg settled ?_
    rw [here]
    exact if_pos (by simp [hold, used])

/-! Requests at the home, and descriptors that run. -/

/-- A request that the home takes reaches what handles it, in its class. -/
theorem atHome_takes {s : State} {p : Nat} {h : Hdr} {c : Context} {k : Context → State → State} (taken : s.homeTakes p h c) :
    s.atHome p h k = k c (s.classed h) := by
  obtain ⟨turn, home, gate, here⟩ := taken
  unfold State.atHome
  rw [arrive_turn turn]
  simp [home, gate, here, State.classed]
/-- A started descriptor that has not issued its work does its work. -/
theorem onStarted_running {s : State} {q i typ : Nat} {d : Desc} {u : Queue} {f : Desc → Queue → State → State}
    (running : s.running q i typ d u) : s.onStarted q i typ f = f d u s := by
  obtain ⟨desc, queue, started, unmoved, type, test⟩ := running
  simp [State.onStarted, desc, queue, started, unmoved, type, test]

/-! Publication and migration. -/

/-- Settles O14: each row's effect, once its checks have passed. -/
theorem publicationAndMigrationComplete : Obligations.PublicationAndMigrationComplete := by
  unfold Obligations.PublicationAndMigrationComplete
  refine ⟨fun s => ⟨fun m target staging v w served alone => ?_, fun p h c target staging v w taken => ?_,
      fun target b first fresh unshared => ?_, fun target b t g u first here there drained room recalled => ?_⟩,
    fun s => ⟨fun q i d u st running check => ?_, fun q i d u r e t running check here fits extent => ?_,
      fun rid r g x t here moving extent recalled u copied => ?_⟩⟩
  · exact command_completes served (by simp only [firstFail_none_chk, alone, firstFail_nil, and_self]) rfl
  · exact congrArg settled (atHome_takes taken)
  · refine congrArg settled ?_
    rw [first]
    simp [fresh, unshared]
  · refine congrArg settled ?_
    rw [first]
    dsimp only
    rw [here, there]
    dsimp only
    rw [if_neg (by simp [drained, room]), recalled]
    rfl
  · refine congrArg settled ((onStarted_running running).trans ?_)
    simp [check]
  · refine congrArg settled ((onStarted_running running).trans ?_)
    simp only [check, here, fits, extent, if_true]
  · refine congrArg settled ?_
    subst copied
    rw [here]
    dsimp only
    rw [moving]
    simp [extent, recalled]

/-! Mappings. -/

/-- Settles O15: each row's effect, once its checks have passed. -/
theorem mappingCommandsComplete : Obligations.MappingCommandsComplete := by
  unfold Obligations.MappingCommandsComplete
  intro s m
  refine ⟨fun tag c cva rid r off len rd wr t ctx region served aligned offset length some_ inside below fresh rd1 wr1 mirror owner
      alone calm live mapped => ?_,
    fun tag c cva len t ctx served aligned length some_ below fresh alone calm mapped => ?_,
    fun tag c cva len mode ctx served aligned length some_ below modes alone calm ringless leaves u added => ?_,
    fun n c u cva t ctx first uncovered quiet unmapped => ?_, fun n c u cva ctx first => ?_,
    fun tag c cva level first f ctx served below levels start table body read => ?_,
    fun q i d u c ls lines running ctx isLs isLines fits => ?_⟩
  · refine command_completes (c := { own := [s.tagPart tag, (s.region? rid).map (·.part)] })
      (by rwa [tagPart_of ctx, region]) ?_ ?_
    · simp only [firstFail_none_chk, firstFail_none_bad, ctxBad_of ctx, ctxTearing_of ctx, alone, ctx, region, rangeBad,
        Option.getD_some, fresh]
      simp [aligned, offset, length, mirror, owner, calm, live, rd1, wr1, inside]
      omega
    · have nonempty : len ≠ 0 := by omega
      simp only [if_neg nonempty, ctx, Option.getD_some, mapped]
  · refine command_completes (c := { own := [s.tagPart tag] }) (by rwa [tagPart_of ctx]) ?_ ?_
    · simp only [firstFail_none_chk, firstFail_none_bad, ctxBad_of ctx, ctxTearing_of ctx, alone, ctx, rangeBad,
        Option.getD_some, fresh]
      simpa [aligned, length, calm] using below
    · have nonempty : len ≠ 0 := by omega
      simp only [if_neg nonempty, ctx, Option.getD_some]
      exact congrArg (fun o : Option State => match o with
        | none => s.respond m { status := .noResource }
        | some v => (v.uncache (tagNum tag) cva (cva + len)).respond m okResp) mapped
  · subst added
    refine command_completes (c := { own := [s.tagPart tag] }) (by rwa [tagPart_of ctx]) ?_ ?_
    · simp only [firstFail_none_chk, firstFail_none_bad, ctxBad_of ctx, ctxTearing_of ctx, alone, rangeBad, ringless]
      simpa [aligned, length, calm, modes] using below
    · have nonempty : len ≠ 0 := by omega
      simp [ctx, leaves, nonempty]
  · refine congrArg settled ?_
    rw [ctx]
    dsimp only
    rw [first]
    dsimp only
    rw [uncovered, quiet, unmapped]
    rfl
  · refine congrArg settled ?_
    rw [ctx, Option.bind_some, first]
  · subst read
    refine command_completes (c := { own := [s.tagPart tag], query := true }) (by rwa [tagPart_of ctx]) ?_ ?_
    · simpa [firstFail_none_bad, ctxBad_of ctx, levels, start] using below
    · simp only [ctx, Option.getD_some, table, Bool.and_eq_true, bne_iff_ne]
      exact (apply_ite (s.respond m) _ _ _).symm
  · subst isLs isLines
    refine congrArg settled ((onStarted_running running).trans ?_)
    simp only [ctx]
    rw [if_neg]
    rcases fits with other | few
    · simp [other]
    · simp [few]

end Sys2Proof.Proofs
end

/-! Queues, doorbells and admission: what their commands do once every check passes. -/

section
namespace Sys2Proof.Proofs
open Sys2Proof.Machine Sys2Proof.Laws

/-- A command on a queue that is there, served and not refused, ends in its effect. -/
theorem queueCmd_completes {s t : State} {m q : Nat} {query : Bool} {checks : Queue → List Check} {eff : Queue → State → State}
    {u : Queue} (here : s.queue? q = some u) (served : s.serves m { own := [some u.part], query } = true)
    (passed : firstFail (checks u) = none) (effect : eff u s = t) : s.queueCmd m q query checks eff = .next t.settle := by
  unfold State.queueCmd
  rw [here]
  exact command_completes served passed effect

/-- Settles O16: each command's effect, once its checks have passed. -/
theorem queueCommandsComplete : Obligations.QueueCommandsComplete := by
  unfold Obligations.QueueCommandsComplete
  intro s m
  refine ⟨fun r c p e ctx part fresh served count slot low high ring comp mapped queue owner mode home active room => ?_,
    fun q u here served rested empty => ?_, fun q u here served => ⟨fun off => ⟨?_, ?_⟩, fun on => ⟨?_, ?_⟩⟩,
    fun q u here served free rested => ?_, fun q u here served => ⟨?_, ?_⟩, fun q u period action here served small known => ?_, rfl⟩
  · refine command_completes (c := { own := [s.tagPart r.tag, (s.queue? r.q).map (·.part)] })
      (by rwa [tagPart_of ctx, fresh]) ?_ ?_
    · simp only [firstFail_none_chk, firstFail_none_bad, firstFail_none_cons, ctxBad_of ctx, tagPart_of ctx, ctx, Option.getD_some,
        part, slot, mapped, queue, home, fresh]
      simp [count, ring, comp, owner, mode, active, room]
      omega
    · simp only [tagPart_of ctx, ctx, Option.getD_some]
  · refine queueCmd_completes here served ?_ rfl
    rcases rested with off | off | off <;> simp [firstFail_none_chk, off, empty]
  · exact queueCmd_completes here served (by simp [firstFail_none_chk, off]) (by simp [off])
  · exact queueCmd_completes here served (by simp [firstFail_none_chk, off]) (by simp [off])
  · exact queueCmd_completes here served (by simp [firstFail_none_chk, on]) (by simp [on])
  · exact queueCmd_completes here served (by simp [firstFail_none_chk, on]) (by simp [on])
  · refine queueCmd_completes here served ?_ rfl
    rcases rested with off | off | ⟨blocked, c, ctx, active⟩
    · simp [firstFail_none_chk, off, free]
    · simp [firstFail_none_chk, off, free]
    · simp [firstFail_none_chk, blocked, ctx, active, free]
  · exact queueCmd_completes here served rfl rfl
  · exact queueCmd_completes here served rfl rfl
  · exact queueCmd_completes here served (by simp [firstFail_none_bad, small, known]) rfl

/-- An access that an endpoint serves takes its packet. -/
theorem arriveReg_turn {s : State} {p : Nat} {h : Hdr} {ep : Nat} {cmd : Instr} {k : State → State} (turn : s.turn p h = true)
    (clear : s.flowOpen h s.coh.nextJoin = false) (endpoint : h.dstEp = ep) : s.arriveReg p h ep cmd k = k (s.consume p h) := by
  simp [State.arriveReg, arrive_turn turn, clear, endpoint]

/-- Settles O17: what a doorbell, a start and a completion do. -/
theorem doorbellsStartAndCompletion : Obligations.DoorbellsStartAndCompletion := by
  unfold Obligations.DoorbellsStartAndCompletion
  refine ⟨fun s => ⟨fun fn q val u here reached running => ?_, fun p h q val u turn clear endpoint gate length here running tag => ?_,
      fun src q u here letIn => ?_⟩,
    fun s => ⟨fun q i d u desc queue start free => ?_, fun q i d u e es desc queue start needs free => ?_,
      fun q i d u e es desc queue started transfer more needs free => ?_, fun q i d u t desc queue done ready => ?_⟩⟩
  · refine congrArg settled ?_
    rw [here]
    exact if_pos (by simp [reached, running])
  · refine congrArg settled ((arriveReg_turn turn clear endpoint).trans ?_)
    rw [gate]
    simp [length, here, running, tag]
  · refine congrArg settled ?_
    rw [here]
    exact regAccess_open letIn
  · refine congrArg settled ?_
    rw [desc, queue]
    simp [start, free]
  · refine congrArg settled ?_
    have waiting : d.phase ≠ .started := by
      intro started
      simp [State.mayStart, started] at start
    rw [desc, queue]
    simp [start, needs, free, waiting]
  · refine congrArg settled ?_
    rw [desc, queue]
    simp [started, transfer, more, needs, free]
  · refine congrArg settled ?_
    rw [desc, queue]
    simp [done, ready]

/-- Settles O19: the checks of Table 04-6 before any charge, then the budget. -/
theorem admissionTakesTheNextSlot : Obligations.AdmissionTakesTheNextSlot := by
  unfold Obligations.AdmissionTakesTheNextSlot
  refine ⟨fun s q u c a t v bs d here headless active more open_ shaped ctx ready read slot listed idle => ?_,
    fun s q i d u p desc queue part => ⟨fun never => ?_, fun bytes descs fits later => ?_, fun bytes descs fits room first => ?_⟩⟩
  · refine congrArg settled ?_
    have goes : s.admitStep q = s.admitNext q u c := by
      unfold State.admitStep
      rw [here]
      dsimp only
      rw [headless]
      simp [active, more, open_, shaped, ctx]
    rw [goes]
    subst listed slot
    unfold State.admitNext
    dsimp only
    rw [ready]
    dsimp only
    rw [if_neg (by decide), read]
    dsimp only
    rw [if_neg (by decide), idle]
    rfl
  · simp only [State.admitBudget, desc, queue, part]
    exact if_pos (by simpa using or_assoc.mpr never)
  · simp only [State.admitBudget, desc, queue, part]
    rw [if_neg (by simpa [bytes, descs] using fits), if_pos (by simpa using or_assoc.mpr later)]
  · simp only [State.admitBudget, desc, queue, part]
    rw [if_neg (by simp [bytes, descs]; omega), if_neg (by simp [first]; omega)]

end Sys2Proof.Proofs
end

/-! Descriptors at work: transfers, fences, events, operators and the answers of remote endpoints. -/

section
namespace Sys2Proof.Proofs
open Sys2Proof.Machine Sys2Proof.Laws

/-! Transfers. -/

/-- A segment that may move moves, and is marked so. -/
theorem transfer_moves {s : State} {d : Desc} {part : Nat} {ms : List Move} {x : SegRun} {st : Status} {v : State} (n : Nat)
    (moves : s.segmentMoves d part ms x st v) : s.transfer d part ms n = v.landed d x st (localBytes (x.cut ms)) n := by
  obtain ⟨first, ready, served, moved⟩ := moves
  unfold State.transfer
  rw [first]
  dsimp only
  rcases keys : s.keysReady d.runs (moveKeys (x.cut ms)).1 (moveKeys (x.cut ms)).2 with ⟨ok, t⟩
  rw [keys] at ready served moved
  dsimp only at ready served moved ⊢
  rw [ready, served, moved]
  rfl
/-- An index list that is clear is read, and what it says is noted before its moves. -/
theorem indexed_transfer {s t w : State} {d : Desc} {u : Queue} {xs : List (Option Nat × Bool × Bool)} {st0 : Status}
    (ready : s.streamsReady d.runs d.streams = (true, t))
    (read : t.readIndices d.runs d.index.key d.indexBytes d.count d.tableRows { d.acc u.part with served := false } = (xs, st0, w))
    (ms : List (Option Nat × Bool × Bool) → List Move) (n : List (Option Nat × Bool × Bool) → Nat) :
    s.indexed d u (fun xs st oob s => s.indexedTransfer d u (ms xs) st oob (n xs))
      = (w.bounded d xs st0).transfer d u.part (ms xs) (n xs) := by
  unfold State.indexed
  rw [ready]
  dsimp only
  rw [if_neg (by decide), read]
  rfl

/-- Settles O20: what a transfer's segment, a fence, an event, a NOP and a segment's end do. -/
theorem transfersAndOrderingComplete : Obligations.TransfersAndOrderingComplete := by
  unfold Obligations.TransfersAndOrderingComplete
  refine ⟨fun s q i d u x st v => ⟨fun moves => ⟨fun running => ?_, fun running => ?_, fun running => ?_⟩, fun running moves => ?_,
      fun t w xs st0 ready read => ⟨fun running moves => ?_, fun running moves => ?_⟩⟩,
    fun s q i d u => ⟨fun running none => ?_, fun running none => ?_, fun desc type ready free => ?_,
      fun x desc queue first started open_ served => ?_⟩⟩
  · exact congrArg settled ((onStarted_running running).trans (transfer_moves _ moves))
  · exact congrArg settled ((onStarted_running running).trans (transfer_moves _ moves))
  · exact congrArg settled ((onStarted_running running).trans (transfer_moves _ moves))
  · exact congrArg settled ((onStarted_running running).trans (transfer_moves _ moves))
  · exact congrArg settled ((onStarted_running running).trans
      ((indexed_transfer ready read d.gatherMoves _).trans (transfer_moves _ moves)))
  · exact congrArg settled ((onStarted_running running).trans
      ((indexed_transfer ready read d.scatterMoves (fun xs => (scatterRows xs).length * d.rowBytes)).trans
        (transfer_moves _ moves)))
  · refine congrArg settled ((onStarted_running running).trans ?_)
    simp [none]
  · refine congrArg settled ((onStarted_running running).trans ?_)
    simp [none]
  · refine congrArg settled ?_
    rw [desc]
    exact if_pos (by rw [type, ready, free]; rfl)
  · refine congrArg settled ?_
    rw [desc, queue]
    simp [first, started, open_, served]

/-! Answers of remote endpoints. -/

/-- An answer with data finds the read that it answers. -/
theorem readAnswer {s : State} {h : Hdr} {o : OwnMsg} (own : s.ownOf h = some o) (read : o.opcode = 0x02) :
    (s.ownOf h).filter (fun o => o.opcode == 0x02) = some o := by
  simp [own, Option.filter, read]

/-- Settles O21: what an answer does to the descriptor whose request it answers. -/
theorem remoteAnswersComplete : Obligations.RemoteAnswersComplete := by
  unfold Obligations.RemoteAnswersComplete
  refine fun s p h status turn => ⟨fun o d m t result own plain dropped out => ⟨fun bad_ => ?_, fun good => ?_⟩,
    fun o d m data own read out bad_ clean lost => ?_, fun o d m data t st w own read out moves landing written => ?_⟩
  · refine congrArg settled ((arrive_turn turn).trans ?_)
    simp only [own, beq_iff_eq, ← dropped, plain, out, Option.isSome_none, Bool.false_eq_true, if_false, State.outDone, bad_]
  · refine congrArg settled ((arrive_turn turn).trans ?_)
    simp only [own, beq_iff_eq, ← dropped, plain, out, Option.isSome_none, Bool.false_eq_true, if_false, State.outDone, good, if_true]
  · refine congrArg settled ((arrive_turn turn).trans ?_)
    rw [readAnswer own read]
    simp [out, bad_, clean, lost, State.outDone]
  · refine congrArg settled ((arrive_turn turn).trans ?_)
    have kept : (!(Status.ofCode status).good && Status.ofCode status != .poison && Status.ofCode status != .lineLost) = false := by
      rcases moves with good | poison | lost
      · simp [good]
      · simp [poison]
      · simp [lost]
    rw [readAnswer own read]
    simp only [out, kept, landing, Bool.false_eq_true, if_false, Bool.not_true]
    by_cases contribution : d.typ = 12
    · rw [if_pos contribution] at written
      obtain ⟨rfl, rfl⟩ := written
      simp only [contribution, if_true]
    · rw [if_neg contribution] at written
      simp only [if_neg contribution, written]

end Sys2Proof.Proofs
end

/-! Operators and collectives: what they do once their streams are clear and read. -/

section
namespace Sys2Proof.Proofs
open Sys2Proof.Machine Sys2Proof.Laws

/-! Operators. -/

/-- A started operator of a stock code runs that code's work. -/
theorem onOperator_running {s : State} {q i code : Nat} {d : Desc} {u : Queue} {f : Desc → Nat → State → State}
    (running : s.running q i 7 d u) (stock : d.stock = code) : s.onOperator q i code f = f d u.part s :=
  (onStarted_running running).trans (if_pos stock)
/-- A stock operator whose streams are clear and read goes on. -/
theorem stockReady_go {s t : State} {d : Desc} {part code : Nat} {list : List Ep} {f : State → State} (stock : d.stock = code)
    (ready : s.opReady d part ((⟨d.ocb⟩ : Ocb).stockStreams code d.shape list) = (true, t)) :
    s.stockReady d part list f = f t := by
  unfold State.stockReady
  rw [stock, ready]
  rfl
/-- A stock operator that runs, with its streams clear and read, does its work. -/
theorem stockOperator_runs {s t : State} {q i code : Nat} {d : Desc} {u : Queue} {list : Desc → List Ep}
    {f : Desc → Nat → State → State} (running : s.running q i 7 d u) (stock : d.stock = code)
    (ready : s.opReady d u.part ((⟨d.ocb⟩ : Ocb).stockStreams code d.shape (list d)) = (true, t)) :
    s.onOperator q i code (fun d part s => s.stockReady d part (list d) (f d part)) = f d u.part t :=
  (onOperator_running running stock).trans (stockReady_go stock ready)
/-- Rows that are loaded are decoded and stored. -/
theorem convertRows_runs {s t v : State} {d : Desc} {part code : Nat} {rows : List (List Elem)} {stop : Bool} {st : Status}
    (stock : d.stock = code)
    (ready : s.opReady d part ((⟨d.ocb⟩ : Ocb).stockStreams code d.shape []) = (true, t))
    (loaded : t.loadRows d.runs ((⟨d.ocb⟩ : Ocb).load 0) d.shape.list d.rowElems (d.acc part) = (rows, stop, st, v)) :
    s.convertRows d part = v.stockDone d part ⟨d.ocb⟩ st stop
      (rowsOuts (⟨d.ocb⟩ : Ocb).round ((⟨d.ocb⟩ : Ocb).store 0) (rows.map (rowLanes ((⟨d.ocb⟩ : Ocb).load 0)))
        (genStart (⟨d.ocb⟩ : Ocb).seed)).1 none := by
  unfold State.convertRows
  rw [stockReady_go stock ready]
  simp only [loaded]

/-- Settles O22: what each operator does once its streams are clear and read. -/
theorem operatorsComplete : Obligations.OperatorsComplete := by
  unfold Obligations.OperatorsComplete
  intro s q i d u o t running block
  subst block
  refine ⟨fun stock ready c stop st v chain => ⟨fun st0 v0 st1 v1 first second => ?_, fun st0 v0 first => ?_⟩,
    fun ins st v stock ready read => ?_, fun xs ws oob st v rows st' w stock ready args gathered => ?_,
    fun xs ws oob st v ins stop st' w st2 y stock ready args loaded scattered one => ?_,
    fun xs ws oob st v ins stop st' w st2 y st3 z stock ready args loaded scattered two stored => ?_,
    fun qs stop st v ks stop2 st2 w stock ready queries keys => ⟨fun stopped => ?_, fun st3 n0 y live all => ?_⟩,
    fun news ents st v ok st2 w bytes stock ready entries image stored => ?_,
    fun nb fixed hd st v stock ready blocks head header => ⟨fun st' stop refused => ?_,
      fun bm st2 w ct st3 y r z valid bits crcs restored => ?_⟩,
    fun rows stop st v ready loaded => ⟨fun stock => ?_, fun stock => ?_, fun stock => ?_⟩, fun stock ready => ?_⟩
  · refine congrArg settled ((onOperator_running running stock).trans ?_)
    simp only [State.runUser, ready, chain, first, second, Bool.not_true, Bool.false_eq_true, if_false]
  · refine congrArg settled ((onOperator_running running stock).trans ?_)
    simp only [State.runUser, ready, chain, first, Bool.not_true, Bool.not_false, Bool.false_eq_true, if_false, if_true]
  · refine congrArg settled ((stockOperator_runs (list := Desc.inputs) running stock ready).trans ?_)
    simp only [read]
  · refine congrArg settled ((stockOperator_runs (list := fun _ => []) running stock ready).trans ?_)
    simp only [args, gathered]
  · refine congrArg settled ((stockOperator_runs (list := fun _ => []) running stock ready).trans ?_)
    simp only [args, loaded, scattered, one, Bool.not_true, Bool.false_eq_true, if_false]
  · refine congrArg settled ((stockOperator_runs (list := fun _ => []) running stock ready).trans ?_)
    simp only [args, loaded, scattered, two, stored, Bool.not_true, Bool.false_eq_true, if_false, if_true]
  · refine congrArg settled ((stockOperator_runs (list := fun _ => []) running stock ready).trans ?_)
    simp only [queries, keys, stopped, if_true]
  · refine congrArg settled ((stockOperator_runs (list := fun _ => []) running stock ready).trans ?_)
    simp only [queries, keys, live, all, Bool.not_true, Bool.false_eq_true, if_false]
  · subst image
    refine congrArg settled ((stockOperator_runs (list := fun _ => []) running stock ready).trans ?_)
    simp only [entries, stored]
  · subst blocks head
    refine congrArg settled ((stockOperator_runs (list := fun _ => []) running stock ready).trans ?_)
    simp only [header, refused]
  · subst blocks head
    refine congrArg settled ((stockOperator_runs (list := fun _ => []) running stock ready).trans ?_)
    simp only [header, valid, bits, crcs, restored, Bool.not_true, Bool.false_eq_true, if_false]
  · exact congrArg settled ((onOperator_running running stock).trans (convertRows_runs rfl ready loaded))
  · exact congrArg settled ((onOperator_running running stock).trans (convertRows_runs rfl ready loaded))
  · exact congrArg settled ((onOperator_running running stock).trans (convertRows_runs rfl ready loaded))
  · exact congrArg settled (stockOperator_runs (list := fun _ => []) running stock ready)

/-! Collectives. -/

/-- A page of a list ends before the list just where 3,840 items from `first` on do; its next item is then the 3,840th from there. -/
theorem collQuery_page {α : Type} (s : State) (m first : Nat) (all : List α) (body : List (Nat × Nat)) :
    s.respond m {
      status := .ok
      body := if decide (first + ((all.drop first).take 3840).length < all.length) = true
        then body ++ [(4, first + ((all.drop first).take 3840).length)] else body
      more := decide (first + ((all.drop first).take 3840).length < all.length) }
    = s.respond m {
      status := .ok
      body := body ++ (if first + 3840 < all.length then [(4, first + 3840)] else [])
      more := decide (first + 3840 < all.length) } := by
  rw [List.length_take, List.length_drop]
  by_cases more : first + 3840 < all.length
  · rw [Nat.min_eq_left (by omega)]
    simp [more]
  · have last : ¬first + min 3840 (all.length - first) < all.length := by omega
    simp [more, last]

/-- Settles O23: each row's effect, once its checks have passed. -/
theorem collectiveCommandsComplete : Obligations.CollectiveCommandsComplete := by
  unfold Obligations.CollectiveCommandsComplete
  intro s m
  refine ⟨fun r c e a b area t ctx queue result status served shape home active few fits taken => ?_, fun ctx cid c here timer => ?_,
    fun tag c x cid ctx here calm served => ?_, fun tag c cid first x all ctx here served whole inside => ?_,
    fun q i d u x running here refused => ?_, fun q i d u x t w bs st v running here fresh some_ near ready fetched read => ?_,
    fun q i d u x running here fresh some_ far pulled => ?_, fun p h c step rank chunk data st u taken empty judged => ?_,
    fun p h c step rank chunk data t v w st u taken some_ free arrived listed ended summed => ?_⟩
  · refine command_completes (c := { own := [s.tagPart r.tag, (s.eq? r.eq).map (·.part),
        (s.region? (r.result / 2 ^ 44)).map (·.part), (s.region? (r.status / 2 ^ 44)).map (·.part)], need := 1 })
      (by rwa [tagPart_of ctx, queue, result, status]) ?_ ?_
    · simp [firstFail_append, firstFail_none_chk, ctx, shape, home, active, few]
    · simp only [ctx, Option.getD_some, fits, if_true, taken]
  · refine congrArg settled ?_
    rw [here]
    simp [timer]
  · refine command_completes (c := { own := [s.tagPart tag] }) (by rwa [tagPart_of ctx]) ?_ ?_
    · simp [firstFail_none_bad, firstFail_none_chk, ctxBad_of ctx, here, ctxTearing_of ctx, calm]
    · rw [here]
  · subst whole
    simp only [exec, execCollQuery, ctxBad_of ctx, here, Bool.false_eq_true, if_false]
    refine command_completes served (by simpa [firstFail_none_bad] using inside) ?_
    rw [collQuery_page]
  · refine congrArg settled ((onStarted_running running).trans ?_)
    dsimp only
    rw [here, if_pos]
    rcases refused with decided | empty
    · simp [Option.isSome_iff_ne_none, decided]
    · simp [empty]
  · refine congrArg settled ((onStarted_running running).trans ?_)
    simp [here, fresh, some_, near, ready, fetched, read]
  · refine congrArg settled ((onStarted_running running).trans ?_)
    simp [here, fresh, some_, far, pulled]
  · refine congrArg settled ((State.collWrite.eq_1 ..).trans ((atHome_takes taken).trans ?_))
    simp only [if_pos empty, judged, beq_iff_eq]
  · refine congrArg settled ((State.collWrite.eq_1 ..).trans ((atHome_takes taken).trans ?_))
    subst listed
    simp only [if_neg some_, free, arrived, ended, summed, Bool.false_eq_true, if_false]

end Sys2Proof.Proofs
end

/-! Coherence: what its packets, leases and commands do once they are taken. -/

section
namespace Sys2Proof.Proofs
open Sys2Proof.Machine Sys2Proof.Laws

/-! Requests at the home. -/

section
variable {s t : State} {p : Nat} {h : Hdr} {c : Context}

/-- A request whose range translates goes on with its pages. -/
theorem translated_ok {len acc : Nat} {ps : List (Nat × Nat × Trans)} {b : Status → State → State}
    {k : List (Nat × Nat × Trans) → State → State} (translates : s.translates h c len acc t ps) :
    s.translated p h c len acc b k = k ps t := by
  obtain ⟨walked, pages, clean⟩ := translates
  simp only [State.translated, walked, pages, clean, bne_self_eq_false, Bool.false_eq_true, if_false]
/-- A packet whose requests find free transactions is taken. -/
theorem take_room {cmd : Instr} {rs : List HomeReq} {k : State → State} (room : s.shortHub rs = none) :
    s.take p h cmd rs k = rs.foldl State.submit (k (s.consume p h)) := by
  simp only [State.take, room]
/-- A caching request whose page is in memory, and which finds a free transaction, begins. -/
theorem cachingReq_begins {agent : Nat} {op : HomeOp} {cmd : Instr} {ps : List (Nat × Nat × Trans)} {r : HomeReq}
    (taken : s.homeTakes p h c) (live : (s.classed h).fromAgent h agent = true)
    (translates : (s.classed h).translates h c 1 (if op = .rdShared then 0 else 1) t ps)
    (request : t.granReq p h c agent op [] ps = some (false, r)) (room : t.shortHub [r] = none) :
    s.cachingReq p h agent op cmd = (t.consume p h).tookOne.submit r := by
  refine (State.cachingReq.eq_1 ..).trans ((atHome_takes taken).trans ?_)
  rw [live, translated_ok translates]
  simp only [request, take_room room]
  rfl
/-- The pieces of a write that find free transactions begin. -/
theorem writePieces_begin {cmd : Instr} {part kind : Nat} {op : HomeOp} {agent mask : Nat} {data : List Byte} {cold : Bool}
    {pcs : List (Nat × Nat × Nat × Nat × Nat × Nat)}
    (room : s.shortHub (pieceReqs p h part op agent mask data cold pcs s.coh.nextJoin) = none) :
    s.writePieces p h cmd part kind op agent mask data cold pcs
      = ((pieceReqs p h part op agent mask data cold pcs s.coh.nextJoin).foldl State.submit
          ((s.consume p h).openJoin (pieceJoin p h part kind pcs)).2).closeJoin s.coh.nextJoin := by
  rw [State.writePieces, take_room room]
/-- A packet of a message of no bytes is answered at once. -/
theorem messageWrite_empty {op : HomeOp} {data : List Byte} {cmd : Instr} (taken : s.homeTakes p h c) (empty : h.msgLen = 0) :
    s.messageWrite p h op data cmd = (s.classed h).deny p h .okEmpty := by
  refine (State.messageWrite.eq_1 ..).trans ((atHome_takes taken).trans ?_)
  exact if_pos empty
/-- A packet of a message that has a tracker, and whose pieces find free transactions, is taken. -/
theorem messageWrite_begins {v : State} {op : HomeOp} {data : List Byte} {cmd : Instr} {ps : List (Nat × Nat × Trans)}
    (taken : s.homeTakes p h c) (some_ : h.msgLen ≠ 0)
    (open_ : (((s.classed h).msg? h.key).isNone && (s.classed h).net.closed.any (fun x => x.1 == h.key)) = false)
    (translates : (s.classed h).translates h c (max data.length 1) 1 t ps)
    (free : t.shortHub (pieceReqs p h c.part op 0xFFFF 0 data false (t.piecesOf h.addr ps) t.coh.nextJoin) = none)
    (tracked : t.msgTake p h data.length cmd = (.taken, v))
    (room : v.shortHub (pieceReqs p h c.part op 0xFFFF 0 data (coldPages ps) (t.piecesOf h.addr ps) v.coh.nextJoin) = none) :
    s.messageWrite p h op data cmd
      = ((pieceReqs p h c.part op 0xFFFF 0 data (coldPages ps) (t.piecesOf h.addr ps) v.coh.nextJoin).foldl State.submit
          ((v.consume p h).openJoin (pieceJoin p h c.part 0 (t.piecesOf h.addr ps))).2).closeJoin v.coh.nextJoin := by
  refine (State.messageWrite.eq_1 ..).trans ((atHome_takes taken).trans ?_)
  dsimp only
  rw [if_neg some_, open_, translated_ok translates]
  simp only [Bool.false_eq_true, if_false, free, tracked, writePieces_begin room]
end

/-- Settles O24: what a read that the home takes does. -/
theorem coherentReadsComplete : Obligations.CoherentReadsComplete := by
  unfold Obligations.CoherentReadsComplete
  refine fun s p h c taken => ⟨fun agent ps t r live => ⟨fun pages request room => ?_, fun pages request => ?_,
      fun pages request room => ?_, fun pages request room => ?_⟩,
    fun ps t z m rs some_ small pages zeros rest requests room => ?_, fun empty => ?_⟩
  · exact congrArg settled (cachingReq_begins taken live pages request room)
  · refine congrArg settled ((State.cachingReq.eq_1 ..).trans ((atHome_takes taken).trans ?_))
    rw [live, if_pos rfl, translated_ok pages]
    simp only [request]
    rfl
  · exact congrArg settled (cachingReq_begins taken live pages request room)
  · exact congrArg settled (cachingReq_begins taken live pages request room)
  · subst zeros rest requests
    refine congrArg settled ((State.uncachedRead.eq_1 ..).trans ((atHome_takes taken).trans ?_))
    dsimp only
    rw [if_neg (by omega), if_neg (by omega), translated_ok pages]
    rw [take_room room]
  · refine congrArg settled ((State.uncachedRead.eq_1 ..).trans ((atHome_takes taken).trans ?_))
    exact if_pos empty

/-- Settles O25: what a write, an eviction or an atomic that the home takes does. -/
theorem coherentWritesComplete : Obligations.CoherentWritesComplete := by
  unfold Obligations.CoherentWritesComplete
  refine fun s p h c taken => ⟨fun agent left ps t r live pages request room => ?_,
    fun agent data ps t zero r live pages request room => ?_, fun agent mask data ps t pcs rs live pages pieces requests room => ?_,
    fun op cmd data ps t pcs v rs some_ open_ pages pieces free tracked requests room => ⟨fun isOp isCmd => ?_,
      fun target offer isOp isCmd => ?_⟩, fun data target offer empty => ⟨?_, ?_⟩,
    fun op width operands ps t pcs rs aligned known pages pieces requests room => ?_⟩
  · refine congrArg settled ((atHome_takes taken).trans ?_)
    rw [live, translated_ok pages]
    simp only [request, take_room room]
    rfl
  · refine congrArg settled ((atHome_takes taken).trans ?_)
    dsimp only
    rw [live, translated_ok pages]
    simp only [request, take_room room]
    rfl
  · subst pieces requests
    refine congrArg settled ((atHome_takes taken).trans ?_)
    dsimp only
    rw [live, translated_ok pages]
    exact writePieces_begin room
  · subst pieces requests isOp isCmd
    exact congrArg settled (messageWrite_begins taken some_ open_ pages free tracked room)
  · subst pieces requests isOp isCmd
    exact congrArg settled (messageWrite_begins taken some_ open_ pages free tracked room)
  · exact congrArg settled (messageWrite_empty taken empty)
  · exact congrArg settled (messageWrite_empty taken empty)
  · subst pieces requests
    refine congrArg settled ((atHome_takes taken).trans ?_)
    rw [if_neg (by simp [aligned, Option.isNone_iff_eq_none, ← Option.isSome_iff_ne_none, known]), translated_ok pages]
    exact writePieces_begin room

/-! Answers to snoops, and leases. -/

/-- An answer to an outstanding snoop acts, and its transaction goes on. -/
theorem responded_answers {s : State} {p : Nat} {h : Hdr} {txn : Nat} {ks : List AwaitKind} {f : Txn → State → State} {o : OwnMsg}
    {t : Txn} (answers : s.answersSnoop p h txn ks o t) :
    s.responded p h txn ks f = (f t (s.snoopAnswered p h txn o)).advance txn := by
  obtain ⟨turn, own, open_, kind, agent, awaited⟩ := answers
  unfold State.responded
  rw [arrive_turn turn]
  dsimp only
  rw [own, open_]
  dsimp only
  rw [kind, agent, awaited]
  rfl

/-- Settles O26: what answers, leases and the reclaim sweep do. -/
theorem coherentAnswersAndLeasesComplete : Obligations.CoherentAnswersAndLeasesComplete := by
  unfold Obligations.CoherentAnswersAndLeasesComplete
  refine ⟨fun s => ⟨fun p h txn o t => ⟨fun answers => ?_, fun before data answers => ?_, fun left answers => ?_,
        fun answer target offer answers op => ?_⟩,
      fun txn t here offered untaken => ?_, fun hub i rest t waiting rerun gone => ?_, fun g r ppa here page => ?_⟩,
    fun s => ⟨fun p h agent seq time join a t turn after endpoint here node ep fresh => ?_, fun agent a here current => ?_,
      fun hub pos u isPos isU => ?_, fun hub none => ?_, fun hub agent a alone reclaiming => ?_⟩⟩
  · exact congrArg settled (responded_answers answers)
  · refine congrArg settled ((responded_answers answers).trans ?_)
    simp only [Bool.or_eq_true, Bool.and_eq_true, decide_eq_true_eq]
  · exact congrArg settled (responded_answers answers)
  · refine congrArg settled ((responded_answers answers).trans ?_)
    simp only [op, Bool.and_eq_true, decide_eq_true_eq]
  · refine congrArg settled ?_
    rw [here]
    simp [offered, untaken]
  · subst rerun
    refine congrArg settled ?_
    rw [waiting]
    exact if_neg (by simp [gone])
  · refine congrArg settled ?_
    rw [here]
    simp only [page]
  · subst after
    refine congrArg settled ((arrive_turn turn).trans ?_)
    have current : (decide (join = 0) && h.incClaim != (s.consume p h).inc) = false := by
      by_cases beat : join = 0
      · simp [beat, fresh beat]
      · simp [beat]
    dsimp only
    rw [endpoint, here]
    dsimp only
    rw [node, ep, current]
    by_cases joins : join = 1 <;> by_cases known : h.incClaim = (s.consume p h).inc <;> cases lease : a.lease <;>
      simp [joins, known]
  · refine congrArg settled ?_
    rw [here]
    exact if_pos current
  · subst isPos isU
    rfl
  · refine congrArg settled ?_
    revert none
    generalize s.coh.agents = agents
    intro none
    induction agents generalizing s with
    | nil => rfl
    | cons x r ih =>
      rw [List.foldl_cons]
      cases lease : x.2.lease with
      | reclaiming l => exact absurd lease (none x List.mem_cons_self l)
      | current => exact ih s fun y member => none y (List.mem_cons_of_mem _ member)
      | reclaimed => exact ih s fun y member => none y (List.mem_cons_of_mem _ member)
      | void => exact ih s fun y member => none y (List.mem_cons_of_mem _ member)
  · refine congrArg settled ?_
    simp [alone, reclaiming]

/-- An agent that is changed is still registered. -/
theorem agent?_modAgent {s : State} {agent : Nat} {a : Agent} (here : s.agent? agent = some a) (f : Agent → Agent) :
    (s.modAgent agent f).agent? agent = some (f a) :=
  (at?_mod_same s.coh.agents agent f).trans (congrArg (Option.map f) here)

/-- Settles O27: each command's effect, once its checks have passed. -/
theorem coherenceCommandsComplete : Obligations.CoherenceCommandsComplete := by
  unfold Obligations.CoherenceCommandsComplete
  intro s m
  refine ⟨fun agent node ep served low node' ep' fresh => ?_, fun agent a served here => ⟨fun current => ?_, fun ended => ?_⟩,
    fun lease interval served low high low' high' many => ?_, fun frac served small => ?_,
    fun hub first count served inRange start one few => ?_, fun hub served inRange => ?_⟩
  · exact command_completes served (by simp [firstFail_none_bad, firstFail_none_chk, low, node', ep', fresh]) rfl
  · refine command_completes served (by simp [firstFail_none_bad, here]) ?_
    dsimp only
    rw [agent?_modAgent here]
    simp only [current]
  · refine command_completes served (by simp [firstFail_none_bad, here]) ?_
    dsimp only
    rw [agent?_modAgent here]
    rcases ended with reclaimed | void
    · simp only [reclaimed]
    · simp only [void]
  · exact command_completes served (by simp [firstFail_none_bad]; omega) rfl
  · exact command_completes served (by simp [firstFail_none_bad]; omega) rfl
  · refine command_completes served (by simp [firstFail_none_bad, firstFail_none_chk]; omega) ?_
    by_cases more : first + min count (s.buckets hub - first) < s.buckets hub <;> simp [more]
  · exact command_completes served (by simp [firstFail_none_chk, inRange]) rfl

end Sys2Proof.Proofs
end

/-! Ports: training, link events, power states and port commands. -/

section
namespace Sys2Proof.Proofs
open Sys2Proof.Machine Sys2Proof.Laws

/-! A port's own reads and its training steps. -/

section
variable {s : State} {p : Nat}

/-- A port that is changed reads as the change leaves it. -/
theorem port_updPort (s : State) (p : Nat) (f : Port → Port) : (s.updPort p f).port p = f (s.port p) := or_upd s.ports p {} f
/-- A port in a training step does what the step asks. -/
theorem inStep_here {step : Nat} {f : Port → State → State} (inRange : p < s.variant.ports) (trains : (s.port p).trains = true)
    (here : (s.port p).train.step = step) : s.inStep p step f = f (s.port p) s := by
  simp [State.inStep, inRange, trains, here]
/-- A port that is up and awake takes a link event. -/
theorem awake_up {f : Port → State → State} (up : (s.port p).isUp = true) (awake : (s.port p).pstate ≠ 2) :
    s.awake p f = f (s.port p) s := by
  simp [State.awake, up, awake]
end

/-- Settles O28: what a training step, its timers and the events of a link that is up do. -/
theorem trainingAndLinkEventsComplete : Obligations.TrainingAndLinkEventsComplete := by
  unfold Obligations.TrainingAndLinkEventsComplete
  refine ⟨fun s p inRange => ⟨fun trains => ⟨fun step => ⟨?_, ?_⟩, fun step => ⟨fun lanes => ?_, ?_⟩,
        fun need step needed => ⟨?_, fun lanes saved locked => ?_, fun lanes saved locked some_ => ?_,
          fun lanes rec_ v full some_ recorded => ?_, fun lanes t full none lowered => ?_⟩,
        fun blk step bad_ => ?_, fun blk t step good taken => ?_⟩, fun down live => ?_⟩,
    fun s p up => ⟨fun awake => ⟨?_, ?_, ?_, fun lane active => ?_, fun lpm pl0 => ?_, fun lpm enabled idle => ?_,
        fun asked => ⟨?_, ?_, ?_⟩, fun unasked => ?_⟩, fun asleep idle => ?_, fun waking => ?_⟩⟩
  · exact congrArg settled (inStep_here (s := s.rouse) inRange trains step)
  · exact congrArg settled (inStep_here inRange trains step)
  · exact congrArg settled (inStep_here inRange trains step)
  · exact congrArg settled (inStep_here inRange trains step)
  · exact congrArg settled (inStep_here inRange trains step)
  · subst needed
    refine congrArg settled ((inStep_here inRange trains step).trans ?_)
    exact if_pos (by simpa [saved] using locked)
  · subst needed
    refine congrArg settled ((inStep_here inRange trains step).trans ?_)
    dsimp only
    rw [if_neg (by simpa [saved] using locked), if_neg some_, if_pos saved]
  · refine congrArg settled ((inStep_here inRange trains step).trans ?_)
    dsimp only
    rw [if_neg (by simp [full]), if_neg some_, if_neg (by simp [full]), recorded]
  · subst lowered
    refine congrArg settled ((inStep_here inRange trains step).trans ?_)
    dsimp only
    rw [if_neg (by simp [full]), if_pos none]
  · refine congrArg settled ?_
    simp [inRange, trains, step, bad_]
  · subst taken
    refine congrArg settled ?_
    dsimp only
    rw [if_neg (by simp [inRange, trains, step]), if_neg (by simp [good])]
    split
    · next two => rw [if_pos two]
    · next five => rw [if_neg (by omega), if_pos five]
    · next other two five => rw [if_neg two, if_neg five]
  · exact congrArg settled (if_pos (by simp [inRange, down, live]))
  · exact congrArg settled (awake_up up awake)
  · exact congrArg settled (awake_up up awake)
  · exact congrArg settled (awake_up up awake)
  · exact congrArg settled ((awake_up up awake).trans (if_pos (by simpa using active)))
  · exact congrArg settled ((awake_up up awake).trans (if_pos (by simp [lpm, pl0])))
  · exact congrArg settled ((awake_up up awake).trans (if_pos (by simp [lpm, enabled, idle])))
  · exact congrArg settled ((awake_up up awake).trans (if_pos (by simp [asked])))
  · exact congrArg settled ((awake_up up awake).trans (if_pos (by simp [asked])))
  · exact congrArg settled ((awake_up up awake).trans (if_pos (by simp [asked])))
  · refine congrArg settled ((awake_up up awake).trans ((if_neg (by simp [unasked])).trans ?_))
    simp [and_assoc]
  · exact congrArg settled (if_pos (by simp [up, asleep, idle]))
  · exact congrArg settled (if_pos (by simp [up, waking]))

/-! Port commands. -/

/-- A port command that is served and passes its checks ends in its effect. -/
theorem portCmd_completes {s t : State} {m mask : Nat} {query present : Bool} {need : Nat} {checks : List Check}
    {eff : State → State} (served : s.serves m { fm := true, query, need } = true) (small : mask < 2 ^ 96)
    (there : present = true → ∀ p ∈ maskPorts mask, s.portPresent p = true) (passed : firstFail checks = none)
    (effect : eff s = t) : s.portCmd m mask query present need checks eff = .next t.settle := by
  refine command_completes served ?_ effect
  have none_ : (present && (maskPorts mask).any (fun p => !s.portPresent p)) = false := by
    cases present
    · rfl
    · simpa using there rfl
  rw [firstFail_none_chk, firstFail_none_bad]
  exact ⟨none_, by simpa using small, passed⟩

/-- Settles O29: each command's effect, once its checks have passed. -/
theorem portCommandsComplete : Obligations.PortCommandsComplete := by
  unfold Obligations.PortCommandsComplete
  refine fun s m mask small => ⟨fun served => ?_, fun served => ⟨fun clear there few known => ?_, ?_,
    fun there => ⟨fun rates widths rate width => ?_, fun full known live => ?_, ?_, ?_,
      fun pl2 t1 t2 known low1 high1 low2 high2 => ?_, fun word good => ?_⟩⟩, rfl⟩
  · exact portCmd_completes served small nofun rfl rfl
  · exact portCmd_completes served small (fun _ => there) (by simp [firstFail_none_bad, few, known]) rfl
  · exact portCmd_completes served small nofun rfl rfl
  · exact portCmd_completes served small (fun _ => there) (by simp [firstFail_none_bad, rate, width]) rfl
  · exact portCmd_completes served small (fun _ => there) (by simp [firstFail_none_bad, firstFail_none_chk, known, live]) rfl
  · exact portCmd_completes served small (fun _ => there) rfl rfl
  · exact portCmd_completes served small (fun _ => there) rfl rfl
  · exact portCmd_completes served small (fun _ => there) (by simp [firstFail_none_bad]; omega) rfl
  · exact portCmd_completes served small (fun _ => there) (by simp [firstFail_none_bad, good]) rfl

end Sys2Proof.Proofs
end

/-! The link layer: what its flits and timers do. -/

section
namespace Sys2Proof.Proofs
open Sys2Proof.Machine Sys2Proof.Laws

/-- A changed link layer reads as the change leaves it. -/
theorem link_updLink (s : State) (p : Nat) (f : Link → Link) : ((s.updLink p f).port p).link = f (s.port p).link :=
  congrArg Port.link (port_updPort s p _)
/-- A counter of a port leaves its link layer. -/
theorem link_linkStat (s : State) (p i n : Nat) : ((s.linkStat p i n).port p).link = (s.port p).link := by
  rw [State.linkStat, port_updPort]
/-- A flit that comes to a link that is up, or in its initialisation, is counted and then judged by its codes. -/
theorem flitReceive_counted {s : State} {p : Nat} {f : Flit}
    (open_ : ((s.port p).isUp && (s.port p).pstate != 2 && (s.port p).link.ready
      || decide (p < s.variant.ports) && (s.port p).trains && (s.port p).train.step == 6) = true) :
    exec (.flitReceive p f) s = settled (
      let r := (s.updLink p (fun l => { l with rxCount := l.rxCount + 1 })).linkStat p 2 f.corrected
      if f.fecBad then r.linkStat p 1 1
      else if f.crcBad then r.linkStat p 0 1
      else if (s.port p).isUp && (s.port p).pstate != 2 && (s.port p).link.ready then r.upReceive p f
      else r.initReceive p f) :=
  congrArg settled (if_neg (by rw [← Bool.not_or, open_]; decide))

/-- Settles O30: what each flit and timer does. -/
theorem linkLayerCompletes : Obligations.LinkLayerCompletes := by
  unfold Obligations.LinkLayerCompletes
  refine fun s p inRange => ⟨fun grants rx trains down step enough => ?_, fun grants version rx up settled_ awake live => ?_,
    fun trains step waits => ?_, fun up awake => ⟨fun timer => ?_, fun sent => ⟨?_, fun many => ?_⟩, ?_,
      fun ready => ⟨?_, fun owes => ?_, fun f r counted => ⟨fun bad_ => ?_, fun whole bad_ => ?_, fun whole sum error => ?_,
        fun t whole sum good typ acked => ?_⟩⟩⟩,
    fun down trains step => ⟨?_, fun f whole sum => ?_⟩, fun m kind count served small present known one few fresh => ?_⟩
  · refine congrArg settled ?_
    have granted : (List.range 8).any (fun v => decide (grants.getD v 0 < maxUnits v)) = false := by
      simpa using enough
    unfold State.takeInit
    dsimp only
    rw [if_neg (by simp [inRange]), if_neg (by simp [down]), if_neg (by simp [trains, step]), granted]
    by_cases init : rx = 1 <;> simp [init]
  · refine congrArg settled ?_
    unfold State.takeInit
    dsimp only
    rw [if_neg (by simp [inRange]), if_pos (by simp [up, settled_]), if_pos (by simp [awake, live])]
  · refine congrArg settled ((inStep_here inRange trains step).trans (if_neg (by simp [waits])))
  · exact congrArg settled ((awake_up up awake).trans (if_pos timer))
  · exact congrArg settled ((awake_up up awake).trans (if_neg (by simpa using sent)))
  · refine congrArg settled ((awake_up up awake).trans ((if_neg (by simp [sent, many])).trans (if_pos ?_)))
    rw [link_updLink, link_linkStat]
    exact Nat.succ_le_succ many
  · exact congrArg settled (awake_up up awake)
  · exact congrArg settled (if_pos (by simp [up, awake, ready]))
  · exact congrArg settled ((awake_up up awake).trans (if_pos (by simp [ready, owes])))
  · subst counted
    rw [flitReceive_counted (by simp [up, awake, ready])]
    exact congrArg settled (if_pos bad_)
  · subst counted
    rw [flitReceive_counted (by simp [up, awake, ready])]
    simp only [whole, bad_, Bool.false_eq_true, if_false, if_true]
    rfl
  · subst counted
    rw [flitReceive_counted (by simp [up, awake, ready])]
    refine congrArg settled ?_
    dsimp only
    rw [if_neg (by simp [whole]), if_neg (by simp [sum]), if_pos (by simp [up, awake, ready])]
    exact if_pos (by simpa using error)
  · subst counted acked
    rw [flitReceive_counted (by simp [up, awake, ready])]
    refine congrArg settled ?_
    dsimp only
    rw [if_neg (by simp [whole]), if_neg (by simp [sum]), if_pos (by simp [up, awake, ready])]
    unfold State.upReceive
    rw [if_neg (by simp [good, typ]), if_neg typ]
    simp only [bne_iff_ne]
  · exact congrArg settled ((if_neg (by simp [down])).trans (if_pos (by simp [trains, step])))
  · rw [flitReceive_counted (by simp [inRange, trains, step])]
    refine congrArg settled ?_
    dsimp only
    rw [if_neg (by simp [whole]), if_neg (by simp [sum]), if_neg (by simp [down])]
  · refine command_completes served ?_ rfl
    simp [firstFail_none_bad, firstFail_none_chk, small, present, known, fresh]
    omega

end Sys2Proof.Proofs
end

/-! Routing, messages and memory units: what their commands and packets do. -/

section
namespace Sys2Proof.Proofs
open Sys2Proof.Machine Sys2Proof.Laws

/-- The body of a page: the cursor follows where more remains. -/
theorem paged {more : Prop} [Decidable more] {α : Type} (body rest : List α) :
    (if decide more = true then body ++ rest else body) = body ++ (if more then rest else []) := by
  by_cases left : more <;> simp [left]

/-- A command that its mailbox may run and that a check refuses answers that check's status. -/
theorem command_refuses {s : State} {m : Nat} {c : Call} {l : List Check} {eff : State → State} {st : Status} {o : Nat}
    (served : s.serves m c = true) (refused : firstFail l = some (st, o)) :
    settled (s.command m c l eff) = .next (s.respond m { status := st, failOff := o }).settle :=
  congrArg settled (command_refused s m c l eff st o served refused)

/-- Settles O31: what each routing command, packet and timer does. -/
theorem routingAndMessagesComplete : Obligations.RoutingAndMessagesComplete := by
  unfold Obligations.RoutingAndMessagesComplete
  refine ⟨fun s m => ⟨fun served => ⟨fun word low high timer rest => ?_, fun first entries start some_ few inside ports good => ?_,
        fun set nodes small few named => ?_, fun node small => ?_, fun flock entry small rest present => ?_⟩,
      fun kind first count top served known isTop below one few l next gathered => ?_⟩,
    fun s => ⟨fun p pkt => rfl, fun p h data => rfl, fun p h a b c d turn => ?_, fun iod => rfl, fun iod key x u here mine closed => ?_,
      fun iod key => rfl⟩⟩
  · refine command_completes served ?_ rfl
    simp [firstFail_none_bad, timer, rest]
    omega
  · have absent : (entries.flatMap entryPorts).any (fun p => decide (p < 96) && !s.portPresent p) = false := by
      rw [List.any_eq_false]
      intro p member
      simp [ports p member]
    have beyond : (entries.flatMap entryPorts).any (fun p => decide (95 < p)) = false := by
      rw [List.any_eq_false]
      intro p member
      have := ports p member
      simp
      omega
    have reserved : entries.any (fun e => fld e 53 32 != 0 || 2 ^ 64 ≤ e) = false := by
      rw [List.any_eq_false]
      intro e member
      simpa using good e member
    refine command_completes served ?_ rfl
    rw [firstFail_none_chk, firstFail_none_bad, firstFail_none_bad, firstFail_none_bad, absent, beyond, reserved]
    simp [start, some_, few, inside]
  · refine command_completes served ?_ rfl
    simpa [firstFail_none_bad, small, few] using named
  · exact command_completes served (by simp [firstFail_none_bad, small]) rfl
  · refine command_completes served ?_ rfl
    simpa [firstFail_none_bad, firstFail_none_chk, small, rest] using present
  · obtain rfl | rfl | rfl : kind = 0 ∨ kind = 1 ∨ kind = 2 := by omega
    all_goals
      norm_num at isTop
      subst isTop
      refine command_completes served (by simp [firstFail_none_bad]; omega) ?_
      simp only [gathered, paged]
  · exact congrArg settled (arrive_turn turn)
  · subst closed
    refine congrArg settled ?_
    rw [here]
    simp [Option.filter, mine]

/-! Memory units. -/

/-- Settles O32: each command's effect, once its checks have passed. -/
theorem memoryUnitCommandsComplete : Obligations.MemoryUnitCommandsComplete := by
  unfold Obligations.MemoryUnitCommandsComplete
  intro s m
  refine ⟨fun served => ⟨fun g inRange present => ?_, fun ppa u here => ?_, fun u f there frozen => ?_⟩,
    fun served => ⟨fun g word inRange present good => ?_, fun u f there frozen free lost => ?_,
      fun u f t there frozen free kept thawed => ?_, fun u f mode there stack frozen free known spares => ?_,
      fun kind num sid known stackId inRange fresh => ?_⟩, fun u k poison mb sparing => ?_⟩
  · exact command_completes served (by simp [firstFail_none_bad, firstFail_none_chk, inRange, present]) rfl
  · exact command_completes served (by simp [firstFail_none_bad, here]) (by simp [here])
  · refine command_completes served ?_ ?_
    · rw [firstFail_none_cons, there]
      simp [firstFail_none_bad, frozen]
    · simp only [frozen]
  · exact command_completes served (by simp [firstFail_none_bad, firstFail_none_chk, inRange, present, good]) rfl
  · refine command_refuses served ?_
    simp [firstFail, there, bad, chk, frozen, free, lost]
  · subst thawed
    refine command_completes served ?_ ?_
    · rw [firstFail_none_cons, there]
      simp [firstFail_none_bad, firstFail_none_chk, frozen, free, kept]
    · simp only [frozen, Bool.and_eq_true, beq_iff_eq, Bool.not_eq_true', ← Bool.not_eq_true, bne_iff_ne, ne_eq]
  · refine command_completes served ?_ ?_
    · rw [firstFail_none_cons, there]
      simp [firstFail_none_bad, firstFail_none_chk, frozen, free, known, stack, spares]
    · simp only [frozen]
      rfl
  · have four : kind < 4 := by omega
    have slices : (kind != 2 && (markTargets kind num).any (fun u => decide (768 ≤ u))) = false := by
      rcases inRange with channel | low
      · simp [channel]
      · rw [low, Bool.and_false]
    have id : (kind == 3 && decide (3 < sid)) = false := by
      by_cases stack : kind = 3
      · simp [stack, stackId stack]
      · simp [stack]
    refine command_completes served ?_ rfl
    rw [firstFail_none_chk, firstFail_none_bad, firstFail_none_bad, slices, fresh, id]
    simp [known]
  · refine congrArg settled ?_
    rw [sparing]
    simp only [Bool.or_eq_true]

end Sys2Proof.Proofs
end

/-! The memory schedule, scrubbing and retirement: what their timers and commands do. -/

section
namespace Sys2Proof.Proofs
open Sys2Proof.Machine Sys2Proof.Laws

/-! Slots. -/

/-- What a unit does in a slot takes no time: the present slot may be read from any state on the way. -/
theorem foldl_slotUnit (g p : Nat) (us : List Nat) (s t : State) (time : t.clock = s.clock) :
    us.foldl (fun t u => t.slotUnit u p s.slotNow (t.slotOwner g s.slotNow == some p)) t
      = us.foldl (fun t u => t.slotUnit u p t.slotNow (t.slotOwner g t.slotNow == some p)) t := by
  induction us generalizing t with
  | nil => rfl
  | cons u us ih =>
    have now : t.slotNow = s.slotNow := by rw [State.slotNow, State.slotNow, time]
    rw [List.foldl_cons, List.foldl_cons, now]
    exact ih _ ((keep_slotUnit (v := State.clock) (ig_clock.sub rfl) ..).trans time)
/-- A slot that is no guard: due neighbour refreshes, then the eligible partition's requests. -/
theorem memSlotTick_open {s : State} {g : Nat} (inRange : g < 64) (held : s.boot.held = false) (stopped : s.boot.stopped = false)
    (guard : s.guardSlot g s.slotNow = false) {v w : State} {r : Option Nat}
    (refreshed : v = (
      let t := (s.groupLive g).foldl (fun s u => s.updUnit u (fun m => { m with guarded := [] })) s
      if t.strictGroup g then t else (s.groupLive g).foldl (fun s u => s.refreshDue u) t))
    (chosen : v.eligible g s.slotNow = (r, w)) :
    exec (.memSlotTick g) s = .next (State.settle (match (generalizing := false) r with
      | none => w
      | some p => (s.groupLive g).foldl (fun s u => s.slotUnit u p s.slotNow (s.slotOwner g s.slotNow == some p)) w)) := by
  have time : w.clock = s.clock := by
    have cleared := foldl_keep (v := State.clock)
      (g := fun s u => s.updUnit u (fun m => { m with guarded := [] })) (fun _ _ => rfl) (s.groupLive g) s
    have kept : v.clock = s.clock := by
      subst refreshed
      dsimp only
      split
      · exact cleared
      · exact (foldl_keep (v := State.clock) (fun _ _ => keep_refreshDue (v := State.clock) (ig_clock.sub rfl) ..) _ _).trans
          cleared
    exact (congrArg (State.clock ∘ Prod.snd) chosen).symm.trans
      ((keep_eligible (v := State.clock) (ig_clock.sub rfl) ..).trans kept)
  refine congrArg settled ?_
  dsimp only
  rw [if_neg (by simp [inRange, held, stopped]), if_neg (by simp [guard]), ← refreshed, chosen]
  cases r with
  | none => rfl
  | some p => exact foldl_slotUnit g p _ s w time

/-- Settles O33: what each tick and each report of a memory interface does. -/
theorem memoryScheduleCompletes : Obligations.MemoryScheduleCompletes := by
  unfold Obligations.MemoryScheduleCompletes
  refine fun s => ⟨fun g inRange held stopped => ⟨fun guard => ?_, fun guard t v cleared refreshed => ?_⟩, fun u inRange live => ?_,
    fun dc rank k r inRange live here => ?_, fun u there => ?_, fun u hot us t there differs units banded => ?_,
    fun u ppa x t here fetched => ?_, fun u ppa t present froze => ⟨fun whole => ?_, fun f g v was frozen counted => ?_, ?_⟩⟩
  · refine congrArg settled ?_
    dsimp only
    rw [if_neg (by simp [inRange, held, stopped]), if_pos guard]
  · subst cleared
    rcases chosen : v.eligible g s.slotNow with ⟨r, w⟩
    rw [memSlotTick_open inRange held stopped guard refreshed chosen]
    cases r <;> rfl
  · exact congrArg settled (if_pos (by simp [inRange, live]))
  · refine congrArg settled ?_
    rw [if_pos (by simp [inRange, live]), here]
  · exact congrArg settled (if_pos there)
  · subst units banded
    exact congrArg settled (if_neg (by simpa [there] using differs))
  · refine congrArg settled ((if_neg (by simp [here])).trans ?_)
    rw [fetched]
  · subst froze
    refine congrArg settled ((if_neg (by simp [present])).trans ?_)
    dsimp only
    rw [whole]
  · subst froze counted
    refine congrArg settled ((if_neg (by simp [present])).trans ?_)
    dsimp only
    rw [was, frozen]
    cases lost : g.contentsLost <;> simp [lost]
  · subst froze
    exact congrArg settled (if_pos present)

/-- Settles O34: what the strainer, the kettle and the initialisation do. -/
theorem scrubbingCompletes : Obligations.ScrubbingCompletes := by
  unfold Obligations.ScrubbingCompletes
  refine fun s => ⟨fun u sec e t d present whole awake on live next there clean entry room issued decoded => ?_,
    fun m word served good => ?_, fun sector => rfl, fun chunk u here capacity ready served => ?_⟩
  · subst entry issued decoded
    refine congrArg settled ?_
    dsimp only
    rw [if_neg (by simp [present, whole, awake, on, live]), next]
    dsimp only
    rw [if_neg (by rw [there, clean]; decide), if_neg (by rw [room]; decide)]
  · refine command_completes served (by simp [firstFail_none_bad, good]) ?_
    simp only [Bool.and_eq_true, beq_iff_eq]
  · refine congrArg settled ?_
    rw [here]
    exact if_neg (by simp [capacity, ready, served])

/-! Retirement. -/

/-- Settles O35: each command's effect, once its checks have passed. -/
theorem retirementCommandsComplete : Obligations.RetirementCommandsComplete := by
  unfold Obligations.RetirementCommandsComplete
  intro s m
  refine ⟨fun u mask served present some_ free => ?_, fun served => ⟨?_, fun idx r here => ?_⟩,
    fun served => ⟨fun hub first count all l inRange one few isAll isL => ?_, fun first l isL => ?_⟩,
    fun ppa u served here aligned present caddy dir spare whole still free fresh room => ⟨fun empty => ?_,
      fun n use held listed found => ?_⟩,
    fun ppa c n mb isC moving => ⟨fun empty => ?_, fun t v held recalled closed copied => ?_⟩,
    fun u sid bg bank served present there whole => ⟨fun t retired => ?_, fun stack variant spares => ?_⟩,
    fun u k mb t moving => ⟨fun copied => ?_, fun sec synd copied => ?_⟩, rfl⟩
  · refine command_completes served ?_ rfl
    rw [State.unitGone, firstFail_none_chk, firstFail_none_bad, firstFail_none_chk, present, free]
    exact ⟨rfl, beq_eq_false_iff_ne.mpr some_, rfl, rfl⟩
  · exact command_completes served rfl rfl
  · exact command_completes served rfl (by simp only [here])
  · subst isAll isL
    refine command_completes served (by simp [firstFail_none_bad, firstFail_none_chk]; omega) ?_
    dsimp only
    rw [paged]
  · subst isL
    refine command_completes served rfl ?_
    dsimp only
    rw [paged]
  · refine command_completes served ?_ ?_
    · simp only [State.unitGone, firstFail_none_bad, firstFail_none_chk, here, present, caddy, dir, spare, still, free, fresh, empty,
        Option.getD_some, whole]
      simp [aligned, room]
    · simp only [empty]
  · refine command_completes served ?_ ?_
    · simp only [State.unitGone, firstFail_none_bad, firstFail_none_chk, here, present, caddy, dir, spare, still, free, fresh,
        Option.getD_some, whole, found]
      simp [aligned, room]
    · simp only [held, here, Option.getD_some, found, listed]
  · subst isC
    refine congrArg settled ?_
    rw [moving]
    exact if_pos (by rw [empty]; rfl)
  · subst isC
    refine congrArg settled ?_
    rw [moving]
    dsimp only
    rw [if_neg (by rw [held]; decide), recalled]
    dsimp only
    rw [if_neg (by rw [closed]; decide), ← copied]
  · subst retired
    refine command_completes served ?_ rfl
    simp [firstFail_none_bad, firstFail_none_chk, present, there, whole]
  · refine command_completes served ?_ rfl
    simp [firstFail_none_bad, firstFail_none_chk, present, there, whole, stack, variant, spares]
  · refine congrArg settled ?_
    rw [moving]
    simp only [copied]
  · refine congrArg settled ?_
    rw [moving]
    simp only [copied]

end Sys2Proof.Proofs
end

/-! The mirror pair: what its commands, beats and packets do. -/

section
namespace Sys2Proof.Proofs
open Sys2Proof.Machine Sys2Proof.Laws

/-! Commands and changes of role. -/

/-- Settles O36: each command's effect once its checks have passed, and each change of role. -/
theorem mirrorCommandsComplete : Obligations.MirrorCommandsComplete := by
  unfold Obligations.MirrorCommandsComplete
  refine fun s m => ⟨fun r served has ports some_ few small role low high free => ?_, fun served has unused => ?_,
    fun served has => ?_, fun served has fenced below => ?_, fun n t active stopped => ?_, fun t standby below solo => ?_,
    fun path t paired known silent => ?_, rfl⟩
  · have present : (bitsOf r.ports 96).any (fun p => !s.portPresent p) = false := by
      rw [List.any_eq_false]
      intro p member
      simp [(ports p member).1]
    have good : (bitsOf r.ports 96).any (s.pairBad r.partner) = false := by
      rw [List.any_eq_false]
      intro p member
      simp [(ports p member).2]
    refine command_completes served ?_ rfl
    rw [firstFail_none_chk, firstFail_none_bad, firstFail_none_bad, firstFail_none_bad, firstFail_none_bad, has, present, good, free]
    simp [some_, few, role]
    omega
  · refine command_completes served (by simp [firstFail_none_chk, has, unused]) ?_
    simp only [beq_iff_eq]
  · exact command_completes served (by simp [firstFail_none_chk, has]) rfl
  · refine command_completes served ?_ rfl
    simp [firstFail_none_chk, firstFail_none_bad, has, fenced]
    omega
  · refine congrArg settled ((if_neg (by simp [active])).trans ?_)
    rw [stopped]
  · subst solo
    simp only [exec, execPairTakeover, standby, beq_self_eq_true, Bool.true_or, if_true]
    have role (f : Mirror → Mirror) (same : (f s.mirror).role = s.mirror.role) : (s.updMirror f).mirror.role = .standby :=
      same.trans standby
    refine congrArg settled ((if_neg ?_).trans ((if_neg ?_).trans ((if_neg ?_).trans ?_)))
    · rw [role _ rfl]
      decide
    · rw [role _ rfl]
      decide
    · exact Nat.not_le.mpr below
    · simp only [keep_mirrorEv (v := State.mirror) (ig_mirror.sub rfl), keep_mirrorEv (v := State.regions) (ig_regions.sub rfl)]
      rfl
  · subst silent
    refine congrArg settled ((if_neg (by simp [paired, known])).trans ?_)
    obtain rfl | rfl : path = 0 ∨ path = 1 := by omega
    · simp [and_assoc]
    · simp [and_assoc]

/-! Packets of the pair. -/

/-- A packet of the pair is let in. -/
theorem pairTake_lets {s : State} {p : Nat} {h : Hdr} {k : State → State} (mine : s.fromPair p h) :
    s.pairTake p h k = k (s.consume p h) := by
  obtain ⟨turn, port, partner, paired⟩ := mine
  unfold State.pairTake
  rw [arrive_turn turn]
  exact if_pos (by rw [port]; simp [partner, paired])
/-- What a beat says depends on nothing that sending one changes. -/
theorem egress_beatWord (s : State) (p src : Nat) (pkt : Packet) : (s.egress p src pkt).beatWord = s.beatWord := by
  have time : (s.egress p src pkt).clock = s.clock := keep_egress (v := State.clock) (ig_clock.sub rfl) ..
  have pair : (s.egress p src pkt).mirror = s.mirror := keep_egress (v := State.mirror) (ig_mirror.sub rfl) ..
  have node : (s.egress p src pkt).net = s.net := keep_egress (v := State.net) (ig_net.sub rfl) ..
  unfold State.beatWord State.now State.node
  rw [time, pair, node]
/-- One beat's word goes out on every port. -/
theorem foldl_beat (h : Hdr) (ps : List Nat) (s t : State) (same : t.beatWord = s.beatWord) :
    ps.foldl (fun t p => t.egress p 65 { hdr := h, data := leBytes 32 s.beatWord.toNat }) t
      = ps.foldl (fun t p => t.egress p 65 { hdr := h, data := leBytes 32 t.beatWord.toNat }) t := by
  induction ps generalizing t with
  | nil => rw [List.foldl_nil, List.foldl_nil]
  | cons p ps ih =>
    rw [List.foldl_cons, List.foldl_cons, same]
    exact ih _ ((egress_beatWord ..).trans same)

/-- Settles O37: what each beat, forward, acknowledgement and step of a resynchronisation does. -/
theorem mirrorPacketsComplete : Obligations.MirrorPacketsComplete := by
  unfold Obligations.MirrorPacketsComplete
  refine fun s => ⟨fun h t beats isH sent => ?_, fun payload crc sum good => ?_, fun p payload q here turn port good => ?_,
    fun p h data t st u mine standby claim seen written => ?_,
    fun p h data t r g b mine standby claim seen named target staging mr mg => ?_,
    fun p h status f t v w mine here erased joined published => ?_, fun p h data st t mine sync claim written => ?_,
    fun rid off r t v bs w syncing ports next moved here recalled read => ?_, fun syncing done_ => ?_,
    fun idle sync returned partner => ?_⟩
  · subst isH
    refine congrArg settled ((if_neg (by simp [beats])).trans ?_)
    rw [sent, ← foldl_beat _ _ s s rfl]
    rfl
  · exact congrArg settled (if_pos (by simp [sum, good]))
  · refine congrArg settled ?_
    rw [here]
    exact (arrive_turn turn).trans (if_pos (by rw [port, good]; rfl))
  · subst seen
    refine congrArg settled ((pairTake_lets mine).trans ((if_neg ?_).trans ?_))
    · simp [standby, claim]
    · simp only [written, Nat.zero_ne_one, if_false]
  · subst seen named
    refine congrArg settled ((pairTake_lets mine).trans ((if_neg ?_).trans ?_))
    · simp [standby, claim]
    · dsimp only at target staging
      simp only [if_true, Nat.mul_zero, Nat.mul_one, Nat.reduceMul, List.drop_zero, target, staging, mr, mg, Bool.and_self]
  · subst erased joined published
    refine congrArg settled ((pairTake_lets mine).trans ?_)
    simp only [here, beq_iff_eq] <;> rfl
  · refine congrArg settled ((pairTake_lets mine).trans ((if_neg ?_).trans ?_))
    · simp [sync, claim]
    · simp only [written]
  · subst moved
    refine congrArg settled ((if_neg (by simp [syncing, ports])).trans ?_)
    simp only [next, here, recalled, Bool.not_true, Bool.false_eq_true, if_false]
    rw [read]
  · exact congrArg settled (if_pos (by simp [syncing, done_]))
  · refine congrArg settled ((if_neg (by simp [idle])).trans (if_pos ?_))
    simpa [sync, returned] using partner

end Sys2Proof.Proofs
end

/-! Watchdogs and resets: what each does when it takes effect. -/

section
namespace Sys2Proof.Proofs
open Sys2Proof.Machine Sys2Proof.Laws

/-- Settles O38: what an expired watchdog, an engine's reset, a read of the dump and a restart of the MPC do. -/
theorem watchdogCommandsComplete : Obligations.WatchdogCommandsComplete := by
  unfold Obligations.WatchdogCommandsComplete
  refine fun s m => ⟨fun q u d t here oldest runs posted => ⟨fun stays => ?_, fun tears active => ?_⟩,
    fun mask period served present good low high => ?_, fun kind num served kinds small present => ?_, fun e works => ?_,
    fun e ok resets t ended => ?_, fun off len d served dumped inside low high => ?_,
    fun armed => ⟨?_, fun state => ⟨fun late => ?_, fun early => ?_⟩⟩, fun restarts => ?_⟩
  · subst posted
    simp [exec, execSheepdogExpiry, here, oldest, runs, stays]
  · subst posted
    simp only [exec, execSheepdogExpiry, here, oldest, runs, tears, active, Bool.not_true, Bool.false_eq_true, if_false, if_true]
    rfl
  · have found : (maskEngines mask).any (fun e => !s.enginePresent e) = false := by
      rw [List.any_eq_false]
      intro e member
      simp [present e member]
    refine command_completes served ?_ rfl
    rw [firstFail_none_chk, firstFail_none_bad, firstFail_none_bad, found, good]
    simp
    omega
  · refine command_completes served ?_ rfl
    simp [firstFail_none_chk, firstFail_none_bad, present, small]
    omega
  · exact congrArg settled (if_pos works)
  · subst ended
    exact congrArg settled (if_neg (by simp [resets]))
  · refine command_completes served ?_ ?_
    · simp [firstFail_none_bad, dumped, inside]
      omega
    · simp only [dumped]
  · exact congrArg settled (if_pos armed)
  · exact congrArg settled ((if_neg (by simp [armed])).trans (if_pos late))
  · exact congrArg settled ((if_neg (by simp [armed])).trans (if_neg (by simp [early])))
  · exact congrArg settled (if_neg (by simp [restarts]))

/-- Settles O39: what each reset of the chip, of a link and of a function does. -/
theorem resetsComplete : Obligations.ResetsComplete := by
  unfold Obligations.ResetsComplete
  refine fun s => ⟨rfl, rfl, fun straps held runs => ?_, fun m kind renumber served kinds number none_ => ?_, fun warm => ?_,
    fun cold => ?_, fun t dropped => ?_, fun vf t p low high ended here => ?_, rfl⟩
  · exact congrArg settled (if_pos (by simp [held, runs]))
  · refine command_completes served ?_ ?_
    · simp [firstFail_none_bad]
      omega
    · rw [none_]
      rfl
  · simp only [exec, execResetDelayExpiry, warm]
    rfl
  · simp only [exec, execResetDelayExpiry, cold]
    rfl
  · subst dropped
    rfl
  · subst ended
    refine congrArg settled ((if_neg (by simp; omega)).trans ?_)
    simp only [here]

end Sys2Proof.Proofs
end

/-! Images, the boot service and bring-up: what each command does once its checks have passed. -/

section
namespace Sys2Proof.Proofs
open Sys2Proof.Machine Sys2Proof.Laws

/-- Settles O40: each command's effect once its checks have passed, and the next packet of a boot service. -/
theorem imagesAndBootServeComplete : Obligations.ImagesAndBootServeComplete := by
  unfold Obligations.ImagesAndBootServeComplete
  refine ⟨fun s m => ⟨fun served => ?_, fun served => ⟨fun off data some_ few inside => ?_, fun len low high => ?_⟩,
      fun served runs => ?_⟩,
    fun s m => ⟨fun r g i served low high here ready inside flock known tc first last slow fast unused few up free => ?_,
      fun sid x bs st t live read => ⟨_, rfl, ?_⟩, fun sid x served here => ?_, fun sid x served here => ?_⟩⟩
  · exact command_completes served rfl rfl
  · refine command_completes served ?_ rfl
    simp [firstFail_none_bad, some_]
    omega
  · refine command_completes served ?_ ?_
    · simp [firstFail_none_bad]
      omega
    · cases fits_ : s.verifies { s.flash.slotB with len := len }
      · exact if_pos (by simp)
      · exact if_neg (by simp)
  · exact command_completes served (by simp [firstFail_none_chk, runs]) rfl
  · have net : s.draw.2.fw = s.fw := keep_draw (v := State.fw) (ig_fw.sub rfl) s
    refine command_completes served ?_ ?_
    · rw [if_neg (Nat.ne_of_gt low), here]
      simp [firstFail_none_chk, firstFail_none_bad, ready, known, unused, up]
      omega
    · dsimp only
      rw [if_neg (Nat.ne_of_gt low), net, free, here]
      rfl
  · simp only [exec, execBootServeSend, live, read, Bool.not_true, Bool.false_eq_true, if_false]
    rfl
  · refine command_completes served (by simp [firstFail_none_bad, here]) ?_
    simp only [here]
  · refine command_completes served (by simp [firstFail_none_bad, here]) ?_
    simp only [here, Option.any_some]

/-- Settles O41: each end of a stage or a window, and each command's effect once its checks have passed. -/
theorem bringUpCommandsComplete : Obligations.BringUpCommandsComplete := by
  unfold Obligations.BringUpCommandsComplete
  refine fun s m => ⟨fun r held runs mpc => ?_, fun t stage use => ?_, fun p w open_ => ?_, fun served => ?_,
    fun served => ⟨?_, fun store t low present good => ⟨_, rfl, ?_⟩⟩, fun served => ⟨fun t here => ?_, fun none_ => ?_⟩⟩
  · exact congrArg settled (if_neg (by simp [held, runs, mpc]))
  · simp only [exec, execTopoWaitExpiry, stage, use]
    rfl
  · simp only [exec, execBerWindowEnd, open_]
    rfl
  · exact command_completes served rfl rfl
  · exact command_completes served rfl rfl
  · have found : (List.range 96).any (fun p => (t.entry p).isSome && !s.portPresent p) = false := by
      rw [List.any_eq_false]
      intro p member
      simpa using present p (List.mem_range.mp member)
    refine command_completes served ?_ ?_
    · rw [firstFail_none_chk, firstFail_none_bad, found, good]
      simp
      omega
    · split <;> simp only [Bool.or_eq_true, decide_eq_true_eq] <;> rfl
  · refine command_completes served rfl ?_
    simp only [here]
  · refine command_completes served rfl ?_
    simp only [none_]

end Sys2Proof.Proofs
end

/-! The mailboxes: what an access that is let in does, and the start and end of the command that a mailbox holds. -/

section
namespace Sys2Proof.Proofs
open Sys2Proof.Machine Sys2Proof.Laws

/-! Mailboxes. -/

@[simp] theorem mb_updMb (s : State) (m : Nat) (f : Mailbox → Mailbox) : (s.updMb m f).mb m = f (s.mb m) := or_upd ..
/-- READY as node 1; port 0's partner may reach mailbox 0, and a register was read before. -/
def afterRead : State :=
  { State.reset with
    boot := { stage := 8, held := false }
    net := { word := 0x0001FD0282800000 }
    ports := [(0, { st := .up, admOk := true })]
    mbs := [(0, { acl := [(7, 2)] })]
    pins := { readData := 1 } }
/-- A fabric write of 8 bytes to endpoint 0xFE. -/
def bufferWrite : Hdr := { opcode := 0x01, msgLen := 8, srcNode := 7, srcEp := 2, dstNode := 1, dstEp := 0xFE }
/-- The data of the last register read, in the state that a command answers. -/
def lastRead : Host.Outcome State Fault Refusal → Option Nat
  | .next t => some t.pins.readData
  | _ => none
theorem bufferWrite_let_in : afterRead.mbOpen (.fabric 0 bufferWrite) 0 = true := by decide
/-- The model leaves the data of the last read alone. -/
theorem lastRead_exec_bufferWrite :
    lastRead (exec (.mbRequestWrite (.fabric 0 bufferWrite) 0 0 (List.replicate 8 0)) afterRead) = some 1 := by
  decide +kernel
/-- The statement's answer writes 0 over it. -/
theorem lastRead_answered_bufferWrite :
    lastRead (.next (State.settle (((afterRead.mbBase (.fabric 0 bufferWrite)).requestWrite (.fabric 0 bufferWrite) 0 0
      (List.replicate 8 0)).mbAnswer (.fabric 0 bufferWrite) 0))) = some 0 := by
  decide +kernel

/-- Refutes O42: the answer to a packet that writes the request buffer is `mbAnswer` in the statement, which makes the data of the
last register read 0; the model answers the packet and leaves that data alone, since nothing was read. -/
theorem not_mailboxAccessesComplete : ¬ Obligations.MailboxAccessesComplete := by
  unfold Obligations.MailboxAccessesComplete
  intro all
  obtain ⟨_, _, _, write⟩ := (all afterRead 0).1 (.fabric 0 bufferWrite) bufferWrite_let_in
  have same := congrArg lastRead (write 0 (List.replicate 8 0) (by decide))
  rw [lastRead_exec_bufferWrite, lastRead_answered_bufferWrite] at same
  exact absurd same (by decide)

/-- Settles O43: what a read and a write of the lock, of the doorbell and of the request buffer leave in the mailbox. -/
theorem mailboxProtocol : Obligations.MailboxProtocol := by
  unfold Obligations.MailboxProtocol
  refine fun s src m up => ⟨fun free => ?_, fun taken other => ?_, fun held mine => ?_, fun val holds ticket => ?_,
    fun val wrong => ⟨?_, ?_⟩, fun val holds held ticket => ?_, fun off data other seen => ?_⟩
  · simp [State.lockRead, up, free]
  · cases st : (s.mb m).st <;> simp [State.lockRead, up, st, other] at taken ⊢
  · simp [State.lockRead, up, held, mine]
  · simp [State.lockWrite, holds, ticket, State.mbFree]
  · have refused : ¬(s.holds src m = true ∧ val % 65536 = (s.mb m).ticket) := by
      rintro ⟨holds, ticket⟩
      simp [holds, ticket] at wrong
    simp [State.lockWrite, refused, State.mbReject]
  · have refused : ¬((s.holds src m = true ∧ (s.mb m).st = .held) ∧ val % 65536 = (s.mb m).ticket) := by
      rintro ⟨⟨holds, _⟩, ticket⟩
      simp [holds, ticket] at wrong
    simp [State.mbSubmit, refused, State.mbReject]
  · have accepted : (s.holds src m && (s.mb m).st == .held && val % 65536 = (s.mb m).ticket) = true := by
      simp [holds, held, ticket]
    rw [State.mbSubmit, if_pos accepted]
    exact ⟨congrArg Mailbox.st (mb_updMb ..), congrArg Mailbox.cap (mb_updMb ..)⟩
  · simp [State.requestWrite, other, seen, State.mbReject]

/-- Settles O44: each command's effect once its checks have passed, and the time base. -/
theorem transportAndTimeComplete : Obligations.TransportAndTimeComplete := by
  unfold Obligations.TransportAndTimeComplete
  refine fun s m => ⟨fun mbx pairs direct served number few small bit => ?_, fun served => ⟨_, command_completes served rfl rfl, rfl, ?_⟩,
    fun fn => rfl, fun fn bar off val => rfl, fun step rate served low high => ?_, rfl⟩
  · have fit : pairs.any (fun x => decide (0xFFFF < x.1 || 0xFF < x.2)) = false := by
      rw [List.any_eq_false]
      intro x member
      have := small x member
      simp
      omega
    refine command_completes served ?_ rfl
    rw [firstFail_none_bad, firstFail_none_bad, firstFail_none_bad, firstFail_none_bad, fit]
    simp
    omega
  · rfl
  · refine ⟨_, command_completes served ?_ rfl, ?_⟩
    · simp [firstFail_none_bad]
      omega
    · refine ⟨rfl, ?_, fun forward => ?_, fun back => ?_⟩
      · dsimp only
        split <;> rfl
      · dsimp only
        rw [if_pos forward, ← BitVec.ofInt_natCast, Int.toNat_of_nonneg forward]
        exact ⟨rfl, rfl⟩
      · dsimp only
        rw [if_neg (Int.not_le.mpr back)]
        have size : (-step).toNat = step.natAbs := by omega
        exact ⟨rfl, congrArg (s.clock.absorb + · * 1000000000) size⟩

end Sys2Proof.Proofs
end

/-! SPDM sessions, sealed records and bounce buffers: what each request does. -/

section
namespace Sys2Proof.Proofs
open Sys2Proof.Machine Sys2Proof.Laws

/-! Requests. -/

section
variable {s : State} {fn : Nat}
/-- A function out of reset answers. -/
theorem spdmOn_up (real : fn ≤ 64) (held : s.boot.held = false) (runs : s.boot.stopped = false) (f : State → State) :
    s.spdmOn fn f = f s := by
  simp [State.spdmOn, held, runs, Nat.not_lt.mpr real]
/-- A request in its phase is answered. -/
theorem spdmAt_phase (real : fn ≤ 64) (held : s.boot.held = false) (runs : s.boot.stopped = false) {n : Nat}
    (phase : s.spdmPhase fn = n) (f : State → State) : s.spdmAt fn n f = f s :=
  (spdmOn_up real held runs _).trans (if_pos phase)
/-- A request within a session that has finished is answered. -/
theorem inSession_finished (real : fn ≤ 64) (held : s.boot.held = false) (runs : s.boot.stopped = false) {id : Nat}
    {x : Session} (here : s.session? fn id = some x) (finished : x.finished = true) (f : Session → State → State) :
    s.inSession fn id f = f x s := by
  rw [State.inSession, spdmOn_up real held runs, here]
  exact if_pos finished
end
/-- Drawing leaves the firmware's state alone. -/
theorem fw_draw (s : State) : s.draw.2.fw = s.fw := keep_draw (v := State.fw) (ig_fw.sub rfl) s
/-- A change of a session goes by a draw. -/
theorem draw_updSession (s : State) (fn id : Nat) (f : Session → Session) :
    (s.updSession fn id f).draw = (s.draw.1, s.draw.2.updSession fn id f) := by
  simp only [State.draw, State.updSession]
  split <;> rfl
/-- Two changes that leave a session's number alone are one. -/
theorem updSession_updSession (s : State) (fn id : Nat) (f g : Session → Session)
    (same : ∀ x, (f x).fn = x.fn ∧ (f x).id = x.id) :
    (s.updSession fn id f).updSession fn id g = s.updSession fn id (fun x => g (f x)) := by
  have one (x : Session) : (if (if x.fn = fn && x.id = id then f x else x).fn = fn
      && (if x.fn = fn && x.id = id then f x else x).id = id then g (if x.fn = fn && x.id = id then f x else x)
      else (if x.fn = fn && x.id = id then f x else x)) = if x.fn = fn && x.id = id then g (f x) else x := by
    by_cases mine : (x.fn = fn && x.id = id) = true
    · simp only [if_pos mine, same]
    · simp only [if_neg mine]
  simp only [State.updSession, List.map_map, Function.comp_def, one]

/-- Settles O45: each request's answer, and what a sealed record and a bounce buffer's command do. -/
theorem securityAndBounceCommandsComplete : Obligations.SecurityAndBounceCommandsComplete := by
  unfold Obligations.SecurityAndBounceCommandsComplete
  refine ⟨fun s fn real held runs => ⟨?_, fun phase => ?_, fun phase => ?_, fun phase => ⟨?_, fun off len => ?_, fun nonce => ?_,
      fun index nonce known => ?_, fun share t id ended few free => ?_⟩, fun sess x mac here fresh => ?_,
      fun sess x here finished => ⟨?_, ?_, fun dir => ?_⟩⟩,
    fun s part => ⟨fun seq kind body tag x here => ⟨fun good => ⟨_, rfl, fun other => ?_, fun request => ⟨_, rfl, ?_⟩⟩, fun wrong => ?_⟩,
      fun m base len p served low allowed here sealed_ own may => ?_⟩⟩
  · exact congrArg settled (spdmOn_up real held runs _)
  · exact congrArg settled (spdmAt_phase real held runs phase _)
  · exact congrArg settled (spdmAt_phase real held runs phase _)
  · exact congrArg settled (spdmAt_phase real held runs phase _)
  · exact congrArg settled (spdmAt_phase real held runs phase _)
  · exact congrArg settled (spdmAt_phase real held runs phase _)
  · exact congrArg settled ((spdmAt_phase real held runs phase _).trans (if_neg (by simp; omega)))
  · have sessions : t.draw.2.draw.2.draw.2.fw = t.fw := (fw_draw _).trans ((fw_draw _).trans (fw_draw t))
    have answered (i : Nat) : t.draw.2.draw.2.draw.2.session? fn i = t.session? fn i := by
      rw [State.session?, sessions]
      rfl
    refine ⟨{ t.draw.2.draw.2.draw.2 with fw := { t.draw.2.draw.2.draw.2.fw with sessions := t.draw.2.draw.2.draw.2.fw.sessions
      ++ [({ fn, id, keyIn := t.draw.2.draw.1, keyOut := t.draw.2.draw.2.draw.1 } : Session)] } },
      t.draw.2.draw.1, t.draw.2.draw.2.draw.1, ?_, congrArg (·.sessions ++ _) sessions⟩
    refine congrArg settled ((spdmAt_phase real held runs phase _).trans ?_)
    dsimp only
    rw [← ended, if_neg (Nat.not_le.mpr few)]
    simp only [answered, free]
  · refine congrArg settled ((spdmOn_up real held runs _).trans ?_)
    simp only [here, fresh, Bool.false_eq_true, if_false]
  · exact congrArg settled (inSession_finished real held runs here finished _)
  · exact congrArg settled (inSession_finished real held runs here finished _)
  · have answered (f) := congrArg settled (inSession_finished real held runs here finished f)
    have sessions : s.draw.2.draw.2.fw = s.fw := (fw_draw _).trans (fw_draw s)
    by_cases one : dir = 0
    · refine ⟨s.draw.1, 0, s.draw.2, congrArg Firmware.sessions (fw_draw s), (answered _).trans ?_⟩
      simp only [one, if_true]
      rfl
    · refine ⟨s.draw.1, s.draw.2.draw.1, s.draw.2.draw.2, congrArg Firmware.sessions sessions, (answered _).trans ?_⟩
      simp only [if_neg one, draw_updSession, updSession_updSession, implies_true, and_self]
      rfl
  · refine congrArg settled ?_
    rw [here]
    exact (if_pos (by simpa using good)).trans (if_pos (by simp [other]))
  · refine congrArg settled ?_
    rw [here]
    exact (if_pos (by simpa using good)).trans (if_neg (by simp [request]))
  · refine congrArg settled ?_
    rw [here]
    exact if_neg (by simpa using wrong)
  · subst own
    refine command_completes served ?_ rfl
    simp [firstFail_none_chk, firstFail_none_bad, here, allowed, sealed_]
    refine ⟨low, fun unset => may.resolve_left ?_⟩
    simp [unset]

end Sys2Proof.Proofs
end

/-! Power, temperature, the low-power states and the test access port: what each command and each signal does. -/

section
namespace Sys2Proof.Proofs
open Sys2Proof.Machine Sys2Proof.Laws

/-! Power and temperature. -/

/-- What is added to a sorted list is in it. -/
theorem mem_addSorted (l : List Nat) (x : Nat) : x ∈ addSorted l x := by
  induction l with
  | nil => exact List.mem_singleton.mpr rfl
  | cons y r ih =>
    unfold addSorted
    split
    · exact List.mem_cons_of_mem y ih
    · split
      · next same => exact same ▸ List.mem_cons_self
      · exact List.mem_cons_self

/-- Settles O46: what each limit, average, throttle, trip and fault does. -/
theorem powerAndThermalComplete : Obligations.PowerAndThermalComplete := by
  unfold Obligations.PowerAndThermalComplete
  refine fun s => ⟨fun m watts mhz served power clock => ?_, fun watts held runs => ⟨_, rfl, ?_⟩, fun high => ?_, fun low => ?_,
    fun hub there acked => ?_, fun unit temp on off sensor point held runs => ?_, fun unit temp sensor point => ?_,
    fun sensor there die => ?_, fun rail => ?_, rfl⟩
  · refine command_completes served ?_ rfl
    simp [firstFail_none_chk]
    omega
  · exact congrArg settled (if_neg (by simp [held, runs]))
  · exact congrArg settled (if_neg (by simp [high]))
  · exact congrArg settled (if_neg (by simp [low]))
  · exact congrArg settled (if_neg (by simp [Nat.not_le.mpr there]; simpa using acked))
  · have boot : (s.record unit temp).boot = s.boot := keep_record (v := State.boot) (ig_boot.sub rfl) ..
    simp only [exec, execThermalThrottle, sensor, point, boot, held, runs, Bool.not_true, Bool.or_self, Bool.false_eq_true, if_false,
      Bool.and_eq_true, decide_eq_true_eq, Bool.not_eq_true']
    rfl
  · simp only [exec, execThermalThrottle, sensor, point, Bool.not_true, Bool.false_eq_true, if_false]
    rfl
  · refine ⟨_, congrArg settled (if_neg (by simp [there, die])), rfl, rfl, ?_⟩
    dsimp only
    exact mem_addSorted ..
  · refine ⟨_, rfl, rfl, ?_⟩
    dsimp only
    exact mem_addSorted ..

/-! Low-power states and the test access port. -/

/-- Settles O47: what each gate, each sleep and wake, and the test access port do. -/
theorem gatingStandbyAndTapComplete : Obligations.GatingStandbyAndTapComplete := by
  unfold Obligations.GatingStandbyAndTapComplete
  refine fun s => ⟨fun e present idle => ⟨fun clocked => ?_, fun operator => ?_⟩,
    fun u present => ⟨fun awake quiet loose => ?_, fun may => ?_, fun asleep => ?_, fun awake => ?_, fun down light => ?_⟩,
    fun awake held runs may => ?_, rfl, fun ir open_ => ?_, fun test => ?_, fun normal => ?_⟩
  · exact congrArg settled (if_pos (by simp [present, idle, clocked]))
  · exact congrArg settled (if_pos (by simp [present, idle, operator]))
  · exact congrArg settled (if_pos (by simp [present, awake, quiet, loose]))
  · exact congrArg settled (if_pos (by simp [present, may]))
  · exact congrArg settled ((if_pos present).trans ((if_neg (by simp [asleep])).trans (if_pos asleep)))
  · exact congrArg settled ((if_pos present).trans (if_pos awake))
  · exact congrArg settled ((if_pos present).trans ((if_neg down).trans (if_neg light)))
  · exact congrArg settled (if_pos (by simp [awake, held, runs, may]))
  · have let_in : ¬(tapIr (ir % 256) == .privateCode && s.fuses.debugLock) = true := by simpa using open_
    refine ⟨{ s.measure 5 (s.fuses.debugWord [ir % 256]) with fw := { (s.measure 5 (s.fuses.debugWord [ir % 256])).fw with
      tapLog := s.fw.tapLog ++ [ir % 256] } }, rfl, congrArg settled ((if_neg let_in).trans ?_)⟩
    simp only [beq_iff_eq]
    rfl
  · exact congrArg settled (if_pos test)
  · exact congrArg settled (if_neg (by simp [normal]))

end Sys2Proof.Proofs
end
